-- ==== Sys2Proof/Word.lean ====
section
/-!
DEFINITION. Word.lean: the word types of the ZK-1 and their plainest arithmetic (00 R9, R10).
-/

namespace Sys2Proof

abbrev Byte := BitVec 8
abbrev Word := BitVec 32
abbrev DWord := BitVec 64
abbrev QWord := BitVec 128
/-- The contents of one vector register (01 R26). -/
abbrev VWord := BitVec 1024

end Sys2Proof
end

