-- ==== Sys2Proof/Syntax.lean ====
section
/-!
DEFINITION. Syntax.lean: the instructions, host commands and device events of the ZK-1, one constructor of `Instr`
per row of spec/opcode_table.json, and the plain data they carry (02 R51 to R72, 14 R366, R367, 95).
-/

namespace Sys2Proof

/-- The operand fields of a one-word instruction (02 R52).  OP and FN are the constructor. -/
structure Base where
  /-- trapping bit of the register read through B, or through D in the forms that read D -/
  tb : Bool
  /-- trapping bit of the register read through A -/
  ta : Bool
  b : BitVec 6
  a : BitVec 6
  d : BitVec 6
  deriving DecidableEq, Repr

/-- The operand fields of an instruction of any length (02 R51 to R54): the base word's, extended word 1's, IMM32 and
the literal.  The words that LEN does not call for are zero here. -/
structure Ext where
  len : BitVec 2
  tb : Bool
  ta : Bool
  b : BitVec 6
  a : BitVec 6
  d : BitVec 6
  sub : BitVec 8
  ord : BitVec 3
  scope : BitVec 3
  pneg : Bool
  pred : BitVec 3
  fmt : BitVec 4
  rm : BitVec 3
  tc : Bool
  c : BitVec 6
  imm : BitVec 32
  lit : BitVec 64
  deriving DecidableEq, Repr

/-- A one-word instruction read as the general record: every further field is zero, so it is governed by p0 (01 R29). -/
def Base.ext (f : Base) : Ext :=
  ⟨0#2, f.tb, f.ta, f.b, f.a, f.d, 0#8, 0#3, 0#3, false, 0#3, 0#4, 0#3, false, 0#6, 0#32, 0#64⟩

/-- A hardware thread, by the position fields of TID (01 R36).  `thread` 0 to 3 are the firing threads, 4 is the service
thread.  On a Lupin core (`lupin`) `cluster` holds the stack and the low four channel bits and `core` holds 4 times the
top channel bit, as R36 reads them. -/
structure Pos where
  lupin : Bool
  die : Nat
  cluster : Nat
  core : Nat
  thread : Nat
  deriving DecidableEq, Repr

/-- One firing, wherever it is held: a context has at most one firing of an instance in progress (09 R261).  For a loop
firing `band` is the loop's record number, `gang` the round and `inst` the window position (12 R327). -/
structure FiringId where
  ctx : Nat
  band : Nat
  gang : Nat
  inst : Nat
  firing : Nat
  deriving DecidableEq, Repr

/-- 128 bits with their tag: a register's or a memory granule's contents (01 R20, R43). -/
structure TCap where
  val : QWord
  tag : Bool
  deriving DecidableEq, Repr

/-- The header of a host command (14 R366).  OPCODE is the constructor. -/
structure CmdHeader where
  reserved : BitVec 16
  context : BitVec 16
  length : BitVec 16
  status : BitVec 8
  opcode : BitVec 8
  seq : DWord
  deriving DecidableEq, Repr

/-- OPEN (14 R368). -/
structure OpenRequest where
  nonce : BitVec 256
  /-- the 1,312 bytes of the public key -/
  key : List Byte
  /-- the 2,420 bytes of the signature -/
  signature : List Byte
  takeover : Bool
  deriving DecidableEq, Repr

/-- The settable fields of a context (14 R369); an absent field keeps its value, or its default at creation. -/
structure SettableRequest where
  saveArea : Option (DWord × Nat)
  /-- address and size of the spill heap, the size in units of 64 KiB -/
  spillHeap : Option (DWord × Nat)
  timeoutMs : Option Nat
  waitLimit : Option Nat
  runLimit : Option Nat
  stallInterval : Option Nat
  deriving DecidableEq, Repr

/-- CTXCREATE (14 R369). -/
structure ContextRequest where
  det : Bool
  /-- eligible clusters, bit die · 64 + cluster -/
  clusters : BitVec 256
  /-- eligible Lupin cores, bit die · 128 + stack · 32 + channel -/
  lupins : BitVec 512
  trapEntry : TCap
  /-- physical address of the level-0 table -/
  root : DWord
  handlerTable : DWord
  settable : SettableRequest
  adopt : Bool
  deriving DecidableEq, Repr

/-- One entry that MAPWRITE writes: the entry of `level` that the walk of `address` reaches (13 R357, R358). -/
structure MapEntry where
  address : DWord
  level : Nat
  word : DWord
  deriving DecidableEq, Repr

/-- MAPWRITE (14 R367): entries, and frames (die, physical address) for the frame pools. -/
structure MapRequest where
  entries : List MapEntry
  frames : List (Nat × Nat)
  deriving DecidableEq, Repr

/-- The four words of a format-window register (08 R250). -/
structure WindowWords where
  w0 : DWord
  w1 : DWord
  w2 : DWord
  w3 : DWord
  deriving DecidableEq, Repr

/-- WINDOWSET (14 R367). -/
structure WindowRequest where
  die : Nat
  window : Nat
  words : WindowWords
  deriving DecidableEq, Repr

/-- AMOQSET (05 R157, 14 R367); an absent counter or BATCH is left as it is. -/
structure AmoqRequest where
  window : Nat
  counter : Option DWord
  batch : Option Nat
  /-- bytes of the request area -/
  area : Nat
  deriving DecidableEq, Repr

/-- One address and capability of CAPWRITE (14 R367). -/
structure CapPair where
  address : DWord
  cap : QWord
  deriving DecidableEq, Repr

/-- FIRMWARE (14 R367): one fragment of a signed image. -/
structure FirmwareFragment where
  stage : Nat
  slot : Nat
  offset : Nat
  total : Nat
  last : Bool
  image : List Byte
  deriving DecidableEq, Repr

/-- FABRICMAP (14 R365): own number, and map entries (device number, fabric address). -/
structure FabricRequest where
  number : Nat
  entries : List (Nat × Nat)
  deriving DecidableEq, Repr

/-- The power states (14 R372). -/
inductive PowerState where
  | d0 | d1 | d2 | d3
  deriving DecidableEq, Repr

/-- The sensors (14 R372). -/
inductive Sensor where
  | die (number : Nat)
  | stack (number : Nat)
  /-- the current of a rail group -/
  | current (group : Nat)
  deriving DecidableEq, Repr

/-- Unit kinds of DEVFAULT (14 R367). -/
inductive UnitKind where
  | computeDie | cacheDie | stack | lupinCore | forvasLink | port | hub
  deriving DecidableEq, Repr

/-- Where a memory error strikes (13 R360). -/
inductive ErrorPlace where
  | hbm | l2 | stash | coreStore | clusterStore
  deriving DecidableEq, Repr

/-- One entry of an activation alert log (11 R325). -/
structure AlertEntry where
  cycle : Nat
  channel : Nat
  bank : Nat
  row : Nat
  /-- the agent the alert is attributed to: the base-die sequencer, else the memory controller -/
  sequencer : Bool
  deriving DecidableEq, Repr

/-- An access sent by another device that arrives over Ultra Ethernet (08 R260): its kind, the sending device, the
context number it carries, the address and its bytes. -/
inductive RemoteAccess where
  | load (device ctx : Nat) (address : DWord) (size : Nat)
  | store (device ctx : Nat) (address : DWord) (data : List Byte)
  /-- a tagged capability store: the tag crosses only on a sealed capability with GLOBAL (01 R43) -/
  | storeCap (device ctx : Nat) (address : DWord) (cap : TCap)
  /-- an atomic: operation code of AMO, width in bytes, operand, whether the old value is returned -/
  | atomic (device ctx : Nat) (address : DWord) (op : Nat) (width : Nat) (operand : DWord) (returns : Bool)
  /-- one copy packet -/
  | packet (device ctx : Nat) (address : DWord) (data : List Byte)
  /-- an instruction of OP 0x12 by its FN, numbered by its sender, and the word it stores (05 R149) -/
  | fullWord (device ctx : Nat) (address : DWord) (number fn : Nat) (value : Word)
  /-- an instruction of OP 0x18 by its FN, and the value of its B (05 R161) -/
  | barrier (device ctx : Nat) (address : DWord) (fn : Nat) (value : DWord)
  deriving DecidableEq, Repr


/-- The one inductive of instructions, commands and events: one constructor per row of the opcode table.
A row of one word carries `Base`; a row of any other length carries `Ext`; a command or an event carries what it
brings with it. -/
inductive Instr where
  /-- R115: One-word register form: adds two g registers modulo 2^64 into an untagged result. -/
  | add (f : Base)
  /-- R115: Literal or predicated forms of ADD (LEN 01, 10, 11). -/
  | addExt (f : Ext)
  /-- R115: One-word form: subtracts B from A modulo 2^64. -/
  | sub (f : Base)
  /-- R115: Literal or predicated forms of SUB. -/
  | subExt (f : Ext)
  /-- R115: One-word form: low 64 bits of the product. -/
  | mul (f : Base)
  /-- R115: Literal or predicated forms of MUL. -/
  | mulExt (f : Ext)
  /-- R115: One-word form: high 64 bits of the signed 128-bit product. -/
  | mulh (f : Base)
  /-- R115: Literal or predicated forms of MULH. -/
  | mulhExt (f : Ext)
  /-- R115: One-word form: high 64 bits of the unsigned 128-bit product. -/
  | mulhn (f : Base)
  /-- R115: Literal or predicated forms of MULHN. -/
  | mulhnExt (f : Ext)
  /-- R116: One-word form: signed quotient toward zero; divide by zero traps 0x16. -/
  | div (f : Base)
  /-- R116: Literal or predicated forms of DIV. -/
  | divExt (f : Ext)
  /-- R116: One-word form: unsigned quotient; divide by zero traps 0x16. -/
  | divn (f : Base)
  /-- R116: Literal or predicated forms of DIVN. -/
  | divnExt (f : Ext)
  /-- R116: One-word form: signed remainder with the sign of A. -/
  | rem (f : Base)
  /-- R116: Literal or predicated forms of REM. -/
  | remExt (f : Ext)
  /-- R116: One-word form: unsigned remainder. -/
  | remn (f : Base)
  /-- R116: Literal or predicated forms of REMN. -/
  | remnExt (f : Ext)
  /-- R115: One-word form: bitwise AND. -/
  | and (f : Base)
  /-- R115: Literal or predicated forms of AND. -/
  | andExt (f : Ext)
  /-- R115: One-word form: bitwise OR. -/
  | or (f : Base)
  /-- R115: Literal or predicated forms of OR. -/
  | orExt (f : Ext)
  /-- R115: One-word form: bitwise XOR. -/
  | xor (f : Base)
  /-- R115: Literal or predicated forms of XOR. -/
  | xorExt (f : Ext)
  /-- R115: One-word form: A AND NOT B. -/
  | andn (f : Base)
  /-- R115: Literal or predicated forms of ANDN. -/
  | andnExt (f : Ext)
  /-- R115: One-word form: shift left by B mod 64. -/
  | shl (f : Base)
  /-- R115: Literal or predicated forms of register SHL. -/
  | shlExt (f : Ext)
  /-- R115: One-word form: logical right shift by B mod 64. -/
  | shr (f : Base)
  /-- R115: Literal or predicated forms of register SHR. -/
  | shrExt (f : Ext)
  /-- R115: One-word form: arithmetic right shift by B mod 64. -/
  | shra (f : Base)
  /-- R115: Literal or predicated forms of register SHRA. -/
  | shraExt (f : Ext)
  /-- R115: One-word form: rotate left by B mod 64. -/
  | rotl (f : Base)
  /-- R115: Literal or predicated forms of register ROTL. -/
  | rotlExt (f : Ext)
  /-- R115: One-word form: rotate right by B mod 64. -/
  | rotr (f : Base)
  /-- R115: Literal or predicated forms of register ROTR. -/
  | rotrExt (f : Ext)
  /-- R115: One-word form: signed minimum. -/
  | min (f : Base)
  /-- R115: Literal or predicated forms of MIN. -/
  | minExt (f : Ext)
  /-- R115: One-word form: signed maximum. -/
  | max (f : Base)
  /-- R115: Literal or predicated forms of MAX. -/
  | maxExt (f : Ext)
  /-- R115: One-word form: unsigned minimum. -/
  | minn (f : Base)
  /-- R115: Literal or predicated forms of MINN. -/
  | minnExt (f : Ext)
  /-- R115: One-word form: unsigned maximum. -/
  | maxn (f : Base)
  /-- R115: Literal or predicated forms of MAXN. -/
  | maxnExt (f : Ext)
  /-- R115: One-word form: adds a signed 6-bit immediate. -/
  | addi (f : Base)
  /-- R115: Predicated form of ADDI (LEN 10). -/
  | addiExt (f : Ext)
  /-- R115: One-word form: shift left by an immediate count. -/
  | shlI6 (f : Base)
  /-- R115: Predicated immediate SHL. -/
  | shlI6Ext (f : Ext)
  /-- R115: One-word form: logical right shift by an immediate count. -/
  | shrI6 (f : Base)
  /-- R115: Predicated immediate SHR. -/
  | shrI6Ext (f : Ext)
  /-- R115: One-word form: arithmetic right shift by an immediate count. -/
  | shraI6 (f : Base)
  /-- R115: Predicated immediate SHRA. -/
  | shraI6Ext (f : Ext)
  /-- R115: One-word form: rotate left by an immediate count. -/
  | rotlI6 (f : Base)
  /-- R115: Predicated immediate ROTL. -/
  | rotlI6Ext (f : Ext)
  /-- R115: One-word form: rotate right by an immediate count. -/
  | rotrI6 (f : Base)
  /-- R115: Predicated immediate ROTR. -/
  | rotrI6Ext (f : Ext)
  /-- R117: One-word form: counts leading zero bits. -/
  | clz (f : Base)
  /-- R117: Predicated CLZ. -/
  | clzExt (f : Ext)
  /-- R117: One-word form: counts trailing zero bits. -/
  | ctz (f : Base)
  /-- R117: Predicated CTZ. -/
  | ctzExt (f : Ext)
  /-- R117: One-word form: counts one bits. -/
  | popc (f : Base)
  /-- R117: Predicated POPC. -/
  | popcExt (f : Ext)
  /-- R117: One-word form: reverses the bit order. -/
  | brev (f : Base)
  /-- R117: Predicated BREV. -/
  | brevExt (f : Ext)
  /-- R117: One-word form: reverses the byte order. -/
  | bswap (f : Base)
  /-- R117: Predicated BSWAP. -/
  | bswapExt (f : Ext)
  /-- R117: One-word form: sign-extends the low w bits. -/
  | sext (f : Base)
  /-- R117: Predicated SEXT. -/
  | sextExt (f : Ext)
  /-- R117: One-word form: zero-extends the low w bits. -/
  | zext (f : Base)
  /-- R117: Predicated ZEXT. -/
  | zextExt (f : Ext)
  /-- R117: Extracts a bit field given by IMM32 position and width. -/
  | bfx (f : Ext)
  /-- R117: Inserts A's low bits into B at an IMM32 position and width. -/
  | bfi (f : Ext)
  /-- R117: Selects register A or B/literal whole by bit 0 of a selector predicate. -/
  | sel (f : Ext)
  /-- R117: One-word form: copies all 128 bits and the tag of A. -/
  | mov (f : Base)
  /-- R117: Predicated MOV. -/
  | movExt (f : Ext)
  /-- R117: One-word form: loads a sign-extended 6-bit immediate. -/
  | li (f : Base)
  /-- R117: Literal or predicated forms of LI. -/
  | liExt (f : Ext)
  /-- R118: One-word form: sets a predicate when A equals B. -/
  | cmpEq (f : Base)
  /-- R118: Literal or predicated CMP.EQ. -/
  | cmpEqExt (f : Ext)
  /-- R118: One-word form: sets a predicate when A differs from B. -/
  | cmpNe (f : Base)
  /-- R118: Literal or predicated CMP.NE. -/
  | cmpNeExt (f : Ext)
  /-- R118: One-word form: signed less-than into a predicate. -/
  | cmpLt (f : Base)
  /-- R118: Literal or predicated CMP.LT. -/
  | cmpLtExt (f : Ext)
  /-- R118: One-word form: signed less-or-equal. -/
  | cmpLe (f : Base)
  /-- R118: Literal or predicated CMP.LE. -/
  | cmpLeExt (f : Ext)
  /-- R118: One-word form: signed greater-than. -/
  | cmpGt (f : Base)
  /-- R118: Literal or predicated CMP.GT. -/
  | cmpGtExt (f : Ext)
  /-- R118: One-word form: signed greater-or-equal. -/
  | cmpGe (f : Base)
  /-- R118: Literal or predicated CMP.GE. -/
  | cmpGeExt (f : Ext)
  /-- R118: One-word form: unsigned less-than. -/
  | cmpLtn (f : Base)
  /-- R118: Literal or predicated CMP.LTN. -/
  | cmpLtnExt (f : Ext)
  /-- R118: One-word form: unsigned less-or-equal. -/
  | cmpLen (f : Base)
  /-- R118: Literal or predicated CMP.LEN. -/
  | cmpLenExt (f : Ext)
  /-- R118: One-word form: unsigned greater-than. -/
  | cmpGtn (f : Base)
  /-- R118: Literal or predicated CMP.GTN. -/
  | cmpGtnExt (f : Ext)
  /-- R118: One-word form: unsigned greater-or-equal. -/
  | cmpGen (f : Base)
  /-- R118: Literal or predicated CMP.GEN. -/
  | cmpGenExt (f : Ext)
  /-- R125: One-word form: moves a capability's cursor by B, untagging outside the representable window. -/
  | cadd (f : Base)
  /-- R125: Literal or predicated CADD. -/
  | caddExt (f : Ext)
  /-- R125: One-word form: sets a capability's cursor to B. -/
  | cseta (f : Base)
  /-- R125: Literal or predicated CSETA. -/
  | csetaExt (f : Ext)
  /-- R126: One-word form: narrows bounds to [cursor, cursor+b) rounded outward. -/
  | cbound (f : Base)
  /-- R126: Literal or predicated CBOUND. -/
  | cboundExt (f : Ext)
  /-- R126: One-word form: as CBOUND but traps 0x05 on inexact bounds. -/
  | cboundx (f : Base)
  /-- R126: Literal or predicated CBOUNDX. -/
  | cboundxExt (f : Ext)
  /-- R124: One-word form: ANDs a capability's permissions with B. -/
  | candp (f : Base)
  /-- R124: Literal or predicated CANDP. -/
  | candpExt (f : Ext)
  /-- R127: One-word form: seals A with the object type held in B's cursor. -/
  | cseal (f : Base)
  /-- R127: Predicated CSEAL. -/
  | csealExt (f : Ext)
  /-- R127: One-word form: unseals A using B's UNSEAL authority. -/
  | cunseal (f : Base)
  /-- R127: Predicated CUNSEAL. -/
  | cunsealExt (f : Ext)
  /-- R128: One-word form: reads a decoded capability field as data. -/
  | cget (f : Base)
  /-- R128: Predicated CGET. -/
  | cgetExt (f : Ext)
  /-- R124: One-word form: writes A's low 64 bits as untagged data. -/
  | cclear (f : Base)
  /-- R124: Predicated CCLEAR. -/
  | cclearExt (f : Ext)
  /-- R129: One-word form: reports whether B could derive from A into a predicate. -/
  | ctest (f : Base)
  /-- R129: Predicated CTEST. -/
  | ctestExt (f : Ext)
  /-- R124: One-word form: difference of two cursors as data. -/
  | csub (f : Base)
  /-- R124: Predicated CSUB. -/
  | csubExt (f : Ext)
  /-- R119: One-word form: bitwise AND of predicates. -/
  | pand (f : Base)
  /-- R119: Predicated PAND. -/
  | pandExt (f : Ext)
  /-- R119: One-word form: bitwise OR of predicates. -/
  | por (f : Base)
  /-- R119: Predicated POR. -/
  | porExt (f : Ext)
  /-- R119: One-word form: bitwise XOR of predicates. -/
  | pxor (f : Base)
  /-- R119: Predicated PXOR. -/
  | pxorExt (f : Ext)
  /-- R119: One-word form: bitwise NOT of a predicate. -/
  | pnot (f : Base)
  /-- R119: Predicated PNOT. -/
  | pnotExt (f : Ext)
  /-- R119: One-word form: copies a predicate. -/
  | pmov (f : Base)
  /-- R119: Predicated PMOV. -/
  | pmovExt (f : Ext)
  /-- R119: One-word form: sets a predicate from bits [31:0] of a g register. -/
  | pset (f : Base)
  /-- R119: LEN 10 form: sets a predicate from IMM32. -/
  | psetExt (f : Ext)
  /-- R119: One-word form: copies a predicate zero-extended into a g register. -/
  | pget (f : Base)
  /-- R119: Predicated PGET. -/
  | pgetExt (f : Ext)
  /-- R120: Scalar FP64/FP32 addition rounded under RM. -/
  | fadd (f : Ext)
  /-- R120: Scalar FP subtraction. -/
  | fsub (f : Ext)
  /-- R120: Scalar FP multiplication. -/
  | fmul (f : Ext)
  /-- R120: Scalar fused multiply-add with one rounding. -/
  | ffma (f : Ext)
  /-- R120: Correctly rounded scalar division. -/
  | fdiv (f : Ext)
  /-- R120: Correctly rounded scalar square root. -/
  | fsqrt (f : Ext)
  /-- R120: Scalar FP minimum with -0 < +0. -/
  | fmin (f : Ext)
  /-- R120: Scalar FP maximum with -0 < +0. -/
  | fmax (f : Ext)
  /-- R121: Scalar FP compare into a predicate. -/
  | fcmp (f : Ext)
  /-- R122: Scalar format conversion, trapping 0x0C on range errors. -/
  | fcvt (f : Ext)
  /-- R123: Writes a one-hot class mask of a scalar FP value. -/
  | fclass (f : Ext)
  /-- R130: Branches to base plus IMM32 offset. -/
  | br (f : Ext)
  /-- R130: Branches when a predicate passes its any/all/none test. -/
  | brp (f : Ext)
  /-- R130: Writes the return address as data and branches. -/
  | call (f : Ext)
  /-- R130: One-word form: jumps to the cursor of A. -/
  | ret (f : Base)
  /-- R130: Predicated RET. -/
  | retExt (f : Ext)
  /-- R131: One-word form: transfers control through an entry or unsealed capability. -/
  | jmpc (f : Base)
  /-- R131: Predicated JMPC. -/
  | jmpcExt (f : Ext)
  /-- R132: Decrements a counter register and branches while it is nonzero. -/
  | loop (f : Ext)
  /-- R133: Waits for pending producers and RCALLN calls, then closes the firing. -/
  | endFiring (f : Base)
  /-- R134: Does nothing. -/
  | nop (f : Base)
  /-- R134: One-word form: raises trap 0x17 with an I6 code. -/
  | etrap (f : Base)
  /-- R134: LEN 10 ETRAP with the code in IMM32. -/
  | etrapExt (f : Ext)
  /-- R135: Leaves trap state, restores the code capability and resumes at TPC. -/
  | eret (f : Base)
  /-- R136: One-word form: reads a system register into a g register. -/
  | mfs (f : Base)
  /-- R136: Predicated MFS. -/
  | mfsExt (f : Ext)
  /-- R136: One-word form: writes a writable system register. -/
  | mts (f : Base)
  /-- R136: Predicated MTS. -/
  | mtsExt (f : Ext)
  /-- R137: One-word form: makes a g register empty with no producer. -/
  | femptyG (f : Base)
  /-- R137: Predicated FEMPTY of a g register. -/
  | femptyGExt (f : Ext)
  /-- R137: One-word form: makes a v register empty with no producer. -/
  | femptyV (f : Base)
  /-- R137: Predicated FEMPTY of a v register. -/
  | femptyVExt (f : Ext)
  /-- R138: One-word form: tests whether a g register is full, without waiting. -/
  | ftestG (f : Base)
  /-- R138: Predicated FTEST of a g register. -/
  | ftestGExt (f : Ext)
  /-- R138: One-word form: tests whether a v register or channel is full. -/
  | ftestV (f : Base)
  /-- R138: Predicated FTEST of a v register or channel. -/
  | ftestVExt (f : Ext)
  /-- R141: One-word form: loads a sign-extended byte. -/
  | ldI8 (f : Base)
  /-- R141: IMM32-offset or predicated LD.I8. -/
  | ldI8Ext (f : Ext)
  /-- R141: One-word form: loads a zero-extended byte. -/
  | ldN8 (f : Base)
  /-- R141: IMM32-offset or predicated LD.N8. -/
  | ldN8Ext (f : Ext)
  /-- R141: One-word form: loads a sign-extended halfword. -/
  | ldI16 (f : Base)
  /-- R141: IMM32-offset or predicated LD.I16. -/
  | ldI16Ext (f : Ext)
  /-- R141: One-word form: loads a zero-extended halfword. -/
  | ldN16 (f : Base)
  /-- R141: IMM32-offset or predicated LD.N16. -/
  | ldN16Ext (f : Ext)
  /-- R141: One-word form: loads a sign-extended word. -/
  | ldI32 (f : Base)
  /-- R141: IMM32-offset or predicated LD.I32. -/
  | ldI32Ext (f : Ext)
  /-- R141: One-word form: loads a zero-extended word. -/
  | ldN32 (f : Base)
  /-- R141: IMM32-offset or predicated LD.N32. -/
  | ldN32Ext (f : Ext)
  /-- R141: One-word form: loads a 64-bit value. -/
  | ld64 (f : Base)
  /-- R141: IMM32-offset or predicated LD.64. -/
  | ld64Ext (f : Ext)
  /-- R144: One-word form: loads 16 bytes, keeping the tag under LDCAP. -/
  | ldc (f : Base)
  /-- R144: IMM32-offset or predicated LDC. -/
  | ldcExt (f : Ext)
  /-- R145: One-word form: 32-bit acquire load at core scope. -/
  | lda32 (f : Base)
  /-- R145: Scoped or predicated LDA.32. -/
  | lda32Ext (f : Ext)
  /-- R145: One-word form: 64-bit acquire load at core scope. -/
  | lda64 (f : Base)
  /-- R145: Scoped or predicated LDA.64. -/
  | lda64Ext (f : Ext)
  /-- R141: One-word form: stores a byte. -/
  | st8 (f : Base)
  /-- R141: IMM32-offset or predicated ST.8. -/
  | st8Ext (f : Ext)
  /-- R141: One-word form: stores a halfword. -/
  | st16 (f : Base)
  /-- R141: IMM32-offset or predicated ST.16. -/
  | st16Ext (f : Ext)
  /-- R141: One-word form: stores a word. -/
  | st32 (f : Base)
  /-- R141: IMM32-offset or predicated ST.32. -/
  | st32Ext (f : Ext)
  /-- R141: One-word form: stores 64 bits. -/
  | st64 (f : Base)
  /-- R141: IMM32-offset or predicated ST.64. -/
  | st64Ext (f : Ext)
  /-- R144: One-word form: stores 16 bytes, setting the granule tag for a tagged value. -/
  | stc (f : Base)
  /-- R144: IMM32-offset or predicated STC. -/
  | stcExt (f : Ext)
  /-- R145: One-word form: 32-bit release store at core scope. -/
  | stl32 (f : Base)
  /-- R145: Scoped or predicated STL.32. -/
  | stl32Ext (f : Ext)
  /-- R145: One-word form: 64-bit release store at core scope. -/
  | stl64 (f : Base)
  /-- R145: Scoped or predicated STL.64. -/
  | stl64Ext (f : Ext)
  /-- R149: One-word form: waits for a full word, reads it and sets it empty. -/
  | ldf (f : Base)
  /-- R149: IMM32-offset, scoped or predicated LDF. -/
  | ldfExt (f : Ext)
  /-- R149: One-word form: waits for a full word and reads it, leaving it full. -/
  | ldfk (f : Base)
  /-- R149: IMM32-offset, scoped or predicated LDFK. -/
  | ldfkExt (f : Ext)
  /-- R149: One-word form: waits for an empty word, writes it and sets it full. -/
  | ste (f : Base)
  /-- R149: IMM32-offset, scoped or predicated STE. -/
  | steExt (f : Ext)
  /-- R149: One-word form: writes a word and sets it full without waiting. -/
  | stfx (f : Base)
  /-- R149: IMM32-offset, scoped or predicated STFX. -/
  | stfxExt (f : Ext)
  /-- R149: One-word form: reports a word's full/empty state into a predicate. -/
  | feq (f : Base)
  /-- R149: IMM32-offset or predicated FEQ. -/
  | feqExt (f : Ext)
  /-- R146: One-word form: loads a stream record and base capability into a slot. -/
  | sload (f : Base)
  /-- R146: Predicated SLOAD. -/
  | sloadExt (f : Ext)
  /-- R147: One-word form: reads the next stream element into a g register. -/
  | sldG (f : Base)
  /-- R147: Predicated SLD into a g register. -/
  | sldGExt (f : Ext)
  /-- R147: One-word form: reads the next stream element into a v register. -/
  | sldV (f : Base)
  /-- R147: Predicated SLD into a v register. -/
  | sldVExt (f : Ext)
  /-- R147: One-word form: writes a g register as the next stream element. -/
  | sstG (f : Base)
  /-- R147: Predicated SST from a g register. -/
  | sstGExt (f : Ext)
  /-- R147: One-word form: writes a v register as the next stream element. -/
  | sstV (f : Base)
  /-- R147: Predicated SST from a v register. -/
  | sstVExt (f : Ext)
  /-- R150: One-word form: maps a core-store range onto global memory. -/
  | stash (f : Base)
  /-- R150: Predicated STASH. -/
  | stashExt (f : Ext)
  /-- R151: One-word form: writes back and removes a stash mapping. -/
  | unstash (f : Base)
  /-- R151: Predicated UNSTASH. -/
  | unstashExt (f : Ext)
  /-- R151: One-word form: writes back a mapping's dirty lines, keeping them. -/
  | stashwb (f : Base)
  /-- R151: Predicated STASHWB. -/
  | stashwbExt (f : Ext)
  /-- R152: One-word form: brings a line into the die's L2; never traps. -/
  | pref (f : Base)
  /-- R152: IMM32-offset or predicated PREF. -/
  | prefExt (f : Ext)
  /-- R152: One-word form: stores 128 zero bytes, creating a zero line. -/
  | clzero (f : Base)
  /-- R152: IMM32-offset or predicated CLZERO. -/
  | clzeroExt (f : Ext)
  /-- R152: One-word form: writes a dirty line back to HBM. -/
  | clwb (f : Base)
  /-- R152: IMM32-offset or predicated CLWB. -/
  | clwbExt (f : Ext)
  /-- R152: One-word form: writes back and invalidates a line everywhere in the device. -/
  | clinv (f : Base)
  /-- R152: IMM32-offset or predicated CLINV. -/
  | clinvExt (f : Ext)
  /-- R153: Returning integer atomic read-modify-write. -/
  | amo (f : Ext)
  /-- R153: Returning compare-and-swap. -/
  | amocas (f : Ext)
  /-- R153: Return-free integer atomic. -/
  | amon (f : Ext)
  /-- R153: Floating-point atomic add, return-free or returning. -/
  | amof (f : Ext)
  /-- R157: Submits an ordered-atomic request to a window and waits for acceptance. -/
  | amoq (f : Ext)
  /-- R158: Orders the thread's earlier accesses before later ones at a scope. -/
  | fence (f : Ext)
  /-- R159: Waits for copies, matrix commands or calls in its mask, then fences. -/
  | fencex (f : Ext)
  /-- R161: One-word form: initialises a barrier word with EXPECTED. -/
  | binit (f : Base)
  /-- R161: Scoped or predicated BINIT. -/
  | binitExt (f : Ext)
  /-- R161: One-word form: arrives at a barrier and returns the phase token. -/
  | barr (f : Base)
  /-- R161: Scoped or predicated BARR. -/
  | barrExt (f : Ext)
  /-- R161: One-word form: arrives announcing pending bytes. -/
  | barrx (f : Base)
  /-- R161: Scoped or predicated BARRX. -/
  | barrxExt (f : Ext)
  /-- R161: One-word form: waits until PHASE differs from the token. -/
  | bwait (f : Base)
  /-- R161: Scoped or predicated BWAIT. -/
  | bwaitExt (f : Ext)
  /-- R161: One-word form: tests the barrier phase without waiting. -/
  | btest (f : Base)
  /-- R161: Scoped or predicated BTEST. -/
  | btestExt (f : Ext)
  /-- R161: One-word form: adds to PENDING and tests completion. -/
  | bbytes (f : Base)
  /-- R161: Scoped or predicated BBYTES. -/
  | bbytesExt (f : Ext)
  /-- R163: Pushes a copy request into the core's FIFO, waiting when full. -/
  | xcopy (f : Ext)
  /-- R164: As XCOPY but writes 1 instead of waiting when the FIFO or scoreboard is full. -/
  | xcopyt (f : Ext)
  /-- R167: One-word form: waits until XDONE passes an identifier, reporting faults. -/
  | xwait (f : Base)
  /-- R167: Predicated XWAIT. -/
  | xwaitExt (f : Ext)
  /-- R167: One-word form: reads a transfer's state without waiting. -/
  | xstat (f : Base)
  /-- R167: Predicated XSTAT. -/
  | xstatExt (f : Ext)
  /-- R167: One-word form: cancels a transfer at its next packet boundary. -/
  | xcancel (f : Base)
  /-- R167: Predicated XCANCEL. -/
  | xcancelExt (f : Ext)
  /-- R170: Queues an indexed gather copy on a channel. -/
  | xgath (f : Ext)
  /-- R171: Writes a bitmap-compressed sparse record of a vector. -/
  | stbm (f : Ext)
  /-- R171: Reads and expands a sparse record into a vector. -/
  | ldbm (f : Ext)
  /-- R173: One-word form: passes a writer region to another gang. -/
  | handover (f : Base)
  /-- R173: Predicated HANDOVER. -/
  | handoverExt (f : Ext)
  /-- R173: One-word form: reports a region's owner. -/
  | ownq (f : Base)
  /-- R173: Predicated OWNQ. -/
  | ownqExt (f : Ext)
  /-- R178: Element-wise FP addition. -/
  | vadd (f : Ext)
  /-- R178: Element-wise FP subtraction. -/
  | vsub (f : Ext)
  /-- R178: Element-wise FP multiplication. -/
  | vmul (f : Ext)
  /-- R178: Element-wise fused a*b+c. -/
  | vfma (f : Ext)
  /-- R178: Element-wise fused a*b-c. -/
  | vfms (f : Ext)
  /-- R178: Element-wise fused -(a*b)+c. -/
  | vfnma (f : Ext)
  /-- R178: Element-wise correctly rounded division. -/
  | vdiv (f : Ext)
  /-- R178: Element-wise correctly rounded square root. -/
  | vsqrt (f : Ext)
  /-- R178: Element-wise FP minimum. -/
  | vmin (f : Ext)
  /-- R178: Element-wise FP maximum. -/
  | vmax (f : Ext)
  /-- R178: Clears each element's sign bit. -/
  | vabs (f : Ext)
  /-- R178: Inverts each element's sign bit. -/
  | vneg (f : Ext)
  /-- R179: Element-wise reciprocal within 1 ulp. -/
  | vrcp (f : Ext)
  /-- R179: Element-wise reciprocal square root. -/
  | vrsq (f : Ext)
  /-- R179: Element-wise 2^x. -/
  | vexp2 (f : Ext)
  /-- R179: Element-wise log2 x. -/
  | vlog2 (f : Ext)
  /-- R179: Element-wise sigmoid in FP32. -/
  | vsigm (f : Ext)
  /-- R179: Element-wise tanh in FP32. -/
  | vtanh (f : Ext)
  /-- R180: Element-wise wrapping integer add. -/
  | viadd (f : Ext)
  /-- R180: Element-wise wrapping integer subtract. -/
  | visub (f : Ext)
  /-- R180: Element-wise low integer product. -/
  | vimul (f : Ext)
  /-- R180: Element-wise integer minimum. -/
  | vimin (f : Ext)
  /-- R180: Element-wise integer maximum. -/
  | vimax (f : Ext)
  /-- R180: Element-wise bitwise AND. -/
  | vand (f : Ext)
  /-- R180: Element-wise bitwise OR. -/
  | vor (f : Ext)
  /-- R180: Element-wise bitwise XOR. -/
  | vxor (f : Ext)
  /-- R180: Element-wise shift left. -/
  | vshl (f : Ext)
  /-- R180: Element-wise logical shift right. -/
  | vshr (f : Ext)
  /-- R180: Element-wise arithmetic shift right. -/
  | vshra (f : Ext)
  /-- R181: Integer element compare into a predicate. -/
  | vcmp (f : Ext)
  /-- R181: FP element compare into a predicate. -/
  | vfcmp (f : Ext)
  /-- R182: Selects elements of A or B by a selector predicate. -/
  | vsel (f : Ext)
  /-- R183: Element format conversion by PART, optionally saturating. -/
  | vcvt (f : Ext)
  /-- R184: Converts elements into or out of RNS64. -/
  | vrncvt (f : Ext)
  /-- R185: Channel-wise RNS64 addition. -/
  | vrnadd (f : Ext)
  /-- R185: Channel-wise RNS64 multiplication. -/
  | vrnmul (f : Ext)
  /-- R186: Pairwise-tree reduction into a g register. -/
  | vred (f : Ext)
  /-- R186: Serial inclusive scan. -/
  | vscan (f : Ext)
  /-- R187: Segmented sums written at segment heads. -/
  | vsegsum (f : Ext)
  /-- R187: Segmented serial scan. -/
  | vsegscan (f : Ext)
  /-- R189: Permutes elements by an index vector. -/
  | vperm (f : Ext)
  /-- R189: Broadcasts a g register into every element. -/
  | vbcast (f : Ext)
  /-- R189: Slides a window over two concatenated vectors. -/
  | vslide (f : Ext)
  /-- R189: Compacts selected elements to the front. -/
  | vcomp (f : Ext)
  /-- R189: Expands elements into selected positions. -/
  | vexpd (f : Ext)
  /-- R190: Writes the stable sorting permutation of a vector. -/
  | vsort (f : Ext)
  /-- R189: Writes counts of selected elements below each position. -/
  | viota (f : Ext)
  /-- R189: Counts selected and governed elements into a g register. -/
  | vpopc (f : Ext)
  /-- R189: Moves one element into a g register. -/
  | vmovg (f : Ext)
  /-- R189: Moves a g register into one element. -/
  | vmovv (f : Ext)
  /-- R191: Contiguous vector load. -/
  | vld (f : Ext)
  /-- R191: Contiguous vector store. -/
  | vst (f : Ext)
  /-- R191: Indexed vector load. -/
  | vldx (f : Ext)
  /-- R191: Indexed vector store. -/
  | vstx (f : Ext)
  /-- R191: Strided vector load. -/
  | vlds (f : Ext)
  /-- R191: Strided vector store. -/
  | vsts (f : Ext)
  /-- R197: Checks and enqueues a dense matrix multiply-accumulate command. -/
  | mma (f : Ext)
  /-- R198: Enqueues a sparse-A matrix command. -/
  | mmas (f : Ext)
  /-- R199: Enqueues an I8 multiply into an RNS64 tile. -/
  | mmar (f : Ext)
  /-- R200: Enqueues a command zeroing a tile and setting its mode. -/
  | mzero (f : Ext)
  /-- R201: Waits for the tile's commands, converts and writes its 4,096 results. -/
  | mrd (f : Ext)
  /-- R202: Waits for the tile's commands and loads the tile from memory. -/
  | mwr (f : Ext)
  /-- R203: Requantises a tile into E2M1B panels in the cluster store. -/
  | mrqt (f : Ext)
  /-- R204: One-word form: waits for a tile's queued commands and reports faults. -/
  | mwait (f : Base)
  /-- R204: Predicated MWAIT. -/
  | mwaitExt (f : Ext)
  /-- R204: One-word form: reads a tile's queue count, fault and status. -/
  | mqstat (f : Base)
  /-- R204: Predicated MQSTAT. -/
  | mqstatExt (f : Ext)
  /-- R210: Emits a scalar element on an output port. -/
  | send (f : Ext)
  /-- R210: Emits a vector element on an output port. -/
  | sendv (f : Ext)
  /-- R211: One-word form: counts elements held or sends remaining on a port. -/
  | pcount (f : Base)
  /-- R211: Predicated PCOUNT. -/
  | pcountExt (f : Ext)
  /-- R212: Checks and enters a launch packet as a node in the Aster pool. -/
  | launch (f : Ext)
  /-- R212: Launches a child node with a derived fork path. -/
  | spawn (f : Ext)
  /-- R213: Waits for children and folds their result words. -/
  | joinc (f : Ext)
  /-- R214: Sets bits of the event vector as one change. -/
  | evset (f : Ext)
  /-- R214: Clears bits of the event vector as one change. -/
  | evclr (f : Ext)
  /-- R214: One-word form: tests event-vector bits into a predicate. -/
  | evtest (f : Base)
  /-- R214: Predicated EVTEST. -/
  | evtestExt (f : Ext)
  /-- R216: Loads a join-tree type descriptor into a type slot. -/
  | jtload (f : Ext)
  /-- R218: Creates a key-indexed partial result capability. -/
  | jtchk (f : Ext)
  /-- R219: Reads a row's key. -/
  | jkey (f : Ext)
  /-- R219: Reads a key slice's first row and count. -/
  | jseg (f : Ext)
  /-- R219: Reads a key's slice count. -/
  | jheavy (f : Ext)
  /-- R220: Computes the sum and count KPRs of an edge for the gang's keys. -/
  | jup (f : Ext)
  /-- R222: Gathers KPR elements to a row range. -/
  | jdown (f : Ext)
  /-- R223: Intersects two ascending N32 lists. -/
  | jinter (f : Ext)
  /-- R224: Sets or clears a relation's DELTA bitmap. -/
  | jdelta (f : Ext)
  /-- R226: Sends a remote call expecting replies into pending registers. -/
  | rcall (f : Ext)
  /-- R226: Sends a remote call with no reply, raising the RCALLN counter. -/
  | rcalln (f : Ext)
  /-- R228: Sends reply registers to the caller and ends the handler. -/
  | rreply (f : Ext)
  /-- R229: Forwards the call to a new owner and ends the handler. -/
  | rfwd (f : Ext)
  /-- R231: One-word form: waits for RCALLN completions and reports faults. -/
  | rfence (f : Base)
  /-- R231: Predicated RFENCE. -/
  | rfenceExt (f : Ext)
  /-- R231: One-word form: reads remote-call counters and faults. -/
  | rcstat (f : Base)
  /-- R231: Predicated RCSTAT. -/
  | rcstatExt (f : Ext)
  /-- R234: Copies a near-memory pipeline parameter block into the Lupin core. -/
  | nmcfg (f : Ext)
  /-- R234: Starts the near-memory pipeline on slots s0-s3. -/
  | nmrun (f : Ext)
  /-- R235: One-word form: waits for the pipeline to stop and reports rows or fault. -/
  | nmwait (f : Base)
  /-- R235: Predicated NMWAIT. -/
  | nmwaitExt (f : Ext)
  /-- R236: Posts a message to a Lupin-core mailbox, waiting while full. -/
  | mbpost (f : Ext)
  /-- R236: One-word form: waits for a full mailbox and takes its message. -/
  | mbwait (f : Base)
  /-- R236: Predicated MBWAIT. -/
  | mbwaitExt (f : Ext)
  /-- R237: Starts a reserving loop from a record and returns its instance. -/
  | rlbegin (f : Ext)
  /-- R238: Reserves a cell for the iteration in a reserve firing. -/
  | rsv (f : Ext)
  /-- R238: Tests whether the iteration holds a cell in a commit firing. -/
  | rchk (f : Ext)
  /-- R239: Marks the commit firing's iteration as failed. -/
  | rlfail (f : Ext)
  /-- R240: One-word form: waits for a loop to commit every iteration. -/
  | rlend (f : Base)
  /-- R240: Predicated RLEND. -/
  | rlendExt (f : Ext)
  /-- R240: One-word form: reads a loop's status or epoch. -/
  | rlstat (f : Base)
  /-- R240: Predicated RLSTAT. -/
  | rlstatExt (f : Ext)
  /-- R72: A fetched word that fails the encoding checks traps 0x01. -/
  | illegalEncoding (check : Nat) (word : Word)
  /-- R368: Authenticates a host and opens or takes over the owning session. -/
  | openSession (h : CmdHeader) (r : OpenRequest)
  /-- R367: Closes the session and KILLs its contexts. -/
  | close (h : CmdHeader)
  /-- R367: Keeps the session alive. -/
  | keepalive (h : CmdHeader)
  /-- R369: Creates a context with its fields. -/
  | ctxcreate (h : CmdHeader) (r : ContextRequest)
  /-- R369: Changes a context's settable fields. -/
  | ctxset (h : CmdHeader) (r : SettableRequest)
  /-- R361: Stops and discards all work of a context. -/
  | kill (h : CmdHeader)
  /-- R361: After every write is performed and connections close, releases resources and sends KILLED. -/
  | killComplete (ctx : Nat)
  /-- R357: Writes translation-table entries and adds frames to frame pools. -/
  | mapwrite (h : CmdHeader) (r : MapRequest)
  /-- R250: Sets a format-window register of a die. -/
  | windowset (h : CmdHeader) (r : WindowRequest)
  /-- R157: Configures an ordered-atomic window's counter, BATCH and request area. -/
  | amoqset (h : CmdHeader) (r : AmoqRequest)
  /-- R329: Resets the context's epoch counter to 1. -/
  | epochreset (h : CmdHeader)
  /-- R367: Applies a set mask then a clear mask to the event vector. -/
  | event (h : CmdHeader) (setMask clearMask : BitVec 256)
  /-- R367: Stores up to 64 tagged capabilities into memory. -/
  | capwrite (h : CmdHeader) (pairs : List CapPair)
  /-- R367: Host launches a 256-byte node packet. -/
  | launchCommand (h : CmdHeader) (packet : BitVec 2048)
  /-- R354: Pre-empts bands by retention or eviction. -/
  | preempt (h : CmdHeader) (evict : Bool) (band : Option Nat)
  /-- R356: Resumes saved bands. -/
  | resume (h : CmdHeader) (band : Option Nat)
  /-- R372: Commands a power state and returns sensor values. -/
  | power (h : CmdHeader) (target : PowerState)
  /-- R371: Returns the capability list. -/
  | capread (h : CmdHeader)
  /-- R378: Returns the crash record from the hub. -/
  | crash (h : CmdHeader)
  /-- R379: Ends contexts, optionally flushes, resets dies keeping HBM in self-refresh. -/
  | warmreset (h : CmdHeader) (flush : Bool)
  /-- R379: HBM leaves self-refresh, the device reaches D0 and replies. -/
  | warmResetComplete
  /-- R325: Reads and optionally clears the activation alert logs. -/
  | alerts (h : CmdHeader) (clear : Bool)
  /-- R376: Returns a signed attestation report. -/
  | attest (h : CmdHeader) (nonce : BitVec 256)
  /-- R367: Stages a signed firmware fragment; the last verifies and stores the image. -/
  | firmware (h : CmdHeader) (f : FirmwareFragment)
  /-- R365: Sets the device number and the fabric map. -/
  | fabricmap (h : CmdHeader) (r : FabricRequest)
  /-- R374: Clears the failed-start counter and restarts. -/
  | minclear (h : CmdHeader)
  /-- R370: A host UET write to device memory, carrying the hub's clock. -/
  | hostUetWrite (ctx : Nat) (address : DWord) (data : List Byte)
  /-- R370: A host UET read of device memory. -/
  | hostUetRead (ctx : Nat) (address : DWord) (count : Nat)
  /-- R369: At the end of a stall interval with no progress, reports the context's oldest node. -/
  | stall (ctx : Nat)
  /-- R377: Sent every 10 ms to the session's host endpoint. -/
  | heartbeat
  /-- R372: A sensor crosses its trip level; bands pre-empted by retention, D1 entered. -/
  | trip (sensor : Sensor) (value : Nat)
  /-- R372: A die reaches 120 C; the device sends TRIP and enters D3. -/
  | criticalTrip (die value : Nat)
  /-- R372: The device completes its transition to a commanded power state. -/
  | powerStateReached (target : PowerState)
  /-- R377: A unit fault is detected and reported within 50 ms. -/
  | devfault (kind : UnitKind) (number : Nat)
  /-- R320: 1 ms after a unit failure, outstanding calls to it receive timeout records. -/
  | lostReplyFill (kind : UnitKind) (number : Nat)
  /-- R368: A session with no command for 2 s is lost. -/
  | sessionLost
  /-- R368: 60 s after a session is lost, its contexts are KILLed without records. -/
  | orphanContextKill
  /-- R373: The Aelow controller verifies and starts firmware stages from slots A or B. -/
  | coldBoot
  /-- R373: The device does not reach D0 within 10 s; the start counts as failed. -/
  | bootTimeout
  /-- R364: An Ultra Ethernet port goes down or up, changing spraying. -/
  | linkStateChange (port : Nat) (up : Bool)
  /-- R360: An uncorrectable error poisons the 16-byte granules it touches. -/
  | uncorrectableError (place : ErrorPlace) (address : Nat)
  /-- R325: A stack reports a row activation threshold; the agent is throttled and logged. -/
  | activationAlert (stack : Nat) (entry : AlertEntry)
  /-- R325: 65,536 cycles after an alert the agent's activation limit ends. -/
  | throttleExpiry (index : Nat)
  /-- R324: Refresh falls due on a bank; postponed under a lock-step command. -/
  | refreshDue (channel bank : Nat) (held : Bool)
  /-- R324: At the postponement limit the command stalls for the refresh and resumes. -/
  | refreshPostponeLimit (channel bank : Nat)
  /-- R352: An instruction's wait passes the WAIT limit; the firing traps 0x19. -/
  | watchdogWait (f : FiringId)
  /-- R352: A firing's run time passes the RUN limit; it traps 0x19. -/
  | watchdogRun (f : FiringId)
  /-- R269: A firing waiting 1,024 cycles is parked to free its thread. -/
  | park (f : FiringId)
  /-- R317: A handler's 4,097th instruction aborts it with 0x0F. -/
  | handlerRunLimit (p : Pos)
  /-- R317: A handler instruction waiting 2^20 cycles aborts it with 0x19. -/
  | handlerWaitLimit (p : Pos)
  /-- R142: A load to another device unanswered within the remote timeout traps 0x10. -/
  | remoteLoadTimeout (f : FiringId)
  /-- R143: Acknowledgement or failure of a store to another device arrives. -/
  | remoteWriteAck (f : FiringId) (id : Nat) (ok : Bool)
  /-- R321: A cross-device call reaches its timeout and receives a timeout record. -/
  | callTimeout (f : FiringId) (serial : Word)
  /-- R321: At quarter points of the timeout, an IDEM call is reissued. -/
  | rudiReissue (f : FiringId) (serial : Word)
  /-- R283: A call, forwarded call or landing packet enters the owner's inbox or is held. -/
  | callArrival (index : Nat)
  /-- R227: The owner takes the inbox head and starts its handler or refuses it. -/
  | handlerStart (p : Pos)
  /-- R230: A reply or fault record reaches the caller's registers or is discarded. -/
  | replyArrival (index : Nat)
  /-- R231: A completion notice or record of an RCALLN decrements the counter. -/
  | rcallnCompletion (index : Nat)
  /-- R284: With the inbox full, the service thread spills held arrivals to the heap. -/
  | spillDuty (p : Pos)
  /-- R285: Spilled records move from the heap back into the inbox in order. -/
  | loopbackRefill (p : Pos)
  /-- R165: The copy engine moves one packet, landing it and counting it off a barrier. -/
  | copyPacket (core : Pos) (channel id packet : Nat)
  /-- R165: An unacknowledged remote packet faults the transfer with inner cause 0x10. -/
  | copyPacketTimeout (core : Pos) (channel id packet : Nat)
  /-- R166: A LAND packet runs its landing handler on the destination's service thread. -/
  | landingHandler (p : Pos)
  /-- R270: The arbiter grants up to 16 K-steps of one command on one tile. -/
  | matrixGrant (die cluster : Nat)
  /-- R235: The near-memory pipeline finishes or stops on a fault. -/
  | pipelineStop (core : Pos)
  /-- R263: An element enters a destination FIFO as room appears. -/
  | elementArrival (index : Nat)
  /-- R263: A fireable instance gets a thread, claims inputs and reserves outputs. -/
  | firingStart (band gang inst thread : Nat)
  /-- R264: A parked firing is restored on a freed thread. -/
  | parkedRestore (f : FiringId) (thread : Nat)
  /-- R276: On a release or readiness, the pool dispatches the best placeable ready node. -/
  | poolDispatch
  /-- R267: Every gang's resources are reserved and the band starts running. -/
  | bandDispatch (band : Nat)
  /-- R272: The band passes its exit test and waits for its engines and writes. -/
  | bandDrain (band : Nat)
  /-- R272: After draining, releases regions and allotments and applies the set mask. -/
  | bandExit (band : Nat)
  /-- R354: Once engines finish and state is kept, the band reaches SAVED and PREEMPTED is sent. -/
  | bandSaved (band : Nat)
  /-- R326: The loop band takes its loop cores. -/
  | loopDispatch (loop : Nat)
  /-- R330: Fills the window, takes an epoch and dispatches reserve firings. -/
  | windowStart (loop : Nat)
  /-- R331: An RSV request performs its min at the cell's home and is acknowledged. -/
  | rsvPerform (index : Nat)
  /-- R331: All reserve firings ended and RSVs acknowledged; commit firings dispatched. -/
  | roundBarrier (loop : Nat)
  /-- R332: All commit firings ended and performed; failures packed, loop finishes or continues. -/
  | round2End (loop : Nat)
  /-- R157: An AMOQ request reaches its window and is accepted, refused or held. -/
  | amoqArrival (index : Nat)
  /-- R253: A holder is asked to give up a line, writing it back if dirty. -/
  | directoryRecall (line : Nat) (invalidate : Bool)
  /-- R249: An L2 line is evicted, writing it (or zeros) to HBM. -/
  | dirtyLineEviction (line : Nat)
  /-- R257: A die makes an incoming write visible once its clock is covered. -/
  | writeVisibility (id : Nat)
  /-- R281: Access counters show a remote majority over 2^16 accesses; the page migrates. -/
  | pageMigration (ctx : Nat) (address : DWord) (die : Nat)
  /-- R359: After drains and pins end, the new entry is written and waiting accesses released. -/
  | leafChangeRelease (index : Nat)
  /-- R321: The RUD transport reports an error on a cross-device call, and the caller receives the timeout record at once. -/
  | transportError (f : FiringId) (serial : Word)
  /-- R260: A load, store, atomic or copy packet sent by another device arrives over Ultra Ethernet and is performed at this device's home agents, then answered or acknowledged. -/
  | remoteAccessArrival (r : RemoteAccess)
  /-- R360: A corrected soft error in HBM, L2, a stash or a store is logged and changes nothing else. -/
  | correctedSoftError (place : ErrorPlace) (address : Nat)
  deriving DecidableEq, Repr

end Sys2Proof
end

