-- ==== Sys2Proof/Decode.lean ====
section
/-!
DEFINITION. Decode.lean: from instruction words to `Instr` by the fields of R51 to R53, the opcode map R68 to R71 and
the checks 1 to 8 of R72 in their order; and the encoder written from the same map.

Lean's runtime has no tag for a constructor with fields past the 245th, so what builds an `Instr` is marked
noncomputable; the kernel evaluates all of it.
-/

namespace Sys2Proof

/-! ## What a form does with each field -/

/-- How a form uses a register field (02 R57).  `reg0` is a g register read whose trapping bit must be zero; `query` and
`queryV` are g and v registers that FTEST does not read (04 R138); `num n` is a number below n; `imm` a signed 6-bit
immediate and `immMax n` one from 0 to n − 1. -/
inductive FieldUse where
  | none | g | reg0 | query | queryV | v | vdest | p | acc | slot | readSel | writeSel | num (n : Nat) | imm | immMax (n : Nat)
  deriving DecidableEq, Repr

/-- Which SUB values a form has (02 R71). -/
inductive SubUse where
  | zero | max (n : Nat) | fencex | fcvt | vcvt | vred | amof
  deriving DecidableEq, Repr

/-- Which RM codes a form takes (02 R61): all of 0 to 5; only code 0 of those; 0 to 4; FP formats only (06 R186); as VRED
with its operation; as JOINC with its format (07 R213). -/
inductive RmUse where
  | none | all | zeroOnly | to4 | fpOnly | vred | joinc
  deriving DecidableEq, Repr

/-- What a form reads in IMM32. -/
inductive ImmUse where
  | zero | any | mask (m : Word) | xcopy | xgath | spawn | jtchk | jdelta | rcall | rcalln | rreply | part | partRns
  | slide | index
  deriving DecidableEq, Repr

/-- One form of the opcode map: a function of a major opcode, lengths it permits and the use it makes of each field. -/
structure Form where
  fn : BitVec 4
  lens : List (BitVec 2)
  d : FieldUse := .none
  a : FieldUse := .none
  b : FieldUse := .none
  c : FieldUse := .none
  /-- the D field is a source and TB belongs to it (02 R58) -/
  dread : Bool := false
  sub : SubUse := .zero
  /-- accepted FMT codes as a bit set; zero when FMT is unused -/
  fmts : BitVec 16 := 0#16
  rm : RmUse := .none
  scope : Bool := false
  /-- accepted ORD codes as a bit set; zero when ORD is unused -/
  ords : BitVec 8 := 0#8
  imm : ImmUse := .zero
  deriving DecidableEq, Repr

/-- The operand fields of a one-word instruction. -/
def Ext.base (f : Ext) : Base := ⟨f.tb, f.ta, f.b, f.a, f.d⟩

/-- LEN 01 and 11 carry the 64-bit literal (02 R51). -/
def Ext.hasLit (f : Ext) : Bool := f.len.getLsbD 0

/-- LEN 10 and 11 carry extended words 1 and 2 (02 R51). -/
def Ext.hasExt (f : Ext) : Bool := f.len.getLsbD 1

/-- How many 32-bit words an instruction of a LEN has (02 R51). -/
def lenWords (len : BitVec 2) : Nat :=
  match len.toNat with
  | 0 => 1
  | 1 => 3
  | 2 => 3
  | _ => 5

/-! ## Element formats -/

/-- Element width of an FMT code in bits (01 R26, 02 R63). -/
def fmtBits (fmt : Nat) : Nat :=
  match fmt with
  | 0 => 64
  | 1 => 32
  | 2 => 16
  | 3 => 16
  | 4 => 8
  | 5 => 8
  | 6 => 4
  | 7 => 8
  | 8 => 8
  | 9 => 16
  | 10 => 16
  | 11 => 32
  | 12 => 32
  | _ => 64

/-- Bits of one v register: a Lupin core holds a quarter (01 R26, R50). -/
def vregBits (lupin : Bool) : Nat := if lupin then 256 else 1024

/-- Element count of a format (01 R26, 06 R177). -/
def fmtCount (lupin : Bool) (fmt : Nat) : Nat := vregBits lupin / fmtBits fmt

/-! ## The checks of R72 -/

/-- A field read as a register of the g or v file. -/
def FieldUse.isRead (u : FieldUse) : Bool :=
  match u with
  | .g | .reg0 | .v => true
  | _ => false

/-- A field whose trapping bit selects full/empty behaviour (02 R58).  On a predicate that C reads the bit is permitted and has no
effect, for no predicate is ever empty; TA and TB of the predicate instructions must be 0 (04 R119).  DEDUCED: notes/assumptions/8.md. -/
def FieldUse.traps (u : FieldUse) : Bool :=
  match u with
  | .g | .v => true
  | _ => false

/-- Check 6 on one field: unused and nonzero, or an I6 out of its stated range. -/
def FieldUse.fails6 (u : FieldUse) (x : BitVec 6) : Bool :=
  match u with
  | .none => x != 0#6
  | .immMax n => !(decide (x.toNat < n))
  | _ => false

/-- Check 7 on one field: a value R57 calls illegal. -/
def FieldUse.fails7 (u : FieldUse) (x : BitVec 6) : Bool :=
  match u with
  | .vdest => decide (28 ≤ x.toNat) && decide (x.toNat < 64)
  | .v | .queryV => decide (32 ≤ x.toNat)
  | .p | .acc | .slot => decide (8 ≤ x.toNat)
  | .readSel => decide (0x10 < x.toNat)
  | .writeSel => decide (x.toNat < 0x0C) || decide (0x0F < x.toNat)
  | .num n => decide (n ≤ x.toNat)
  | _ => false

/-- Check 4. -/
def SubUse.fails (u : SubUse) (s : BitVec 8) : Bool :=
  match u with
  | .zero => false
  | .max n => decide (n < s.toNat)
  | .fencex => s == 0#8 || decide (7 < s.toNat)
  | .fcvt => decide (14 < s.toNat)
  | .vcvt => decide (31 < s.toNat) || s.extractLsb' 0 4 == 0xF#4
  | .vred => decide (2 < s.toNat)
  | .amof => decide (1 < s.toNat)

/-- FMT is a floating-point format that the rounding forms round (06 R186). -/
def fmtRounds (fmt : BitVec 4) : Bool := decide (fmt.toNat < 4)

/-- Check 5 on RM, beyond the codes 6 and 7. -/
def RmUse.fails5 (u : RmUse) (f : Ext) : Bool :=
  match u with
  | .zeroOnly => f.rm != 0#3
  | .to4 => decide (4 < f.rm.toNat)
  | .joinc => if f.fmt == 0#4 then decide (4 < f.rm.toNat) else f.rm != 0#3
  | _ => false

/-- Check 6 on RM: nonzero where the form does not round. -/
def RmUse.fails6 (u : RmUse) (f : Ext) : Bool :=
  match u with
  | .none => f.rm != 0#3
  | .fpOnly => !(fmtRounds f.fmt) && f.rm != 0#3
  | .vred => !(fmtRounds f.fmt && f.sub == 0#8) && f.rm != 0#3
  | _ => false

/-- Highest PART value that two element widths give (06 R183). -/
def partMax (ws wd : Nat) : Nat :=
  if ws = wd then 0 else if wd < ws then ws / wd - 1 else wd / ws - 1

/-- Check 6 on IMM32. -/
def ImmUse.fails (u : ImmUse) (lupin : Bool) (f : Ext) : Bool :=
  let w := f.imm
  match u with
  | .zero => w != 0#32
  | .any => false
  | .mask m => w &&& ~~~m != 0#32
  | .xcopy =>
    w &&& 0xFFFF08FC#32 != 0#32 || decide (2 < (w.extractLsb' 12 4).toNat) ||
      (w.extractLsb' 12 4 != 0#4 && f.a != 0#6)
  | .xgath =>
    w &&& 0x03F00000#32 != 0#32 || decide ((w.extractLsb' 28 4).toNat < 2) || decide (12 < (w.extractLsb' 28 4).toNat)
  | .spawn => w &&& 0xFFFFFFF0#32 != 0#32 || w == 0#32
  | .jtchk => w &&& 0xFFFF8000#32 != 0#32 || (f.fmt == 14#4 && w &&& 0x7FF0#32 != 0#32)
  | .jdelta => w &&& 0xFFFFFFE0#32 != 0#32 || (w.getLsbD 4 && f.b != 0#6)
  | .rcall =>
    w &&& 0xFFF80000#32 != 0#32 || decide (8 < (w.extractLsb' 12 4).toNat) ||
      decide ((w.extractLsb' 16 3).toNat < 1) || decide (4 < (w.extractLsb' 16 3).toNat) ||
      (w.extractLsb' 12 4 == 0#4 && (f.b != 0#6 || f.tb))
  | .rcalln =>
    w &&& 0xFFFF0000#32 != 0#32 || decide (8 < (w.extractLsb' 12 4).toNat) ||
      (w.extractLsb' 12 4 == 0#4 && (f.b != 0#6 || f.tb))
  | .rreply => w &&& 0xFFFFFFF8#32 != 0#32 || decide (w.toNat < 1) || decide (4 < w.toNat)
  | .part => decide (partMax (fmtBits (f.sub.extractLsb' 0 4).toNat) (fmtBits f.fmt.toNat) < w.toNat)
  | .partRns =>
    decide ((if f.sub == 0#8 then partMax (fmtBits f.fmt.toNat) 64 else partMax 64 (fmtBits f.fmt.toNat)) < w.toNat)
  | .slide => decide (fmtCount lupin f.fmt.toNat < w.toNat)
  | .index => decide (fmtCount lupin f.fmt.toNat ≤ w.toNat)

/-- Check 7 on the register blocks of calls and replies (07 R226, R228). -/
def ImmUse.fails7 (u : ImmUse) (f : Ext) : Bool :=
  let n := (f.imm.extractLsb' 12 4).toNat
  match u with
  | .rcall => decide (64 < f.b.toNat + n) || f.d == 0#6 || decide (64 < f.d.toNat + (f.imm.extractLsb' 16 3).toNat)
  | .rcalln => decide (64 < f.b.toNat + n)
  | .rreply => decide (64 < f.a.toNat + f.imm.toNat)
  | _ => false

/-- Check 4 of R72; a nonzero SUB of a form that does not use SUB fails check 6 (R55). -/
def Form.fails4 (r : Form) (f : Ext) : Bool := r.sub.fails f.sub

/-- A code field that a form uses holds a code it does not accept; a code field it does not use fails check 6. -/
def Form.fails5 (r : Form) (f : Ext) : Bool :=
  decide (5 < f.rm.toNat) || decide (4 < f.scope.toNat) || f.fmt == 0xF#4 || decide (3 < f.ord.toNat) ||
  (r.fmts != 0#16 && !(r.fmts.getLsbD f.fmt.toNat)) ||
  (r.ords != 0#8 && !(r.ords.getLsbD f.ord.toNat)) ||
  r.rm.fails5 f ||
  (match r.sub with
   | .fcvt => f.sub == 6#8
   | .vcvt => f.sub.extractLsb' 0 4 == 14#4
   | .vred => f.fmt == 14#4 && f.sub != 0#8
   | .amof => f.sub == 0#8 && f.ord.getLsbD 0
   | _ => false)

def Form.fails6 (r : Form) (lupin : Bool) (f : Ext) : Bool :=
  r.d.fails6 f.d || r.a.fails6 f.a || r.c.fails6 f.c ||
  (if f.hasLit then f.b != 0#6 else r.b.fails6 f.b) ||
  (f.ta && !r.a.traps) || (f.tc && !(r.c.traps || r.c == .p)) ||
  (f.tb && !(if r.dread then r.d.traps else r.b.traps && !f.hasLit)) ||
  (r.sub == .zero && f.sub != 0#8) || (r.fmts == 0#16 && f.fmt != 0#4) || (r.ords == 0#8 && f.ord != 0#3) || (!r.scope && f.scope != 0#3) ||
  r.rm.fails6 f || r.imm.fails lupin f ||
  (match r.sub with
   | .amof => f.sub == 0#8 && f.d != 0#6
   | _ => false) ||
  (!f.hasExt && (f.pneg || f.pred != 0#3))

def Form.fails7 (r : Form) (f : Ext) : Bool :=
  r.d.fails7 f.d || r.a.fails7 f.a || r.c.fails7 f.c || (!f.hasLit && r.b.fails7 f.b) || r.imm.fails7 f

/-- The register file a field reads from, when its value is a read of R59: `true` is the v file. -/
def FieldUse.reads (u : FieldUse) (x : BitVec 6) : Option Bool :=
  match u with
  | .g | .reg0 => if x == 0#6 then Option.none else some false
  | .v => if x.toNat < 28 then some true else Option.none
  | _ => Option.none

/-- Two reads of one pair collide: same file and equal bit 0 (02 R59). -/
def bankClash (u w : FieldUse) (x y : BitVec 6) : Bool :=
  (u.reads x).isSome && u.reads x == w.reads y && x.getLsbD 0 == y.getLsbD 0

/-- A third read repeats a register of the pair (02 R59). -/
def repeats (u w : FieldUse) (x y : BitVec 6) : Bool :=
  (u.reads x).isSome && u.reads x == w.reads y && x == y

/-- Two source fields name one channel (01 R27). -/
def sameChannel (u w : FieldUse) (x y : BitVec 6) : Bool :=
  u == .v && w == .v && decide (28 ≤ x.toNat) && x == y

/-- The second field of the pair of R59: B, or D in the forms that read D. -/
def Form.pairUse (r : Form) (f : Ext) : FieldUse × BitVec 6 :=
  if r.dread then (r.d, f.d) else if f.hasLit then (.none, 0#6) else (r.b, f.b)

def Form.fails8 (r : Form) (f : Ext) : Bool :=
  let q := r.pairUse f
  bankClash r.a q.1 f.a q.2 || repeats r.c r.a f.c f.a || repeats r.c q.1 f.c q.2 ||
  sameChannel r.a q.1 f.a q.2 || sameChannel r.c r.a f.c f.a || sameChannel r.c q.1 f.c q.2

/-- The first of checks 4 to 8 that fails (02 R72). -/
def Form.firstFailure (r : Form) (lupin : Bool) (f : Ext) : Option Nat :=
  if r.fails4 f then some 4
  else if r.fails5 f then some 5
  else if r.fails6 lupin f then some 6
  else if r.fails7 f then some 7
  else if r.fails8 f then some 8
  else none

/-! ## The opcode map (02 R68 to R70) -/


def forms01 : List Form := [
  { fn := 0#4, lens := [0#2], d := .g, a := .g, b := .g },
  { fn := 0#4, lens := [1#2, 2#2, 3#2], d := .g, a := .g, b := .g },
  { fn := 1#4, lens := [0#2], d := .g, a := .g, b := .g },
  { fn := 1#4, lens := [1#2, 2#2, 3#2], d := .g, a := .g, b := .g },
  { fn := 2#4, lens := [0#2], d := .g, a := .g, b := .g },
  { fn := 2#4, lens := [1#2, 2#2, 3#2], d := .g, a := .g, b := .g },
  { fn := 3#4, lens := [0#2], d := .g, a := .g, b := .g },
  { fn := 3#4, lens := [1#2, 2#2, 3#2], d := .g, a := .g, b := .g },
  { fn := 4#4, lens := [0#2], d := .g, a := .g, b := .g },
  { fn := 4#4, lens := [1#2, 2#2, 3#2], d := .g, a := .g, b := .g },
  { fn := 5#4, lens := [0#2], d := .g, a := .g, b := .g },
  { fn := 5#4, lens := [1#2, 2#2, 3#2], d := .g, a := .g, b := .g },
  { fn := 6#4, lens := [0#2], d := .g, a := .g, b := .g },
  { fn := 6#4, lens := [1#2, 2#2, 3#2], d := .g, a := .g, b := .g },
  { fn := 7#4, lens := [0#2], d := .g, a := .g, b := .g },
  { fn := 7#4, lens := [1#2, 2#2, 3#2], d := .g, a := .g, b := .g },
  { fn := 8#4, lens := [0#2], d := .g, a := .g, b := .g },
  { fn := 8#4, lens := [1#2, 2#2, 3#2], d := .g, a := .g, b := .g },
  { fn := 9#4, lens := [0#2], d := .g, a := .g, b := .g },
  { fn := 9#4, lens := [1#2, 2#2, 3#2], d := .g, a := .g, b := .g },
  { fn := 10#4, lens := [0#2], d := .g, a := .g, b := .g },
  { fn := 10#4, lens := [1#2, 2#2, 3#2], d := .g, a := .g, b := .g },
  { fn := 11#4, lens := [0#2], d := .g, a := .g, b := .g },
  { fn := 11#4, lens := [1#2, 2#2, 3#2], d := .g, a := .g, b := .g },
  { fn := 12#4, lens := [0#2], d := .g, a := .g, b := .g },
  { fn := 12#4, lens := [1#2, 2#2, 3#2], d := .g, a := .g, b := .g },
  { fn := 13#4, lens := [0#2], d := .g, a := .g, b := .g },
  { fn := 13#4, lens := [1#2, 2#2, 3#2], d := .g, a := .g, b := .g },
  { fn := 14#4, lens := [0#2], d := .g, a := .g, b := .g },
  { fn := 14#4, lens := [1#2, 2#2, 3#2], d := .g, a := .g, b := .g },
  { fn := 15#4, lens := [0#2], d := .g, a := .g, b := .g },
  { fn := 15#4, lens := [1#2, 2#2, 3#2], d := .g, a := .g, b := .g }]

def forms02 : List Form := [
  { fn := 0#4, lens := [0#2], d := .g, a := .g, b := .g },
  { fn := 0#4, lens := [1#2, 2#2, 3#2], d := .g, a := .g, b := .g },
  { fn := 1#4, lens := [0#2], d := .g, a := .g, b := .g },
  { fn := 1#4, lens := [1#2, 2#2, 3#2], d := .g, a := .g, b := .g },
  { fn := 2#4, lens := [0#2], d := .g, a := .g, b := .g },
  { fn := 2#4, lens := [1#2, 2#2, 3#2], d := .g, a := .g, b := .g },
  { fn := 3#4, lens := [0#2], d := .g, a := .g, b := .g },
  { fn := 3#4, lens := [1#2, 2#2, 3#2], d := .g, a := .g, b := .g },
  { fn := 4#4, lens := [0#2], d := .g, a := .g, b := .g },
  { fn := 4#4, lens := [1#2, 2#2, 3#2], d := .g, a := .g, b := .g },
  { fn := 5#4, lens := [0#2], d := .g, a := .g, b := .g },
  { fn := 5#4, lens := [1#2, 2#2, 3#2], d := .g, a := .g, b := .g },
  { fn := 8#4, lens := [0#2], d := .g, a := .g, b := .imm },
  { fn := 8#4, lens := [2#2], d := .g, a := .g, b := .imm },
  { fn := 9#4, lens := [0#2], d := .g, a := .g, b := .imm },
  { fn := 9#4, lens := [2#2], d := .g, a := .g, b := .imm },
  { fn := 10#4, lens := [0#2], d := .g, a := .g, b := .imm },
  { fn := 10#4, lens := [2#2], d := .g, a := .g, b := .imm },
  { fn := 11#4, lens := [0#2], d := .g, a := .g, b := .imm },
  { fn := 11#4, lens := [2#2], d := .g, a := .g, b := .imm },
  { fn := 12#4, lens := [0#2], d := .g, a := .g, b := .imm },
  { fn := 12#4, lens := [2#2], d := .g, a := .g, b := .imm },
  { fn := 13#4, lens := [0#2], d := .g, a := .g, b := .imm },
  { fn := 13#4, lens := [2#2], d := .g, a := .g, b := .imm }]

def forms03 : List Form := [
  { fn := 0#4, lens := [0#2], d := .g, a := .g },
  { fn := 0#4, lens := [2#2], d := .g, a := .g },
  { fn := 1#4, lens := [0#2], d := .g, a := .g },
  { fn := 1#4, lens := [2#2], d := .g, a := .g },
  { fn := 2#4, lens := [0#2], d := .g, a := .g },
  { fn := 2#4, lens := [2#2], d := .g, a := .g },
  { fn := 3#4, lens := [0#2], d := .g, a := .g },
  { fn := 3#4, lens := [2#2], d := .g, a := .g },
  { fn := 4#4, lens := [0#2], d := .g, a := .g },
  { fn := 4#4, lens := [2#2], d := .g, a := .g },
  { fn := 5#4, lens := [0#2], d := .g, a := .g, b := .imm },
  { fn := 5#4, lens := [2#2], d := .g, a := .g, b := .imm },
  { fn := 6#4, lens := [0#2], d := .g, a := .g, b := .imm },
  { fn := 6#4, lens := [2#2], d := .g, a := .g, b := .imm },
  { fn := 7#4, lens := [2#2], d := .g, a := .g, imm := .mask 0x3F3F#32 },
  { fn := 8#4, lens := [2#2], d := .g, a := .g, b := .g, imm := .mask 0x3F3F#32 },
  { fn := 9#4, lens := [2#2, 3#2], d := .g, a := .g, b := .g, c := .p }]

def forms04 : List Form := [
  { fn := 0#4, lens := [0#2], d := .g, a := .g },
  { fn := 0#4, lens := [2#2], d := .g, a := .g },
  { fn := 1#4, lens := [0#2], d := .g, b := .imm },
  { fn := 1#4, lens := [1#2, 2#2, 3#2], d := .g, b := .imm }]

def forms05 : List Form := [
  { fn := 0#4, lens := [0#2], d := .p, a := .g, b := .g },
  { fn := 0#4, lens := [1#2, 2#2, 3#2], d := .p, a := .g, b := .g },
  { fn := 1#4, lens := [0#2], d := .p, a := .g, b := .g },
  { fn := 1#4, lens := [1#2, 2#2, 3#2], d := .p, a := .g, b := .g },
  { fn := 2#4, lens := [0#2], d := .p, a := .g, b := .g },
  { fn := 2#4, lens := [1#2, 2#2, 3#2], d := .p, a := .g, b := .g },
  { fn := 3#4, lens := [0#2], d := .p, a := .g, b := .g },
  { fn := 3#4, lens := [1#2, 2#2, 3#2], d := .p, a := .g, b := .g },
  { fn := 4#4, lens := [0#2], d := .p, a := .g, b := .g },
  { fn := 4#4, lens := [1#2, 2#2, 3#2], d := .p, a := .g, b := .g },
  { fn := 5#4, lens := [0#2], d := .p, a := .g, b := .g },
  { fn := 5#4, lens := [1#2, 2#2, 3#2], d := .p, a := .g, b := .g },
  { fn := 6#4, lens := [0#2], d := .p, a := .g, b := .g },
  { fn := 6#4, lens := [1#2, 2#2, 3#2], d := .p, a := .g, b := .g },
  { fn := 7#4, lens := [0#2], d := .p, a := .g, b := .g },
  { fn := 7#4, lens := [1#2, 2#2, 3#2], d := .p, a := .g, b := .g },
  { fn := 8#4, lens := [0#2], d := .p, a := .g, b := .g },
  { fn := 8#4, lens := [1#2, 2#2, 3#2], d := .p, a := .g, b := .g },
  { fn := 9#4, lens := [0#2], d := .p, a := .g, b := .g },
  { fn := 9#4, lens := [1#2, 2#2, 3#2], d := .p, a := .g, b := .g }]

def forms08 : List Form := [
  { fn := 0#4, lens := [0#2], d := .g, a := .g, b := .g },
  { fn := 0#4, lens := [1#2, 2#2, 3#2], d := .g, a := .g, b := .g },
  { fn := 1#4, lens := [0#2], d := .g, a := .g, b := .g },
  { fn := 1#4, lens := [1#2, 2#2, 3#2], d := .g, a := .g, b := .g },
  { fn := 2#4, lens := [0#2], d := .g, a := .g, b := .g },
  { fn := 2#4, lens := [1#2, 2#2, 3#2], d := .g, a := .g, b := .g },
  { fn := 3#4, lens := [0#2], d := .g, a := .g, b := .g },
  { fn := 3#4, lens := [1#2, 2#2, 3#2], d := .g, a := .g, b := .g },
  { fn := 4#4, lens := [0#2], d := .g, a := .g, b := .g },
  { fn := 4#4, lens := [1#2, 2#2, 3#2], d := .g, a := .g, b := .g },
  { fn := 5#4, lens := [0#2], d := .g, a := .g, b := .g },
  { fn := 5#4, lens := [2#2], d := .g, a := .g, b := .g },
  { fn := 6#4, lens := [0#2], d := .g, a := .g, b := .g },
  { fn := 6#4, lens := [2#2], d := .g, a := .g, b := .g },
  { fn := 7#4, lens := [0#2], d := .g, a := .g, b := .immMax 8 },
  { fn := 7#4, lens := [2#2], d := .g, a := .g, b := .immMax 8 },
  { fn := 8#4, lens := [0#2], d := .g, a := .g },
  { fn := 8#4, lens := [2#2], d := .g, a := .g },
  { fn := 9#4, lens := [0#2], d := .p, a := .g, b := .g },
  { fn := 9#4, lens := [2#2], d := .p, a := .g, b := .g },
  { fn := 10#4, lens := [0#2], d := .g, a := .g, b := .g },
  { fn := 10#4, lens := [2#2], d := .g, a := .g, b := .g }]

def forms0B : List Form := [
  { fn := 0#4, lens := [0#2], d := .p, a := .p, b := .p },
  { fn := 0#4, lens := [2#2], d := .p, a := .p, b := .p },
  { fn := 1#4, lens := [0#2], d := .p, a := .p, b := .p },
  { fn := 1#4, lens := [2#2], d := .p, a := .p, b := .p },
  { fn := 2#4, lens := [0#2], d := .p, a := .p, b := .p },
  { fn := 2#4, lens := [2#2], d := .p, a := .p, b := .p },
  { fn := 3#4, lens := [0#2], d := .p, a := .p },
  { fn := 3#4, lens := [2#2], d := .p, a := .p },
  { fn := 4#4, lens := [0#2], d := .p, a := .p },
  { fn := 4#4, lens := [2#2], d := .p, a := .p },
  { fn := 5#4, lens := [0#2], d := .p, a := .reg0 },
  { fn := 5#4, lens := [2#2], d := .p, imm := .any },
  { fn := 6#4, lens := [0#2], d := .g, a := .p },
  { fn := 6#4, lens := [2#2], d := .g, a := .p }]

def forms0C : List Form := [
  { fn := 0#4, lens := [2#2], d := .g, a := .g, b := .g, fmts := 0x3#16, rm := .all },
  { fn := 1#4, lens := [2#2], d := .g, a := .g, b := .g, fmts := 0x3#16, rm := .all },
  { fn := 2#4, lens := [2#2], d := .g, a := .g, b := .g, fmts := 0x3#16, rm := .all },
  { fn := 3#4, lens := [2#2], d := .g, a := .g, b := .g, c := .g, fmts := 0x3#16, rm := .all },
  { fn := 4#4, lens := [2#2], d := .g, a := .g, b := .g, fmts := 0x3#16, rm := .all },
  { fn := 5#4, lens := [2#2], d := .g, a := .g, fmts := 0x3#16, rm := .all },
  { fn := 6#4, lens := [2#2], d := .g, a := .g, b := .g, fmts := 0x3#16 },
  { fn := 7#4, lens := [2#2], d := .g, a := .g, b := .g, fmts := 0x3#16 },
  { fn := 8#4, lens := [2#2], d := .p, a := .g, b := .g, sub := .max 5, fmts := 0x3#16 },
  { fn := 9#4, lens := [2#2], d := .g, a := .g, sub := .fcvt, fmts := 0x7FBF#16, rm := .all },
  { fn := 10#4, lens := [2#2], d := .g, a := .g, fmts := 0x3F#16 }]

def forms0E : List Form := [
  { fn := 0#4, lens := [2#2], imm := .mask 0xFFFFFFFC#32 },
  { fn := 1#4, lens := [2#2], c := .p, sub := .max 2, imm := .mask 0xFFFFFFFC#32 },
  { fn := 2#4, lens := [2#2], d := .g, imm := .mask 0xFFFFFFFC#32 },
  { fn := 3#4, lens := [0#2], a := .g },
  { fn := 3#4, lens := [2#2], a := .g },
  { fn := 4#4, lens := [0#2], a := .g },
  { fn := 4#4, lens := [2#2], a := .g },
  { fn := 5#4, lens := [2#2], a := .g, imm := .mask 0xFFFFFFFC#32 },
  { fn := 6#4, lens := [0#2] },
  { fn := 7#4, lens := [0#2] },
  { fn := 8#4, lens := [0#2], b := .imm },
  { fn := 8#4, lens := [2#2], imm := .any },
  { fn := 9#4, lens := [0#2] }]

def forms0F : List Form := [
  { fn := 0#4, lens := [0#2], d := .g, a := .readSel },
  { fn := 0#4, lens := [2#2], d := .g, a := .readSel },
  { fn := 1#4, lens := [0#2], d := .writeSel, a := .g },
  { fn := 1#4, lens := [2#2], d := .writeSel, a := .g },
  { fn := 2#4, lens := [0#2], d := .g },
  { fn := 2#4, lens := [2#2], d := .g },
  { fn := 3#4, lens := [0#2], d := .vdest },
  { fn := 3#4, lens := [2#2], d := .vdest },
  { fn := 4#4, lens := [0#2], d := .p, a := .query },
  { fn := 4#4, lens := [2#2], d := .p, a := .query },
  { fn := 5#4, lens := [0#2], d := .p, a := .queryV },
  { fn := 5#4, lens := [2#2], d := .p, a := .queryV }]

def forms10 : List Form := [
  { fn := 0#4, lens := [0#2], d := .g, a := .g, b := .imm },
  { fn := 0#4, lens := [2#2], d := .g, a := .g, imm := .any },
  { fn := 1#4, lens := [0#2], d := .g, a := .g, b := .imm },
  { fn := 1#4, lens := [2#2], d := .g, a := .g, imm := .any },
  { fn := 2#4, lens := [0#2], d := .g, a := .g, b := .imm },
  { fn := 2#4, lens := [2#2], d := .g, a := .g, imm := .any },
  { fn := 3#4, lens := [0#2], d := .g, a := .g, b := .imm },
  { fn := 3#4, lens := [2#2], d := .g, a := .g, imm := .any },
  { fn := 4#4, lens := [0#2], d := .g, a := .g, b := .imm },
  { fn := 4#4, lens := [2#2], d := .g, a := .g, imm := .any },
  { fn := 5#4, lens := [0#2], d := .g, a := .g, b := .imm },
  { fn := 5#4, lens := [2#2], d := .g, a := .g, imm := .any },
  { fn := 6#4, lens := [0#2], d := .g, a := .g, b := .imm },
  { fn := 6#4, lens := [2#2], d := .g, a := .g, imm := .any },
  { fn := 7#4, lens := [0#2], d := .g, a := .g, b := .imm },
  { fn := 7#4, lens := [2#2], d := .g, a := .g, imm := .any },
  { fn := 8#4, lens := [0#2], d := .g, a := .g, b := .imm },
  { fn := 8#4, lens := [2#2], d := .g, a := .g, scope := true, imm := .any },
  { fn := 9#4, lens := [0#2], d := .g, a := .g, b := .imm },
  { fn := 9#4, lens := [2#2], d := .g, a := .g, scope := true, imm := .any }]

def forms11 : List Form := [
  { fn := 0#4, lens := [0#2], d := .g, a := .g, b := .imm, dread := true },
  { fn := 0#4, lens := [2#2], d := .g, a := .g, dread := true, imm := .any },
  { fn := 1#4, lens := [0#2], d := .g, a := .g, b := .imm, dread := true },
  { fn := 1#4, lens := [2#2], d := .g, a := .g, dread := true, imm := .any },
  { fn := 2#4, lens := [0#2], d := .g, a := .g, b := .imm, dread := true },
  { fn := 2#4, lens := [2#2], d := .g, a := .g, dread := true, imm := .any },
  { fn := 3#4, lens := [0#2], d := .g, a := .g, b := .imm, dread := true },
  { fn := 3#4, lens := [2#2], d := .g, a := .g, dread := true, imm := .any },
  { fn := 4#4, lens := [0#2], d := .g, a := .g, b := .imm, dread := true },
  { fn := 4#4, lens := [2#2], d := .g, a := .g, dread := true, imm := .any },
  { fn := 5#4, lens := [0#2], d := .g, a := .g, b := .imm, dread := true },
  { fn := 5#4, lens := [2#2], d := .g, a := .g, dread := true, scope := true, imm := .any },
  { fn := 6#4, lens := [0#2], d := .g, a := .g, b := .imm, dread := true },
  { fn := 6#4, lens := [2#2], d := .g, a := .g, dread := true, scope := true, imm := .any }]

def forms12 : List Form := [
  { fn := 0#4, lens := [0#2], d := .g, a := .g, b := .imm },
  { fn := 0#4, lens := [2#2], d := .g, a := .g, scope := true, imm := .any },
  { fn := 1#4, lens := [0#2], d := .g, a := .g, b := .imm },
  { fn := 1#4, lens := [2#2], d := .g, a := .g, scope := true, imm := .any },
  { fn := 2#4, lens := [0#2], d := .g, a := .g, b := .imm, dread := true },
  { fn := 2#4, lens := [2#2], d := .g, a := .g, dread := true, scope := true, imm := .any },
  { fn := 3#4, lens := [0#2], d := .g, a := .g, b := .imm, dread := true },
  { fn := 3#4, lens := [2#2], d := .g, a := .g, dread := true, scope := true, imm := .any },
  { fn := 4#4, lens := [0#2], d := .p, a := .g, b := .imm },
  { fn := 4#4, lens := [2#2], d := .p, a := .g, scope := true, imm := .any }]

def forms14 : List Form := [
  { fn := 0#4, lens := [0#2], d := .slot, a := .g, b := .g },
  { fn := 0#4, lens := [2#2], d := .slot, a := .g, b := .g },
  { fn := 1#4, lens := [0#2], d := .g, a := .num 8 },
  { fn := 1#4, lens := [2#2], d := .g, a := .num 8 },
  { fn := 2#4, lens := [0#2], d := .vdest, a := .num 8 },
  { fn := 2#4, lens := [2#2], d := .vdest, a := .num 8 },
  { fn := 3#4, lens := [0#2], d := .g, a := .num 8, dread := true },
  { fn := 3#4, lens := [2#2], d := .g, a := .num 8, dread := true },
  { fn := 4#4, lens := [0#2], d := .v, a := .num 8, dread := true },
  { fn := 4#4, lens := [2#2], d := .v, a := .num 8, dread := true }]

def forms15 : List Form := [
  { fn := 0#4, lens := [0#2], d := .num 8, a := .g, b := .g },
  { fn := 0#4, lens := [2#2], d := .num 8, a := .g, b := .g },
  { fn := 1#4, lens := [0#2], d := .num 8 },
  { fn := 1#4, lens := [2#2], d := .num 8 },
  { fn := 2#4, lens := [0#2], d := .num 8 },
  { fn := 2#4, lens := [2#2], d := .num 8 },
  { fn := 3#4, lens := [0#2], a := .g, b := .imm },
  { fn := 3#4, lens := [2#2], a := .g, imm := .any },
  { fn := 4#4, lens := [0#2], a := .g, b := .imm },
  { fn := 4#4, lens := [2#2], a := .g, imm := .any },
  { fn := 5#4, lens := [0#2], a := .g, b := .imm },
  { fn := 5#4, lens := [2#2], a := .g, imm := .any },
  { fn := 6#4, lens := [0#2], a := .g, b := .imm },
  { fn := 6#4, lens := [2#2], a := .g, imm := .any }]

def forms16 : List Form := [
  { fn := 0#4, lens := [2#2], d := .g, a := .g, b := .g, sub := .max 8, fmts := 0x3800#16, scope := true, ords := 0xF#8, imm := .any },
  { fn := 1#4, lens := [2#2], d := .g, a := .g, b := .g, c := .g, fmts := 0x3800#16, scope := true, ords := 0xF#8, imm := .any },
  { fn := 2#4, lens := [2#2], a := .g, b := .g, sub := .max 7, fmts := 0x3800#16, scope := true, ords := 0x5#8, imm := .any },
  { fn := 3#4, lens := [2#2], d := .g, a := .g, b := .g, sub := .amof, fmts := 0x3#16, rm := .to4, scope := true, ords := 0xF#8, imm := .any },
  { fn := 4#4, lens := [2#2], d := .g, a := .g, b := .g, fmts := 0x2000#16, scope := true, ords := 0xF#8, imm := .mask 0x3F#32 }]

def forms17 : List Form := [
  { fn := 0#4, lens := [2#2], scope := true },
  { fn := 1#4, lens := [2#2], sub := .fencex, scope := true }]

def forms18 : List Form := [
  { fn := 0#4, lens := [0#2], a := .g, b := .g },
  { fn := 0#4, lens := [2#2], a := .g, b := .g },
  { fn := 1#4, lens := [0#2], d := .g, a := .g },
  { fn := 1#4, lens := [2#2], d := .g, a := .g, scope := true },
  { fn := 2#4, lens := [0#2], d := .g, a := .g, b := .g },
  { fn := 2#4, lens := [2#2], d := .g, a := .g, b := .g, scope := true },
  { fn := 3#4, lens := [0#2], a := .g, b := .g },
  { fn := 3#4, lens := [2#2], a := .g, b := .g, scope := true },
  { fn := 4#4, lens := [0#2], d := .p, a := .g, b := .g },
  { fn := 4#4, lens := [2#2], d := .p, a := .g, b := .g, scope := true },
  { fn := 5#4, lens := [0#2], a := .g, b := .g },
  { fn := 5#4, lens := [2#2], a := .g, b := .g }]

def forms19 : List Form := [
  { fn := 0#4, lens := [2#2, 3#2], d := .g, a := .g, b := .g, c := .g, imm := .xcopy },
  { fn := 1#4, lens := [2#2, 3#2], d := .g, a := .g, b := .g, c := .g, imm := .xcopy },
  { fn := 2#4, lens := [0#2], a := .num 4, b := .g },
  { fn := 2#4, lens := [2#2], a := .num 4, b := .g },
  { fn := 3#4, lens := [0#2], d := .g, a := .num 4, b := .g },
  { fn := 3#4, lens := [2#2], d := .g, a := .num 4, b := .g },
  { fn := 4#4, lens := [0#2], a := .num 4, b := .g },
  { fn := 4#4, lens := [2#2], a := .num 4, b := .g },
  { fn := 5#4, lens := [2#2], d := .g, a := .g, b := .g, c := .g, imm := .xgath }]

def forms1A : List Form := [
  { fn := 0#4, lens := [2#2], d := .g, a := .g, b := .v, fmts := 0x7FFF#16, imm := .any },
  { fn := 1#4, lens := [2#2], d := .vdest, a := .g, fmts := 0x7FFF#16, imm := .any },
  { fn := 2#4, lens := [0#2], a := .g, b := .g },
  { fn := 2#4, lens := [2#2], a := .g, b := .g },
  { fn := 3#4, lens := [0#2], d := .g, a := .g },
  { fn := 3#4, lens := [2#2], d := .g, a := .g }]

def forms20 : List Form := [
  { fn := 0#4, lens := [2#2], d := .vdest, a := .v, b := .v, fmts := 0xF#16, rm := .all },
  { fn := 1#4, lens := [2#2], d := .vdest, a := .v, b := .v, fmts := 0xF#16, rm := .all },
  { fn := 2#4, lens := [2#2], d := .vdest, a := .v, b := .v, fmts := 0xF#16, rm := .all },
  { fn := 3#4, lens := [2#2], d := .vdest, a := .v, b := .v, c := .v, fmts := 0xF#16, rm := .all },
  { fn := 4#4, lens := [2#2], d := .vdest, a := .v, b := .v, c := .v, fmts := 0xF#16, rm := .all },
  { fn := 5#4, lens := [2#2], d := .vdest, a := .v, b := .v, c := .v, fmts := 0xF#16, rm := .all },
  { fn := 6#4, lens := [2#2], d := .vdest, a := .v, b := .v, fmts := 0xF#16, rm := .all },
  { fn := 7#4, lens := [2#2], d := .vdest, a := .v, fmts := 0xF#16, rm := .all },
  { fn := 8#4, lens := [2#2], d := .vdest, a := .v, b := .v, fmts := 0xF#16 },
  { fn := 9#4, lens := [2#2], d := .vdest, a := .v, b := .v, fmts := 0xF#16 },
  { fn := 10#4, lens := [2#2], d := .vdest, a := .v, fmts := 0xF#16 },
  { fn := 11#4, lens := [2#2], d := .vdest, a := .v, fmts := 0xF#16 }]

def forms21 : List Form := [
  { fn := 0#4, lens := [2#2], d := .vdest, a := .v, fmts := 0x3#16, rm := .zeroOnly },
  { fn := 1#4, lens := [2#2], d := .vdest, a := .v, fmts := 0x3#16, rm := .zeroOnly },
  { fn := 2#4, lens := [2#2], d := .vdest, a := .v, fmts := 0x3#16, rm := .zeroOnly },
  { fn := 3#4, lens := [2#2], d := .vdest, a := .v, fmts := 0x3#16, rm := .zeroOnly },
  { fn := 4#4, lens := [2#2], d := .vdest, a := .v, fmts := 0x2#16, rm := .zeroOnly },
  { fn := 5#4, lens := [2#2], d := .vdest, a := .v, fmts := 0x2#16, rm := .zeroOnly }]

def forms24 : List Form := [
  { fn := 0#4, lens := [2#2], d := .vdest, a := .v, b := .v, fmts := 0x3F80#16 },
  { fn := 1#4, lens := [2#2], d := .vdest, a := .v, b := .v, fmts := 0x3F80#16 },
  { fn := 2#4, lens := [2#2], d := .vdest, a := .v, b := .v, fmts := 0x3F80#16 },
  { fn := 3#4, lens := [2#2], d := .vdest, a := .v, b := .v, fmts := 0x3F80#16 },
  { fn := 4#4, lens := [2#2], d := .vdest, a := .v, b := .v, fmts := 0x3F80#16 },
  { fn := 5#4, lens := [2#2], d := .vdest, a := .v, b := .v, fmts := 0x7FFF#16 },
  { fn := 6#4, lens := [2#2], d := .vdest, a := .v, b := .v, fmts := 0x7FFF#16 },
  { fn := 7#4, lens := [2#2], d := .vdest, a := .v, b := .v, fmts := 0x7FFF#16 },
  { fn := 8#4, lens := [2#2], d := .vdest, a := .v, b := .v, fmts := 0x3F80#16 },
  { fn := 9#4, lens := [2#2], d := .vdest, a := .v, b := .v, fmts := 0x3F80#16 },
  { fn := 10#4, lens := [2#2], d := .vdest, a := .v, b := .v, fmts := 0x3F80#16 }]

def forms25 : List Form := [
  { fn := 0#4, lens := [2#2], d := .p, a := .v, b := .v, sub := .max 9, fmts := 0x3F80#16 },
  { fn := 1#4, lens := [2#2], d := .p, a := .v, b := .v, sub := .max 5, fmts := 0xF#16 },
  { fn := 2#4, lens := [2#2], d := .vdest, a := .v, b := .v, c := .p, fmts := 0x7FFF#16 }]

def forms26 : List Form := [
  { fn := 0#4, lens := [2#2], d := .vdest, a := .v, sub := .vcvt, fmts := 0x3FFF#16, rm := .all, imm := .part },
  { fn := 1#4, lens := [2#2], d := .vdest, a := .v, sub := .max 1, fmts := 0x3FBF#16, rm := .all, imm := .partRns },
  { fn := 2#4, lens := [2#2], d := .vdest, a := .v, b := .v, fmts := 0x4000#16 },
  { fn := 3#4, lens := [2#2], d := .vdest, a := .v, b := .v, fmts := 0x4000#16 }]

def forms27 : List Form := [
  { fn := 0#4, lens := [2#2], d := .g, a := .v, sub := .vred, fmts := 0x7F8F#16, rm := .vred },
  { fn := 1#4, lens := [2#2], d := .vdest, a := .v, fmts := 0x7F8F#16, rm := .fpOnly },
  { fn := 2#4, lens := [2#2], d := .vdest, a := .v, c := .p, fmts := 0x7803#16, rm := .fpOnly },
  { fn := 3#4, lens := [2#2], d := .vdest, a := .v, c := .p, fmts := 0x7803#16, rm := .fpOnly }]

def forms28 : List Form := [
  { fn := 0#4, lens := [2#2], d := .vdest, a := .v, b := .v, fmts := 0x7FBF#16 },
  { fn := 1#4, lens := [2#2], d := .vdest, a := .g, fmts := 0x7FFF#16 },
  { fn := 2#4, lens := [2#2], d := .vdest, a := .v, b := .v, fmts := 0x7FFF#16, imm := .slide },
  { fn := 3#4, lens := [2#2], d := .vdest, a := .v, c := .p, fmts := 0x7FFF#16 },
  { fn := 4#4, lens := [2#2], d := .vdest, a := .v, c := .p, fmts := 0x7FFF#16 },
  { fn := 5#4, lens := [2#2], d := .vdest, a := .v, fmts := 0x3FBF#16, imm := .mask 0x1#32 },
  { fn := 6#4, lens := [2#2], d := .vdest, c := .p, fmts := 0x3F80#16 },
  { fn := 7#4, lens := [2#2], d := .g, c := .p, fmts := 0x7FFF#16 },
  { fn := 8#4, lens := [2#2], d := .g, a := .v, fmts := 0x7FFF#16, imm := .index },
  { fn := 9#4, lens := [2#2], d := .vdest, a := .g, fmts := 0x7FFF#16, imm := .index }]

def forms29 : List Form := [
  { fn := 0#4, lens := [2#2], d := .vdest, a := .g, fmts := 0x7FFF#16, imm := .any },
  { fn := 1#4, lens := [2#2], d := .v, a := .g, dread := true, fmts := 0x7FFF#16, imm := .any },
  { fn := 2#4, lens := [2#2], d := .vdest, a := .g, c := .v, fmts := 0x7FBF#16, imm := .any },
  { fn := 3#4, lens := [2#2], d := .v, a := .g, c := .v, dread := true, fmts := 0x7FBF#16, imm := .any },
  { fn := 4#4, lens := [2#2], d := .vdest, a := .g, c := .g, fmts := 0x7FFF#16, imm := .any },
  { fn := 5#4, lens := [2#2], d := .v, a := .g, c := .g, dread := true, fmts := 0x7FFF#16, imm := .any }]

def forms2A : List Form := [
  { fn := 0#4, lens := [2#2], d := .acc, a := .g, b := .g, fmts := 0xFC#16, imm := .mask 0x1FFFFF#32 },
  { fn := 1#4, lens := [2#2], d := .acc, a := .g, b := .g, fmts := 0xFC#16, imm := .mask 0x1FFFFF#32 },
  { fn := 2#4, lens := [2#2], d := .acc, a := .g, b := .g, fmts := 0x80#16, imm := .mask 0x1FFFFF#32 },
  { fn := 3#4, lens := [2#2], d := .acc, imm := .mask 0x1#32 },
  { fn := 4#4, lens := [2#2], d := .acc, a := .g, b := .g, fmts := 0x3FBF#16, rm := .all, imm := .mask 0x3FFFFF#32 },
  { fn := 5#4, lens := [2#2], d := .acc, a := .g, fmts := 0x4002#16, imm := .mask 0xFFFFF#32 },
  { fn := 6#4, lens := [2#2], d := .acc, a := .g, b := .g, fmts := 0x40#16, rm := .all, imm := .mask 0x1#32 }]

def forms2B : List Form := [
  { fn := 0#4, lens := [0#2], a := .acc },
  { fn := 0#4, lens := [2#2], a := .acc },
  { fn := 1#4, lens := [0#2], d := .g, a := .acc },
  { fn := 1#4, lens := [2#2], d := .g, a := .acc }]

def forms30 : List Form := [
  { fn := 0#4, lens := [2#2], d := .g, a := .g, dread := true, imm := .mask 0x3#32 },
  { fn := 1#4, lens := [2#2], d := .v, a := .g, dread := true, imm := .mask 0x3#32 },
  { fn := 2#4, lens := [0#2], d := .g, a := .num 8 },
  { fn := 2#4, lens := [2#2], d := .g, a := .num 8 },
  { fn := 3#4, lens := [2#2], a := .g },
  { fn := 4#4, lens := [2#2], d := .g, a := .g, imm := .spawn },
  { fn := 5#4, lens := [2#2], d := .g, a := .g, b := .g, fmts := 0x6001#16, rm := .joinc },
  { fn := 6#4, lens := [2#2], a := .g, imm := .mask 0x3#32 },
  { fn := 7#4, lens := [2#2], a := .g, imm := .mask 0x3#32 },
  { fn := 8#4, lens := [0#2], d := .p, a := .g, b := .immMax 4 },
  { fn := 8#4, lens := [2#2], d := .p, a := .g, b := .immMax 4 }]

def forms31 : List Form := [
  { fn := 0#4, lens := [2#2], d := .g, a := .g, imm := .mask 0x3F#32 },
  { fn := 1#4, lens := [2#2], d := .g, a := .g, b := .g, fmts := 0x4002#16, imm := .jtchk },
  { fn := 2#4, lens := [2#2], d := .g, a := .g, b := .g, imm := .mask 0xF#32 },
  { fn := 3#4, lens := [2#2], d := .g, a := .g, b := .g, imm := .mask 0xF#32 },
  { fn := 8#4, lens := [2#2], d := .g, a := .g, b := .g, imm := .mask 0xF#32 },
  { fn := 4#4, lens := [2#2], d := .g, a := .g, b := .g, imm := .mask 0x1F#32 },
  { fn := 5#4, lens := [2#2], d := .g, a := .g, b := .g, c := .g, imm := .mask 0x1#32 },
  { fn := 6#4, lens := [2#2], d := .g, a := .g, b := .g, c := .g },
  { fn := 7#4, lens := [2#2], a := .g, b := .g, imm := .jdelta }]

def forms32 : List Form := [
  { fn := 0#4, lens := [2#2], d := .g, a := .g, b := .g, imm := .rcall },
  { fn := 1#4, lens := [2#2], a := .g, b := .g, imm := .rcalln },
  { fn := 2#4, lens := [2#2], a := .g, imm := .rreply },
  { fn := 3#4, lens := [2#2], a := .g, b := .g, imm := .rcalln },
  { fn := 4#4, lens := [0#2] },
  { fn := 4#4, lens := [2#2] },
  { fn := 5#4, lens := [0#2], d := .g },
  { fn := 5#4, lens := [2#2], d := .g }]

def forms33 : List Form := [
  { fn := 0#4, lens := [2#2], a := .g },
  { fn := 1#4, lens := [2#2] },
  { fn := 2#4, lens := [0#2], d := .g },
  { fn := 2#4, lens := [2#2], d := .g },
  { fn := 3#4, lens := [2#2], a := .g, b := .g, imm := .mask 0x3F#32 },
  { fn := 4#4, lens := [0#2], d := .g, a := .num 64 },
  { fn := 4#4, lens := [2#2], d := .g, a := .num 64 }]

def forms34 : List Form := [
  { fn := 0#4, lens := [2#2], d := .g, a := .g },
  { fn := 1#4, lens := [2#2], a := .g, b := .g },
  { fn := 2#4, lens := [2#2], d := .p, a := .g, b := .g },
  { fn := 3#4, lens := [0#2, 2#2] },
  { fn := 4#4, lens := [0#2], a := .g },
  { fn := 4#4, lens := [2#2], a := .g },
  { fn := 5#4, lens := [0#2], d := .g, a := .g, b := .immMax 2 },
  { fn := 5#4, lens := [2#2], d := .g, a := .g, b := .immMax 2 }]

/-- The forms of a major opcode. -/
def formsOf (op : Nat) : List Form :=
  match op with
  | 0x01 => forms01
  | 0x02 => forms02
  | 0x03 => forms03
  | 0x04 => forms04
  | 0x05 => forms05
  | 0x08 => forms08
  | 0x0B => forms0B
  | 0x0C => forms0C
  | 0x0E => forms0E
  | 0x0F => forms0F
  | 0x10 => forms10
  | 0x11 => forms11
  | 0x12 => forms12
  | 0x14 => forms14
  | 0x15 => forms15
  | 0x16 => forms16
  | 0x17 => forms17
  | 0x18 => forms18
  | 0x19 => forms19
  | 0x1A => forms1A
  | 0x20 => forms20
  | 0x21 => forms21
  | 0x24 => forms24
  | 0x25 => forms25
  | 0x26 => forms26
  | 0x27 => forms27
  | 0x28 => forms28
  | 0x29 => forms29
  | 0x2A => forms2A
  | 0x2B => forms2B
  | 0x30 => forms30
  | 0x31 => forms31
  | 0x32 => forms32
  | 0x33 => forms33
  | 0x34 => forms34
  | _ => []

/-- The instruction that the fields of a form make. -/
noncomputable def makeInstr (op : Nat) (fn : BitVec 4) (f : Ext) : Option Instr :=
  match op, fn.toNat with
  | 0x01, 0 => some (if f.len = 0#2 then .add f.base else .addExt f)
  | 0x01, 1 => some (if f.len = 0#2 then .sub f.base else .subExt f)
  | 0x01, 2 => some (if f.len = 0#2 then .mul f.base else .mulExt f)
  | 0x01, 3 => some (if f.len = 0#2 then .mulh f.base else .mulhExt f)
  | 0x01, 4 => some (if f.len = 0#2 then .mulhn f.base else .mulhnExt f)
  | 0x01, 5 => some (if f.len = 0#2 then .div f.base else .divExt f)
  | 0x01, 6 => some (if f.len = 0#2 then .divn f.base else .divnExt f)
  | 0x01, 7 => some (if f.len = 0#2 then .rem f.base else .remExt f)
  | 0x01, 8 => some (if f.len = 0#2 then .remn f.base else .remnExt f)
  | 0x01, 9 => some (if f.len = 0#2 then .and f.base else .andExt f)
  | 0x01, 10 => some (if f.len = 0#2 then .or f.base else .orExt f)
  | 0x01, 11 => some (if f.len = 0#2 then .xor f.base else .xorExt f)
  | 0x01, 12 => some (if f.len = 0#2 then .andn f.base else .andnExt f)
  | 0x01, 13 => some (if f.len = 0#2 then .shl f.base else .shlExt f)
  | 0x01, 14 => some (if f.len = 0#2 then .shr f.base else .shrExt f)
  | 0x01, 15 => some (if f.len = 0#2 then .shra f.base else .shraExt f)
  | 0x02, 0 => some (if f.len = 0#2 then .rotl f.base else .rotlExt f)
  | 0x02, 1 => some (if f.len = 0#2 then .rotr f.base else .rotrExt f)
  | 0x02, 2 => some (if f.len = 0#2 then .min f.base else .minExt f)
  | 0x02, 3 => some (if f.len = 0#2 then .max f.base else .maxExt f)
  | 0x02, 4 => some (if f.len = 0#2 then .minn f.base else .minnExt f)
  | 0x02, 5 => some (if f.len = 0#2 then .maxn f.base else .maxnExt f)
  | 0x02, 8 => some (if f.len = 0#2 then .addi f.base else .addiExt f)
  | 0x02, 9 => some (if f.len = 0#2 then .shlI6 f.base else .shlI6Ext f)
  | 0x02, 10 => some (if f.len = 0#2 then .shrI6 f.base else .shrI6Ext f)
  | 0x02, 11 => some (if f.len = 0#2 then .shraI6 f.base else .shraI6Ext f)
  | 0x02, 12 => some (if f.len = 0#2 then .rotlI6 f.base else .rotlI6Ext f)
  | 0x02, 13 => some (if f.len = 0#2 then .rotrI6 f.base else .rotrI6Ext f)
  | 0x03, 0 => some (if f.len = 0#2 then .clz f.base else .clzExt f)
  | 0x03, 1 => some (if f.len = 0#2 then .ctz f.base else .ctzExt f)
  | 0x03, 2 => some (if f.len = 0#2 then .popc f.base else .popcExt f)
  | 0x03, 3 => some (if f.len = 0#2 then .brev f.base else .brevExt f)
  | 0x03, 4 => some (if f.len = 0#2 then .bswap f.base else .bswapExt f)
  | 0x03, 5 => some (if f.len = 0#2 then .sext f.base else .sextExt f)
  | 0x03, 6 => some (if f.len = 0#2 then .zext f.base else .zextExt f)
  | 0x03, 7 => some (.bfx f)
  | 0x03, 8 => some (.bfi f)
  | 0x03, 9 => some (.sel f)
  | 0x04, 0 => some (if f.len = 0#2 then .mov f.base else .movExt f)
  | 0x04, 1 => some (if f.len = 0#2 then .li f.base else .liExt f)
  | 0x05, 0 => some (if f.len = 0#2 then .cmpEq f.base else .cmpEqExt f)
  | 0x05, 1 => some (if f.len = 0#2 then .cmpNe f.base else .cmpNeExt f)
  | 0x05, 2 => some (if f.len = 0#2 then .cmpLt f.base else .cmpLtExt f)
  | 0x05, 3 => some (if f.len = 0#2 then .cmpLe f.base else .cmpLeExt f)
  | 0x05, 4 => some (if f.len = 0#2 then .cmpGt f.base else .cmpGtExt f)
  | 0x05, 5 => some (if f.len = 0#2 then .cmpGe f.base else .cmpGeExt f)
  | 0x05, 6 => some (if f.len = 0#2 then .cmpLtn f.base else .cmpLtnExt f)
  | 0x05, 7 => some (if f.len = 0#2 then .cmpLen f.base else .cmpLenExt f)
  | 0x05, 8 => some (if f.len = 0#2 then .cmpGtn f.base else .cmpGtnExt f)
  | 0x05, 9 => some (if f.len = 0#2 then .cmpGen f.base else .cmpGenExt f)
  | 0x08, 0 => some (if f.len = 0#2 then .cadd f.base else .caddExt f)
  | 0x08, 1 => some (if f.len = 0#2 then .cseta f.base else .csetaExt f)
  | 0x08, 2 => some (if f.len = 0#2 then .cbound f.base else .cboundExt f)
  | 0x08, 3 => some (if f.len = 0#2 then .cboundx f.base else .cboundxExt f)
  | 0x08, 4 => some (if f.len = 0#2 then .candp f.base else .candpExt f)
  | 0x08, 5 => some (if f.len = 0#2 then .cseal f.base else .csealExt f)
  | 0x08, 6 => some (if f.len = 0#2 then .cunseal f.base else .cunsealExt f)
  | 0x08, 7 => some (if f.len = 0#2 then .cget f.base else .cgetExt f)
  | 0x08, 8 => some (if f.len = 0#2 then .cclear f.base else .cclearExt f)
  | 0x08, 9 => some (if f.len = 0#2 then .ctest f.base else .ctestExt f)
  | 0x08, 10 => some (if f.len = 0#2 then .csub f.base else .csubExt f)
  | 0x0B, 0 => some (if f.len = 0#2 then .pand f.base else .pandExt f)
  | 0x0B, 1 => some (if f.len = 0#2 then .por f.base else .porExt f)
  | 0x0B, 2 => some (if f.len = 0#2 then .pxor f.base else .pxorExt f)
  | 0x0B, 3 => some (if f.len = 0#2 then .pnot f.base else .pnotExt f)
  | 0x0B, 4 => some (if f.len = 0#2 then .pmov f.base else .pmovExt f)
  | 0x0B, 5 => some (if f.len = 0#2 then .pset f.base else .psetExt f)
  | 0x0B, 6 => some (if f.len = 0#2 then .pget f.base else .pgetExt f)
  | 0x0C, 0 => some (.fadd f)
  | 0x0C, 1 => some (.fsub f)
  | 0x0C, 2 => some (.fmul f)
  | 0x0C, 3 => some (.ffma f)
  | 0x0C, 4 => some (.fdiv f)
  | 0x0C, 5 => some (.fsqrt f)
  | 0x0C, 6 => some (.fmin f)
  | 0x0C, 7 => some (.fmax f)
  | 0x0C, 8 => some (.fcmp f)
  | 0x0C, 9 => some (.fcvt f)
  | 0x0C, 10 => some (.fclass f)
  | 0x0E, 0 => some (.br f)
  | 0x0E, 1 => some (.brp f)
  | 0x0E, 2 => some (.call f)
  | 0x0E, 3 => some (if f.len = 0#2 then .ret f.base else .retExt f)
  | 0x0E, 4 => some (if f.len = 0#2 then .jmpc f.base else .jmpcExt f)
  | 0x0E, 5 => some (.loop f)
  | 0x0E, 6 => some (.endFiring f.base)
  | 0x0E, 7 => some (.nop f.base)
  | 0x0E, 8 => some (if f.len = 0#2 then .etrap f.base else .etrapExt f)
  | 0x0E, 9 => some (.eret f.base)
  | 0x0F, 0 => some (if f.len = 0#2 then .mfs f.base else .mfsExt f)
  | 0x0F, 1 => some (if f.len = 0#2 then .mts f.base else .mtsExt f)
  | 0x0F, 2 => some (if f.len = 0#2 then .femptyG f.base else .femptyGExt f)
  | 0x0F, 3 => some (if f.len = 0#2 then .femptyV f.base else .femptyVExt f)
  | 0x0F, 4 => some (if f.len = 0#2 then .ftestG f.base else .ftestGExt f)
  | 0x0F, 5 => some (if f.len = 0#2 then .ftestV f.base else .ftestVExt f)
  | 0x10, 0 => some (if f.len = 0#2 then .ldI8 f.base else .ldI8Ext f)
  | 0x10, 1 => some (if f.len = 0#2 then .ldN8 f.base else .ldN8Ext f)
  | 0x10, 2 => some (if f.len = 0#2 then .ldI16 f.base else .ldI16Ext f)
  | 0x10, 3 => some (if f.len = 0#2 then .ldN16 f.base else .ldN16Ext f)
  | 0x10, 4 => some (if f.len = 0#2 then .ldI32 f.base else .ldI32Ext f)
  | 0x10, 5 => some (if f.len = 0#2 then .ldN32 f.base else .ldN32Ext f)
  | 0x10, 6 => some (if f.len = 0#2 then .ld64 f.base else .ld64Ext f)
  | 0x10, 7 => some (if f.len = 0#2 then .ldc f.base else .ldcExt f)
  | 0x10, 8 => some (if f.len = 0#2 then .lda32 f.base else .lda32Ext f)
  | 0x10, 9 => some (if f.len = 0#2 then .lda64 f.base else .lda64Ext f)
  | 0x11, 0 => some (if f.len = 0#2 then .st8 f.base else .st8Ext f)
  | 0x11, 1 => some (if f.len = 0#2 then .st16 f.base else .st16Ext f)
  | 0x11, 2 => some (if f.len = 0#2 then .st32 f.base else .st32Ext f)
  | 0x11, 3 => some (if f.len = 0#2 then .st64 f.base else .st64Ext f)
  | 0x11, 4 => some (if f.len = 0#2 then .stc f.base else .stcExt f)
  | 0x11, 5 => some (if f.len = 0#2 then .stl32 f.base else .stl32Ext f)
  | 0x11, 6 => some (if f.len = 0#2 then .stl64 f.base else .stl64Ext f)
  | 0x12, 0 => some (if f.len = 0#2 then .ldf f.base else .ldfExt f)
  | 0x12, 1 => some (if f.len = 0#2 then .ldfk f.base else .ldfkExt f)
  | 0x12, 2 => some (if f.len = 0#2 then .ste f.base else .steExt f)
  | 0x12, 3 => some (if f.len = 0#2 then .stfx f.base else .stfxExt f)
  | 0x12, 4 => some (if f.len = 0#2 then .feq f.base else .feqExt f)
  | 0x14, 0 => some (if f.len = 0#2 then .sload f.base else .sloadExt f)
  | 0x14, 1 => some (if f.len = 0#2 then .sldG f.base else .sldGExt f)
  | 0x14, 2 => some (if f.len = 0#2 then .sldV f.base else .sldVExt f)
  | 0x14, 3 => some (if f.len = 0#2 then .sstG f.base else .sstGExt f)
  | 0x14, 4 => some (if f.len = 0#2 then .sstV f.base else .sstVExt f)
  | 0x15, 0 => some (if f.len = 0#2 then .stash f.base else .stashExt f)
  | 0x15, 1 => some (if f.len = 0#2 then .unstash f.base else .unstashExt f)
  | 0x15, 2 => some (if f.len = 0#2 then .stashwb f.base else .stashwbExt f)
  | 0x15, 3 => some (if f.len = 0#2 then .pref f.base else .prefExt f)
  | 0x15, 4 => some (if f.len = 0#2 then .clzero f.base else .clzeroExt f)
  | 0x15, 5 => some (if f.len = 0#2 then .clwb f.base else .clwbExt f)
  | 0x15, 6 => some (if f.len = 0#2 then .clinv f.base else .clinvExt f)
  | 0x16, 0 => some (.amo f)
  | 0x16, 1 => some (.amocas f)
  | 0x16, 2 => some (.amon f)
  | 0x16, 3 => some (.amof f)
  | 0x16, 4 => some (.amoq f)
  | 0x17, 0 => some (.fence f)
  | 0x17, 1 => some (.fencex f)
  | 0x18, 0 => some (if f.len = 0#2 then .binit f.base else .binitExt f)
  | 0x18, 1 => some (if f.len = 0#2 then .barr f.base else .barrExt f)
  | 0x18, 2 => some (if f.len = 0#2 then .barrx f.base else .barrxExt f)
  | 0x18, 3 => some (if f.len = 0#2 then .bwait f.base else .bwaitExt f)
  | 0x18, 4 => some (if f.len = 0#2 then .btest f.base else .btestExt f)
  | 0x18, 5 => some (if f.len = 0#2 then .bbytes f.base else .bbytesExt f)
  | 0x19, 0 => some (.xcopy f)
  | 0x19, 1 => some (.xcopyt f)
  | 0x19, 2 => some (if f.len = 0#2 then .xwait f.base else .xwaitExt f)
  | 0x19, 3 => some (if f.len = 0#2 then .xstat f.base else .xstatExt f)
  | 0x19, 4 => some (if f.len = 0#2 then .xcancel f.base else .xcancelExt f)
  | 0x19, 5 => some (.xgath f)
  | 0x1A, 0 => some (.stbm f)
  | 0x1A, 1 => some (.ldbm f)
  | 0x1A, 2 => some (if f.len = 0#2 then .handover f.base else .handoverExt f)
  | 0x1A, 3 => some (if f.len = 0#2 then .ownq f.base else .ownqExt f)
  | 0x20, 0 => some (.vadd f)
  | 0x20, 1 => some (.vsub f)
  | 0x20, 2 => some (.vmul f)
  | 0x20, 3 => some (.vfma f)
  | 0x20, 4 => some (.vfms f)
  | 0x20, 5 => some (.vfnma f)
  | 0x20, 6 => some (.vdiv f)
  | 0x20, 7 => some (.vsqrt f)
  | 0x20, 8 => some (.vmin f)
  | 0x20, 9 => some (.vmax f)
  | 0x20, 10 => some (.vabs f)
  | 0x20, 11 => some (.vneg f)
  | 0x21, 0 => some (.vrcp f)
  | 0x21, 1 => some (.vrsq f)
  | 0x21, 2 => some (.vexp2 f)
  | 0x21, 3 => some (.vlog2 f)
  | 0x21, 4 => some (.vsigm f)
  | 0x21, 5 => some (.vtanh f)
  | 0x24, 0 => some (.viadd f)
  | 0x24, 1 => some (.visub f)
  | 0x24, 2 => some (.vimul f)
  | 0x24, 3 => some (.vimin f)
  | 0x24, 4 => some (.vimax f)
  | 0x24, 5 => some (.vand f)
  | 0x24, 6 => some (.vor f)
  | 0x24, 7 => some (.vxor f)
  | 0x24, 8 => some (.vshl f)
  | 0x24, 9 => some (.vshr f)
  | 0x24, 10 => some (.vshra f)
  | 0x25, 0 => some (.vcmp f)
  | 0x25, 1 => some (.vfcmp f)
  | 0x25, 2 => some (.vsel f)
  | 0x26, 0 => some (.vcvt f)
  | 0x26, 1 => some (.vrncvt f)
  | 0x26, 2 => some (.vrnadd f)
  | 0x26, 3 => some (.vrnmul f)
  | 0x27, 0 => some (.vred f)
  | 0x27, 1 => some (.vscan f)
  | 0x27, 2 => some (.vsegsum f)
  | 0x27, 3 => some (.vsegscan f)
  | 0x28, 0 => some (.vperm f)
  | 0x28, 1 => some (.vbcast f)
  | 0x28, 2 => some (.vslide f)
  | 0x28, 3 => some (.vcomp f)
  | 0x28, 4 => some (.vexpd f)
  | 0x28, 5 => some (.vsort f)
  | 0x28, 6 => some (.viota f)
  | 0x28, 7 => some (.vpopc f)
  | 0x28, 8 => some (.vmovg f)
  | 0x28, 9 => some (.vmovv f)
  | 0x29, 0 => some (.vld f)
  | 0x29, 1 => some (.vst f)
  | 0x29, 2 => some (.vldx f)
  | 0x29, 3 => some (.vstx f)
  | 0x29, 4 => some (.vlds f)
  | 0x29, 5 => some (.vsts f)
  | 0x2A, 0 => some (.mma f)
  | 0x2A, 1 => some (.mmas f)
  | 0x2A, 2 => some (.mmar f)
  | 0x2A, 3 => some (.mzero f)
  | 0x2A, 4 => some (.mrd f)
  | 0x2A, 5 => some (.mwr f)
  | 0x2A, 6 => some (.mrqt f)
  | 0x2B, 0 => some (if f.len = 0#2 then .mwait f.base else .mwaitExt f)
  | 0x2B, 1 => some (if f.len = 0#2 then .mqstat f.base else .mqstatExt f)
  | 0x30, 0 => some (.send f)
  | 0x30, 1 => some (.sendv f)
  | 0x30, 2 => some (if f.len = 0#2 then .pcount f.base else .pcountExt f)
  | 0x30, 3 => some (.launch f)
  | 0x30, 4 => some (.spawn f)
  | 0x30, 5 => some (.joinc f)
  | 0x30, 6 => some (.evset f)
  | 0x30, 7 => some (.evclr f)
  | 0x30, 8 => some (if f.len = 0#2 then .evtest f.base else .evtestExt f)
  | 0x31, 0 => some (.jtload f)
  | 0x31, 1 => some (.jtchk f)
  | 0x31, 2 => some (.jkey f)
  | 0x31, 3 => some (.jseg f)
  | 0x31, 4 => some (.jup f)
  | 0x31, 5 => some (.jdown f)
  | 0x31, 6 => some (.jinter f)
  | 0x31, 7 => some (.jdelta f)
  | 0x31, 8 => some (.jheavy f)
  | 0x32, 0 => some (.rcall f)
  | 0x32, 1 => some (.rcalln f)
  | 0x32, 2 => some (.rreply f)
  | 0x32, 3 => some (.rfwd f)
  | 0x32, 4 => some (if f.len = 0#2 then .rfence f.base else .rfenceExt f)
  | 0x32, 5 => some (if f.len = 0#2 then .rcstat f.base else .rcstatExt f)
  | 0x33, 0 => some (.nmcfg f)
  | 0x33, 1 => some (.nmrun f)
  | 0x33, 2 => some (if f.len = 0#2 then .nmwait f.base else .nmwaitExt f)
  | 0x33, 3 => some (.mbpost f)
  | 0x33, 4 => some (if f.len = 0#2 then .mbwait f.base else .mbwaitExt f)
  | 0x34, 0 => some (.rlbegin f)
  | 0x34, 1 => some (.rsv f)
  | 0x34, 2 => some (.rchk f)
  | 0x34, 3 => some (.rlfail f)
  | 0x34, 4 => some (if f.len = 0#2 then .rlend f.base else .rlendExt f)
  | 0x34, 5 => some (if f.len = 0#2 then .rlstat f.base else .rlstatExt f)
  | _, _ => none

/-- OP 0x00 and the reserved groups (02 R68 to R70). -/
def reservedOp (op : Nat) : Bool :=
  op == 0 || (decide (0x1B ≤ op) && decide (op ≤ 0x1F)) || (decide (0x2C ≤ op) && decide (op ≤ 0x2F)) || decide (0x35 ≤ op)

/-! ## Decoding -/

/-- Checks 1 to 3 on a base word: its form, or the check that fails.  DEDUCED: notes/assumptions/8.md. -/
def decodeHead (w : Word) : Except Nat Form :=
  let op := (w.extractLsb' 2 6).toNat
  let fn := w.extractLsb' 28 4
  let len := w.extractLsb' 0 2
  if reservedOp op then .error 1
  else
    match (formsOf op).filter (fun r => r.fn == fn) with
    | [] => .error 2
    | rs =>
      match rs.find? (fun r => r.lens.contains len) with
      | some r => .ok r
      | none => .error 3

/-- The fields of an instruction whose words are given; words that LEN does not call for are not looked at (02 R51 to
R54). -/
def fieldsOf (w0 w1 w2 w3 w4 : Word) : Ext :=
  let len := w0.extractLsb' 0 2
  let x := if len.getLsbD 1 then w1 else 0#32
  { len := len
    tb := w0.getLsbD 27
    ta := w0.getLsbD 26
    b := w0.extractLsb' 20 6
    a := w0.extractLsb' 14 6
    d := w0.extractLsb' 8 6
    sub := x.extractLsb' 24 8
    ord := x.extractLsb' 21 3
    scope := x.extractLsb' 18 3
    pneg := x.getLsbD 17
    pred := x.extractLsb' 14 3
    fmt := x.extractLsb' 10 4
    rm := x.extractLsb' 7 3
    tc := x.getLsbD 6
    c := x.extractLsb' 0 6
    imm := if len.getLsbD 1 then w2 else 0#32
    lit := if len.toNat = 1 then w2 ++ w1 else if len.toNat = 3 then w4 ++ w3 else 0#64 }

/-- Decode five words, of which LEN says how many belong to the instruction.  The error is the first check that fails
(02 R72).  `lupin` is the kind of core, which narrows the ranges of 06 R177.  DEDUCED: notes/assumptions/8.md. -/
noncomputable def decodeWords (lupin : Bool) (w0 w1 w2 w3 w4 : Word) : Except Nat Instr :=
  match decodeHead w0 with
  | .error n => .error n
  | .ok r =>
    match r.firstFailure lupin (fieldsOf w0 w1 w2 w3 w4) with
    | some n => .error n
    | none =>
      match makeInstr (w0.extractLsb' 2 6).toNat (w0.extractLsb' 28 4) (fieldsOf w0 w1 w2 w3 w4) with
      | some i => .ok i
      | none => .error 2

/-- Why bytes are not an instruction. -/
inductive Reject where
  | truncated
  | check (n : Nat) (word : Word)
  deriving DecidableEq, Repr

/-- The little-endian word at the head of a byte list (00 R9). -/
def takeWord (bs : List Byte) : Option (Word × List Byte) :=
  match bs with
  | b0 :: b1 :: b2 :: b3 :: rest => some (b3 ++ b2 ++ b1 ++ b0, rest)
  | _ => none

/-- Decode the instruction at the head of a byte list, and give the bytes after it. -/
noncomputable def decode (lupin : Bool) (bs : List Byte) : Except Reject (Instr × List Byte) :=
  match takeWord bs with
  | none => .error .truncated
  | some (w0, r0) =>
    match decodeHead w0 with
    | .error n => .error (.check n w0)
    | .ok _ =>
      match lenWords (w0.extractLsb' 0 2) with
      | 1 =>
        match decodeWords lupin w0 0#32 0#32 0#32 0#32 with
        | .ok i => .ok (i, r0)
        | .error n => .error (.check n w0)
      | 3 =>
        match takeWord r0 with
        | none => .error .truncated
        | some (w1, r1) =>
          match takeWord r1 with
          | none => .error .truncated
          | some (w2, r2) =>
            match decodeWords lupin w0 w1 w2 0#32 0#32 with
            | .ok i => .ok (i, r2)
            | .error n => .error (.check n w0)
      | _ =>
        match takeWord r0 with
        | none => .error .truncated
        | some (w1, r1) =>
          match takeWord r1 with
          | none => .error .truncated
          | some (w2, r2) =>
            match takeWord r2 with
            | none => .error .truncated
            | some (w3, r3) =>
              match takeWord r3 with
              | none => .error .truncated
              | some (w4, r4) =>
                match decodeWords lupin w0 w1 w2 w3 w4 with
                | .ok i => .ok (i, r4)
                | .error n => .error (.check n w0)

/-- The four bytes of a word in address order. -/
def wordBytes (w : Word) : List Byte :=
  [w.extractLsb' 0 8, w.extractLsb' 8 8, w.extractLsb' 16 8, w.extractLsb' 24 8]

/-- The five words of the instruction whose bits are `w`, bit 0 the least significant of the first word, with every bit
above `nbits` zero. -/
def tableWords (nbits w : Nat) : List Word :=
  let x := w % 2 ^ nbits
  [BitVec.ofNat 32 x, BitVec.ofNat 32 (x / 2 ^ 32), BitVec.ofNat 32 (x / 2 ^ 64), BitVec.ofNat 32 (x / 2 ^ 96),
    BitVec.ofNat 32 (x / 2 ^ 128)]

/-- The instruction the decoder reads from table bits, on a cluster core. -/
noncomputable def decodeTableWord (nbits w : Nat) : Option Instr :=
  match decode false ((tableWords nbits w).flatMap wordBytes) with
  | .ok (i, _) => some i
  | .error _ => none

/-! ## Encoding -/

/-- The rows of more than one word: LEN 00 is another row's (02 R51). -/
def Instr.isLong (i : Instr) : Bool :=
  match i with
  | .addExt _ | .subExt _ | .mulExt _ | .mulhExt _ | .mulhnExt _ | .divExt _ | .divnExt _ | .remExt _ | .remnExt _
  | .andExt _ | .orExt _ | .xorExt _ | .andnExt _ | .shlExt _ | .shrExt _ | .shraExt _ | .rotlExt _ | .rotrExt _
  | .minExt _ | .maxExt _ | .minnExt _ | .maxnExt _ | .addiExt _ | .shlI6Ext _ | .shrI6Ext _ | .shraI6Ext _
  | .rotlI6Ext _ | .rotrI6Ext _ | .clzExt _ | .ctzExt _ | .popcExt _ | .brevExt _ | .bswapExt _ | .sextExt _
  | .zextExt _ | .bfx _ | .bfi _ | .sel _ | .movExt _ | .liExt _ | .cmpEqExt _ | .cmpNeExt _ | .cmpLtExt _
  | .cmpLeExt _ | .cmpGtExt _ | .cmpGeExt _ | .cmpLtnExt _ | .cmpLenExt _ | .cmpGtnExt _ | .cmpGenExt _
  | .caddExt _ | .csetaExt _ | .cboundExt _ | .cboundxExt _ | .candpExt _ | .csealExt _ | .cunsealExt _
  | .cgetExt _ | .cclearExt _ | .ctestExt _ | .csubExt _ | .pandExt _ | .porExt _ | .pxorExt _ | .pnotExt _
  | .pmovExt _ | .psetExt _ | .pgetExt _ | .fadd _ | .fsub _ | .fmul _ | .ffma _ | .fdiv _ | .fsqrt _ | .fmin _
  | .fmax _ | .fcmp _ | .fcvt _ | .fclass _ | .br _ | .brp _ | .call _ | .retExt _ | .jmpcExt _ | .loop _
  | .etrapExt _ | .mfsExt _ | .mtsExt _ | .femptyGExt _ | .femptyVExt _ | .ftestGExt _ | .ftestVExt _ | .ldI8Ext _
  | .ldN8Ext _ | .ldI16Ext _ | .ldN16Ext _ | .ldI32Ext _ | .ldN32Ext _ | .ld64Ext _ | .ldcExt _ | .lda32Ext _
  | .lda64Ext _ | .st8Ext _ | .st16Ext _ | .st32Ext _ | .st64Ext _ | .stcExt _ | .stl32Ext _ | .stl64Ext _
  | .ldfExt _ | .ldfkExt _ | .steExt _ | .stfxExt _ | .feqExt _ | .sloadExt _ | .sldGExt _ | .sldVExt _
  | .sstGExt _ | .sstVExt _ | .stashExt _ | .unstashExt _ | .stashwbExt _ | .prefExt _ | .clzeroExt _ | .clwbExt _
  | .clinvExt _ | .amo _ | .amocas _ | .amon _ | .amof _ | .amoq _ | .fence _ | .fencex _ | .binitExt _
  | .barrExt _ | .barrxExt _ | .bwaitExt _ | .btestExt _ | .bbytesExt _ | .xcopy _ | .xcopyt _ | .xwaitExt _
  | .xstatExt _ | .xcancelExt _ | .xgath _ | .stbm _ | .ldbm _ | .handoverExt _ | .ownqExt _ | .vadd _ | .vsub _
  | .vmul _ | .vfma _ | .vfms _ | .vfnma _ | .vdiv _ | .vsqrt _ | .vmin _ | .vmax _ | .vabs _ | .vneg _ | .vrcp _
  | .vrsq _ | .vexp2 _ | .vlog2 _ | .vsigm _ | .vtanh _ | .viadd _ | .visub _ | .vimul _ | .vimin _ | .vimax _
  | .vand _ | .vor _ | .vxor _ | .vshl _ | .vshr _ | .vshra _ | .vcmp _ | .vfcmp _ | .vsel _ | .vcvt _ | .vrncvt _
  | .vrnadd _ | .vrnmul _ | .vred _ | .vscan _ | .vsegsum _ | .vsegscan _ | .vperm _ | .vbcast _ | .vslide _
  | .vcomp _ | .vexpd _ | .vsort _ | .viota _ | .vpopc _ | .vmovg _ | .vmovv _ | .vld _ | .vst _ | .vldx _
  | .vstx _ | .vlds _ | .vsts _ | .mma _ | .mmas _ | .mmar _ | .mzero _ | .mrd _ | .mwr _ | .mrqt _ | .mwaitExt _
  | .mqstatExt _ | .send _ | .sendv _ | .pcountExt _ | .launch _ | .spawn _ | .joinc _ | .evset _ | .evclr _
  | .evtestExt _ | .jtload _ | .jtchk _ | .jkey _ | .jseg _ | .jheavy _ | .jup _ | .jdown _ | .jinter _
  | .jdelta _ | .rcall _ | .rcalln _ | .rreply _ | .rfwd _ | .rfenceExt _ | .rcstatExt _ | .nmcfg _ | .nmrun _
  | .nmwaitExt _ | .mbpost _ | .mbwaitExt _ | .rlbegin _ | .rsv _ | .rchk _ | .rlfail _ | .rlendExt _
  | .rlstatExt _ => true
  | _ => false

/-- Major opcode, function and fields of an instruction; none for commands and events, which have no words. -/
def Instr.fields (i : Instr) : Option (BitVec 6 × BitVec 4 × Ext) :=
  match i with
  | .add f => some (0x01#6, 0x0#4, f.ext)
  | .addExt f => some (0x01#6, 0x0#4, f)
  | .sub f => some (0x01#6, 0x1#4, f.ext)
  | .subExt f => some (0x01#6, 0x1#4, f)
  | .mul f => some (0x01#6, 0x2#4, f.ext)
  | .mulExt f => some (0x01#6, 0x2#4, f)
  | .mulh f => some (0x01#6, 0x3#4, f.ext)
  | .mulhExt f => some (0x01#6, 0x3#4, f)
  | .mulhn f => some (0x01#6, 0x4#4, f.ext)
  | .mulhnExt f => some (0x01#6, 0x4#4, f)
  | .div f => some (0x01#6, 0x5#4, f.ext)
  | .divExt f => some (0x01#6, 0x5#4, f)
  | .divn f => some (0x01#6, 0x6#4, f.ext)
  | .divnExt f => some (0x01#6, 0x6#4, f)
  | .rem f => some (0x01#6, 0x7#4, f.ext)
  | .remExt f => some (0x01#6, 0x7#4, f)
  | .remn f => some (0x01#6, 0x8#4, f.ext)
  | .remnExt f => some (0x01#6, 0x8#4, f)
  | .and f => some (0x01#6, 0x9#4, f.ext)
  | .andExt f => some (0x01#6, 0x9#4, f)
  | .or f => some (0x01#6, 0xA#4, f.ext)
  | .orExt f => some (0x01#6, 0xA#4, f)
  | .xor f => some (0x01#6, 0xB#4, f.ext)
  | .xorExt f => some (0x01#6, 0xB#4, f)
  | .andn f => some (0x01#6, 0xC#4, f.ext)
  | .andnExt f => some (0x01#6, 0xC#4, f)
  | .shl f => some (0x01#6, 0xD#4, f.ext)
  | .shlExt f => some (0x01#6, 0xD#4, f)
  | .shr f => some (0x01#6, 0xE#4, f.ext)
  | .shrExt f => some (0x01#6, 0xE#4, f)
  | .shra f => some (0x01#6, 0xF#4, f.ext)
  | .shraExt f => some (0x01#6, 0xF#4, f)
  | .rotl f => some (0x02#6, 0x0#4, f.ext)
  | .rotlExt f => some (0x02#6, 0x0#4, f)
  | .rotr f => some (0x02#6, 0x1#4, f.ext)
  | .rotrExt f => some (0x02#6, 0x1#4, f)
  | .min f => some (0x02#6, 0x2#4, f.ext)
  | .minExt f => some (0x02#6, 0x2#4, f)
  | .max f => some (0x02#6, 0x3#4, f.ext)
  | .maxExt f => some (0x02#6, 0x3#4, f)
  | .minn f => some (0x02#6, 0x4#4, f.ext)
  | .minnExt f => some (0x02#6, 0x4#4, f)
  | .maxn f => some (0x02#6, 0x5#4, f.ext)
  | .maxnExt f => some (0x02#6, 0x5#4, f)
  | .addi f => some (0x02#6, 0x8#4, f.ext)
  | .addiExt f => some (0x02#6, 0x8#4, f)
  | .shlI6 f => some (0x02#6, 0x9#4, f.ext)
  | .shlI6Ext f => some (0x02#6, 0x9#4, f)
  | .shrI6 f => some (0x02#6, 0xA#4, f.ext)
  | .shrI6Ext f => some (0x02#6, 0xA#4, f)
  | .shraI6 f => some (0x02#6, 0xB#4, f.ext)
  | .shraI6Ext f => some (0x02#6, 0xB#4, f)
  | .rotlI6 f => some (0x02#6, 0xC#4, f.ext)
  | .rotlI6Ext f => some (0x02#6, 0xC#4, f)
  | .rotrI6 f => some (0x02#6, 0xD#4, f.ext)
  | .rotrI6Ext f => some (0x02#6, 0xD#4, f)
  | .clz f => some (0x03#6, 0x0#4, f.ext)
  | .clzExt f => some (0x03#6, 0x0#4, f)
  | .ctz f => some (0x03#6, 0x1#4, f.ext)
  | .ctzExt f => some (0x03#6, 0x1#4, f)
  | .popc f => some (0x03#6, 0x2#4, f.ext)
  | .popcExt f => some (0x03#6, 0x2#4, f)
  | .brev f => some (0x03#6, 0x3#4, f.ext)
  | .brevExt f => some (0x03#6, 0x3#4, f)
  | .bswap f => some (0x03#6, 0x4#4, f.ext)
  | .bswapExt f => some (0x03#6, 0x4#4, f)
  | .sext f => some (0x03#6, 0x5#4, f.ext)
  | .sextExt f => some (0x03#6, 0x5#4, f)
  | .zext f => some (0x03#6, 0x6#4, f.ext)
  | .zextExt f => some (0x03#6, 0x6#4, f)
  | .bfx f => some (0x03#6, 0x7#4, f)
  | .bfi f => some (0x03#6, 0x8#4, f)
  | .sel f => some (0x03#6, 0x9#4, f)
  | .mov f => some (0x04#6, 0x0#4, f.ext)
  | .movExt f => some (0x04#6, 0x0#4, f)
  | .li f => some (0x04#6, 0x1#4, f.ext)
  | .liExt f => some (0x04#6, 0x1#4, f)
  | .cmpEq f => some (0x05#6, 0x0#4, f.ext)
  | .cmpEqExt f => some (0x05#6, 0x0#4, f)
  | .cmpNe f => some (0x05#6, 0x1#4, f.ext)
  | .cmpNeExt f => some (0x05#6, 0x1#4, f)
  | .cmpLt f => some (0x05#6, 0x2#4, f.ext)
  | .cmpLtExt f => some (0x05#6, 0x2#4, f)
  | .cmpLe f => some (0x05#6, 0x3#4, f.ext)
  | .cmpLeExt f => some (0x05#6, 0x3#4, f)
  | .cmpGt f => some (0x05#6, 0x4#4, f.ext)
  | .cmpGtExt f => some (0x05#6, 0x4#4, f)
  | .cmpGe f => some (0x05#6, 0x5#4, f.ext)
  | .cmpGeExt f => some (0x05#6, 0x5#4, f)
  | .cmpLtn f => some (0x05#6, 0x6#4, f.ext)
  | .cmpLtnExt f => some (0x05#6, 0x6#4, f)
  | .cmpLen f => some (0x05#6, 0x7#4, f.ext)
  | .cmpLenExt f => some (0x05#6, 0x7#4, f)
  | .cmpGtn f => some (0x05#6, 0x8#4, f.ext)
  | .cmpGtnExt f => some (0x05#6, 0x8#4, f)
  | .cmpGen f => some (0x05#6, 0x9#4, f.ext)
  | .cmpGenExt f => some (0x05#6, 0x9#4, f)
  | .cadd f => some (0x08#6, 0x0#4, f.ext)
  | .caddExt f => some (0x08#6, 0x0#4, f)
  | .cseta f => some (0x08#6, 0x1#4, f.ext)
  | .csetaExt f => some (0x08#6, 0x1#4, f)
  | .cbound f => some (0x08#6, 0x2#4, f.ext)
  | .cboundExt f => some (0x08#6, 0x2#4, f)
  | .cboundx f => some (0x08#6, 0x3#4, f.ext)
  | .cboundxExt f => some (0x08#6, 0x3#4, f)
  | .candp f => some (0x08#6, 0x4#4, f.ext)
  | .candpExt f => some (0x08#6, 0x4#4, f)
  | .cseal f => some (0x08#6, 0x5#4, f.ext)
  | .csealExt f => some (0x08#6, 0x5#4, f)
  | .cunseal f => some (0x08#6, 0x6#4, f.ext)
  | .cunsealExt f => some (0x08#6, 0x6#4, f)
  | .cget f => some (0x08#6, 0x7#4, f.ext)
  | .cgetExt f => some (0x08#6, 0x7#4, f)
  | .cclear f => some (0x08#6, 0x8#4, f.ext)
  | .cclearExt f => some (0x08#6, 0x8#4, f)
  | .ctest f => some (0x08#6, 0x9#4, f.ext)
  | .ctestExt f => some (0x08#6, 0x9#4, f)
  | .csub f => some (0x08#6, 0xA#4, f.ext)
  | .csubExt f => some (0x08#6, 0xA#4, f)
  | .pand f => some (0x0B#6, 0x0#4, f.ext)
  | .pandExt f => some (0x0B#6, 0x0#4, f)
  | .por f => some (0x0B#6, 0x1#4, f.ext)
  | .porExt f => some (0x0B#6, 0x1#4, f)
  | .pxor f => some (0x0B#6, 0x2#4, f.ext)
  | .pxorExt f => some (0x0B#6, 0x2#4, f)
  | .pnot f => some (0x0B#6, 0x3#4, f.ext)
  | .pnotExt f => some (0x0B#6, 0x3#4, f)
  | .pmov f => some (0x0B#6, 0x4#4, f.ext)
  | .pmovExt f => some (0x0B#6, 0x4#4, f)
  | .pset f => some (0x0B#6, 0x5#4, f.ext)
  | .psetExt f => some (0x0B#6, 0x5#4, f)
  | .pget f => some (0x0B#6, 0x6#4, f.ext)
  | .pgetExt f => some (0x0B#6, 0x6#4, f)
  | .fadd f => some (0x0C#6, 0x0#4, f)
  | .fsub f => some (0x0C#6, 0x1#4, f)
  | .fmul f => some (0x0C#6, 0x2#4, f)
  | .ffma f => some (0x0C#6, 0x3#4, f)
  | .fdiv f => some (0x0C#6, 0x4#4, f)
  | .fsqrt f => some (0x0C#6, 0x5#4, f)
  | .fmin f => some (0x0C#6, 0x6#4, f)
  | .fmax f => some (0x0C#6, 0x7#4, f)
  | .fcmp f => some (0x0C#6, 0x8#4, f)
  | .fcvt f => some (0x0C#6, 0x9#4, f)
  | .fclass f => some (0x0C#6, 0xA#4, f)
  | .br f => some (0x0E#6, 0x0#4, f)
  | .brp f => some (0x0E#6, 0x1#4, f)
  | .call f => some (0x0E#6, 0x2#4, f)
  | .ret f => some (0x0E#6, 0x3#4, f.ext)
  | .retExt f => some (0x0E#6, 0x3#4, f)
  | .jmpc f => some (0x0E#6, 0x4#4, f.ext)
  | .jmpcExt f => some (0x0E#6, 0x4#4, f)
  | .loop f => some (0x0E#6, 0x5#4, f)
  | .endFiring f => some (0x0E#6, 0x6#4, f.ext)
  | .nop f => some (0x0E#6, 0x7#4, f.ext)
  | .etrap f => some (0x0E#6, 0x8#4, f.ext)
  | .etrapExt f => some (0x0E#6, 0x8#4, f)
  | .eret f => some (0x0E#6, 0x9#4, f.ext)
  | .mfs f => some (0x0F#6, 0x0#4, f.ext)
  | .mfsExt f => some (0x0F#6, 0x0#4, f)
  | .mts f => some (0x0F#6, 0x1#4, f.ext)
  | .mtsExt f => some (0x0F#6, 0x1#4, f)
  | .femptyG f => some (0x0F#6, 0x2#4, f.ext)
  | .femptyGExt f => some (0x0F#6, 0x2#4, f)
  | .femptyV f => some (0x0F#6, 0x3#4, f.ext)
  | .femptyVExt f => some (0x0F#6, 0x3#4, f)
  | .ftestG f => some (0x0F#6, 0x4#4, f.ext)
  | .ftestGExt f => some (0x0F#6, 0x4#4, f)
  | .ftestV f => some (0x0F#6, 0x5#4, f.ext)
  | .ftestVExt f => some (0x0F#6, 0x5#4, f)
  | .ldI8 f => some (0x10#6, 0x0#4, f.ext)
  | .ldI8Ext f => some (0x10#6, 0x0#4, f)
  | .ldN8 f => some (0x10#6, 0x1#4, f.ext)
  | .ldN8Ext f => some (0x10#6, 0x1#4, f)
  | .ldI16 f => some (0x10#6, 0x2#4, f.ext)
  | .ldI16Ext f => some (0x10#6, 0x2#4, f)
  | .ldN16 f => some (0x10#6, 0x3#4, f.ext)
  | .ldN16Ext f => some (0x10#6, 0x3#4, f)
  | .ldI32 f => some (0x10#6, 0x4#4, f.ext)
  | .ldI32Ext f => some (0x10#6, 0x4#4, f)
  | .ldN32 f => some (0x10#6, 0x5#4, f.ext)
  | .ldN32Ext f => some (0x10#6, 0x5#4, f)
  | .ld64 f => some (0x10#6, 0x6#4, f.ext)
  | .ld64Ext f => some (0x10#6, 0x6#4, f)
  | .ldc f => some (0x10#6, 0x7#4, f.ext)
  | .ldcExt f => some (0x10#6, 0x7#4, f)
  | .lda32 f => some (0x10#6, 0x8#4, f.ext)
  | .lda32Ext f => some (0x10#6, 0x8#4, f)
  | .lda64 f => some (0x10#6, 0x9#4, f.ext)
  | .lda64Ext f => some (0x10#6, 0x9#4, f)
  | .st8 f => some (0x11#6, 0x0#4, f.ext)
  | .st8Ext f => some (0x11#6, 0x0#4, f)
  | .st16 f => some (0x11#6, 0x1#4, f.ext)
  | .st16Ext f => some (0x11#6, 0x1#4, f)
  | .st32 f => some (0x11#6, 0x2#4, f.ext)
  | .st32Ext f => some (0x11#6, 0x2#4, f)
  | .st64 f => some (0x11#6, 0x3#4, f.ext)
  | .st64Ext f => some (0x11#6, 0x3#4, f)
  | .stc f => some (0x11#6, 0x4#4, f.ext)
  | .stcExt f => some (0x11#6, 0x4#4, f)
  | .stl32 f => some (0x11#6, 0x5#4, f.ext)
  | .stl32Ext f => some (0x11#6, 0x5#4, f)
  | .stl64 f => some (0x11#6, 0x6#4, f.ext)
  | .stl64Ext f => some (0x11#6, 0x6#4, f)
  | .ldf f => some (0x12#6, 0x0#4, f.ext)
  | .ldfExt f => some (0x12#6, 0x0#4, f)
  | .ldfk f => some (0x12#6, 0x1#4, f.ext)
  | .ldfkExt f => some (0x12#6, 0x1#4, f)
  | .ste f => some (0x12#6, 0x2#4, f.ext)
  | .steExt f => some (0x12#6, 0x2#4, f)
  | .stfx f => some (0x12#6, 0x3#4, f.ext)
  | .stfxExt f => some (0x12#6, 0x3#4, f)
  | .feq f => some (0x12#6, 0x4#4, f.ext)
  | .feqExt f => some (0x12#6, 0x4#4, f)
  | .sload f => some (0x14#6, 0x0#4, f.ext)
  | .sloadExt f => some (0x14#6, 0x0#4, f)
  | .sldG f => some (0x14#6, 0x1#4, f.ext)
  | .sldGExt f => some (0x14#6, 0x1#4, f)
  | .sldV f => some (0x14#6, 0x2#4, f.ext)
  | .sldVExt f => some (0x14#6, 0x2#4, f)
  | .sstG f => some (0x14#6, 0x3#4, f.ext)
  | .sstGExt f => some (0x14#6, 0x3#4, f)
  | .sstV f => some (0x14#6, 0x4#4, f.ext)
  | .sstVExt f => some (0x14#6, 0x4#4, f)
  | .stash f => some (0x15#6, 0x0#4, f.ext)
  | .stashExt f => some (0x15#6, 0x0#4, f)
  | .unstash f => some (0x15#6, 0x1#4, f.ext)
  | .unstashExt f => some (0x15#6, 0x1#4, f)
  | .stashwb f => some (0x15#6, 0x2#4, f.ext)
  | .stashwbExt f => some (0x15#6, 0x2#4, f)
  | .pref f => some (0x15#6, 0x3#4, f.ext)
  | .prefExt f => some (0x15#6, 0x3#4, f)
  | .clzero f => some (0x15#6, 0x4#4, f.ext)
  | .clzeroExt f => some (0x15#6, 0x4#4, f)
  | .clwb f => some (0x15#6, 0x5#4, f.ext)
  | .clwbExt f => some (0x15#6, 0x5#4, f)
  | .clinv f => some (0x15#6, 0x6#4, f.ext)
  | .clinvExt f => some (0x15#6, 0x6#4, f)
  | .amo f => some (0x16#6, 0x0#4, f)
  | .amocas f => some (0x16#6, 0x1#4, f)
  | .amon f => some (0x16#6, 0x2#4, f)
  | .amof f => some (0x16#6, 0x3#4, f)
  | .amoq f => some (0x16#6, 0x4#4, f)
  | .fence f => some (0x17#6, 0x0#4, f)
  | .fencex f => some (0x17#6, 0x1#4, f)
  | .binit f => some (0x18#6, 0x0#4, f.ext)
  | .binitExt f => some (0x18#6, 0x0#4, f)
  | .barr f => some (0x18#6, 0x1#4, f.ext)
  | .barrExt f => some (0x18#6, 0x1#4, f)
  | .barrx f => some (0x18#6, 0x2#4, f.ext)
  | .barrxExt f => some (0x18#6, 0x2#4, f)
  | .bwait f => some (0x18#6, 0x3#4, f.ext)
  | .bwaitExt f => some (0x18#6, 0x3#4, f)
  | .btest f => some (0x18#6, 0x4#4, f.ext)
  | .btestExt f => some (0x18#6, 0x4#4, f)
  | .bbytes f => some (0x18#6, 0x5#4, f.ext)
  | .bbytesExt f => some (0x18#6, 0x5#4, f)
  | .xcopy f => some (0x19#6, 0x0#4, f)
  | .xcopyt f => some (0x19#6, 0x1#4, f)
  | .xwait f => some (0x19#6, 0x2#4, f.ext)
  | .xwaitExt f => some (0x19#6, 0x2#4, f)
  | .xstat f => some (0x19#6, 0x3#4, f.ext)
  | .xstatExt f => some (0x19#6, 0x3#4, f)
  | .xcancel f => some (0x19#6, 0x4#4, f.ext)
  | .xcancelExt f => some (0x19#6, 0x4#4, f)
  | .xgath f => some (0x19#6, 0x5#4, f)
  | .stbm f => some (0x1A#6, 0x0#4, f)
  | .ldbm f => some (0x1A#6, 0x1#4, f)
  | .handover f => some (0x1A#6, 0x2#4, f.ext)
  | .handoverExt f => some (0x1A#6, 0x2#4, f)
  | .ownq f => some (0x1A#6, 0x3#4, f.ext)
  | .ownqExt f => some (0x1A#6, 0x3#4, f)
  | .vadd f => some (0x20#6, 0x0#4, f)
  | .vsub f => some (0x20#6, 0x1#4, f)
  | .vmul f => some (0x20#6, 0x2#4, f)
  | .vfma f => some (0x20#6, 0x3#4, f)
  | .vfms f => some (0x20#6, 0x4#4, f)
  | .vfnma f => some (0x20#6, 0x5#4, f)
  | .vdiv f => some (0x20#6, 0x6#4, f)
  | .vsqrt f => some (0x20#6, 0x7#4, f)
  | .vmin f => some (0x20#6, 0x8#4, f)
  | .vmax f => some (0x20#6, 0x9#4, f)
  | .vabs f => some (0x20#6, 0xA#4, f)
  | .vneg f => some (0x20#6, 0xB#4, f)
  | .vrcp f => some (0x21#6, 0x0#4, f)
  | .vrsq f => some (0x21#6, 0x1#4, f)
  | .vexp2 f => some (0x21#6, 0x2#4, f)
  | .vlog2 f => some (0x21#6, 0x3#4, f)
  | .vsigm f => some (0x21#6, 0x4#4, f)
  | .vtanh f => some (0x21#6, 0x5#4, f)
  | .viadd f => some (0x24#6, 0x0#4, f)
  | .visub f => some (0x24#6, 0x1#4, f)
  | .vimul f => some (0x24#6, 0x2#4, f)
  | .vimin f => some (0x24#6, 0x3#4, f)
  | .vimax f => some (0x24#6, 0x4#4, f)
  | .vand f => some (0x24#6, 0x5#4, f)
  | .vor f => some (0x24#6, 0x6#4, f)
  | .vxor f => some (0x24#6, 0x7#4, f)
  | .vshl f => some (0x24#6, 0x8#4, f)
  | .vshr f => some (0x24#6, 0x9#4, f)
  | .vshra f => some (0x24#6, 0xA#4, f)
  | .vcmp f => some (0x25#6, 0x0#4, f)
  | .vfcmp f => some (0x25#6, 0x1#4, f)
  | .vsel f => some (0x25#6, 0x2#4, f)
  | .vcvt f => some (0x26#6, 0x0#4, f)
  | .vrncvt f => some (0x26#6, 0x1#4, f)
  | .vrnadd f => some (0x26#6, 0x2#4, f)
  | .vrnmul f => some (0x26#6, 0x3#4, f)
  | .vred f => some (0x27#6, 0x0#4, f)
  | .vscan f => some (0x27#6, 0x1#4, f)
  | .vsegsum f => some (0x27#6, 0x2#4, f)
  | .vsegscan f => some (0x27#6, 0x3#4, f)
  | .vperm f => some (0x28#6, 0x0#4, f)
  | .vbcast f => some (0x28#6, 0x1#4, f)
  | .vslide f => some (0x28#6, 0x2#4, f)
  | .vcomp f => some (0x28#6, 0x3#4, f)
  | .vexpd f => some (0x28#6, 0x4#4, f)
  | .vsort f => some (0x28#6, 0x5#4, f)
  | .viota f => some (0x28#6, 0x6#4, f)
  | .vpopc f => some (0x28#6, 0x7#4, f)
  | .vmovg f => some (0x28#6, 0x8#4, f)
  | .vmovv f => some (0x28#6, 0x9#4, f)
  | .vld f => some (0x29#6, 0x0#4, f)
  | .vst f => some (0x29#6, 0x1#4, f)
  | .vldx f => some (0x29#6, 0x2#4, f)
  | .vstx f => some (0x29#6, 0x3#4, f)
  | .vlds f => some (0x29#6, 0x4#4, f)
  | .vsts f => some (0x29#6, 0x5#4, f)
  | .mma f => some (0x2A#6, 0x0#4, f)
  | .mmas f => some (0x2A#6, 0x1#4, f)
  | .mmar f => some (0x2A#6, 0x2#4, f)
  | .mzero f => some (0x2A#6, 0x3#4, f)
  | .mrd f => some (0x2A#6, 0x4#4, f)
  | .mwr f => some (0x2A#6, 0x5#4, f)
  | .mrqt f => some (0x2A#6, 0x6#4, f)
  | .mwait f => some (0x2B#6, 0x0#4, f.ext)
  | .mwaitExt f => some (0x2B#6, 0x0#4, f)
  | .mqstat f => some (0x2B#6, 0x1#4, f.ext)
  | .mqstatExt f => some (0x2B#6, 0x1#4, f)
  | .send f => some (0x30#6, 0x0#4, f)
  | .sendv f => some (0x30#6, 0x1#4, f)
  | .pcount f => some (0x30#6, 0x2#4, f.ext)
  | .pcountExt f => some (0x30#6, 0x2#4, f)
  | .launch f => some (0x30#6, 0x3#4, f)
  | .spawn f => some (0x30#6, 0x4#4, f)
  | .joinc f => some (0x30#6, 0x5#4, f)
  | .evset f => some (0x30#6, 0x6#4, f)
  | .evclr f => some (0x30#6, 0x7#4, f)
  | .evtest f => some (0x30#6, 0x8#4, f.ext)
  | .evtestExt f => some (0x30#6, 0x8#4, f)
  | .jtload f => some (0x31#6, 0x0#4, f)
  | .jtchk f => some (0x31#6, 0x1#4, f)
  | .jkey f => some (0x31#6, 0x2#4, f)
  | .jseg f => some (0x31#6, 0x3#4, f)
  | .jheavy f => some (0x31#6, 0x8#4, f)
  | .jup f => some (0x31#6, 0x4#4, f)
  | .jdown f => some (0x31#6, 0x5#4, f)
  | .jinter f => some (0x31#6, 0x6#4, f)
  | .jdelta f => some (0x31#6, 0x7#4, f)
  | .rcall f => some (0x32#6, 0x0#4, f)
  | .rcalln f => some (0x32#6, 0x1#4, f)
  | .rreply f => some (0x32#6, 0x2#4, f)
  | .rfwd f => some (0x32#6, 0x3#4, f)
  | .rfence f => some (0x32#6, 0x4#4, f.ext)
  | .rfenceExt f => some (0x32#6, 0x4#4, f)
  | .rcstat f => some (0x32#6, 0x5#4, f.ext)
  | .rcstatExt f => some (0x32#6, 0x5#4, f)
  | .nmcfg f => some (0x33#6, 0x0#4, f)
  | .nmrun f => some (0x33#6, 0x1#4, f)
  | .nmwait f => some (0x33#6, 0x2#4, f.ext)
  | .nmwaitExt f => some (0x33#6, 0x2#4, f)
  | .mbpost f => some (0x33#6, 0x3#4, f)
  | .mbwait f => some (0x33#6, 0x4#4, f.ext)
  | .mbwaitExt f => some (0x33#6, 0x4#4, f)
  | .rlbegin f => some (0x34#6, 0x0#4, f)
  | .rsv f => some (0x34#6, 0x1#4, f)
  | .rchk f => some (0x34#6, 0x2#4, f)
  | .rlfail f => some (0x34#6, 0x3#4, f)
  | .rlend f => some (0x34#6, 0x4#4, f.ext)
  | .rlendExt f => some (0x34#6, 0x4#4, f)
  | .rlstat f => some (0x34#6, 0x5#4, f.ext)
  | .rlstatExt f => some (0x34#6, 0x5#4, f)
  | .illegalEncoding _ _ => none
  | .openSession _ _ => none
  | .close _ => none
  | .keepalive _ => none
  | .ctxcreate _ _ => none
  | .ctxset _ _ => none
  | .kill _ => none
  | .killComplete _ => none
  | .mapwrite _ _ => none
  | .windowset _ _ => none
  | .amoqset _ _ => none
  | .epochreset _ => none
  | .event _ _ _ => none
  | .capwrite _ _ => none
  | .launchCommand _ _ => none
  | .preempt _ _ _ => none
  | .resume _ _ => none
  | .power _ _ => none
  | .capread _ => none
  | .crash _ => none
  | .warmreset _ _ => none
  | .warmResetComplete => none
  | .alerts _ _ => none
  | .attest _ _ => none
  | .firmware _ _ => none
  | .fabricmap _ _ => none
  | .minclear _ => none
  | .hostUetWrite _ _ _ => none
  | .hostUetRead _ _ _ => none
  | .stall _ => none
  | .heartbeat => none
  | .trip _ _ => none
  | .criticalTrip _ _ => none
  | .powerStateReached _ => none
  | .devfault _ _ => none
  | .lostReplyFill _ _ => none
  | .sessionLost => none
  | .orphanContextKill => none
  | .coldBoot => none
  | .bootTimeout => none
  | .linkStateChange _ _ => none
  | .uncorrectableError _ _ => none
  | .activationAlert _ _ => none
  | .throttleExpiry _ => none
  | .refreshDue _ _ _ => none
  | .refreshPostponeLimit _ _ => none
  | .watchdogWait _ => none
  | .watchdogRun _ => none
  | .park _ => none
  | .handlerRunLimit _ => none
  | .handlerWaitLimit _ => none
  | .remoteLoadTimeout _ => none
  | .remoteWriteAck _ _ _ => none
  | .callTimeout _ _ => none
  | .rudiReissue _ _ => none
  | .callArrival _ => none
  | .handlerStart _ => none
  | .replyArrival _ => none
  | .rcallnCompletion _ => none
  | .spillDuty _ => none
  | .loopbackRefill _ => none
  | .copyPacket _ _ _ _ => none
  | .copyPacketTimeout _ _ _ _ => none
  | .landingHandler _ => none
  | .matrixGrant _ _ => none
  | .pipelineStop _ => none
  | .elementArrival _ => none
  | .firingStart _ _ _ _ => none
  | .parkedRestore _ _ => none
  | .poolDispatch => none
  | .bandDispatch _ => none
  | .bandDrain _ => none
  | .bandExit _ => none
  | .bandSaved _ => none
  | .loopDispatch _ => none
  | .windowStart _ => none
  | .rsvPerform _ => none
  | .roundBarrier _ => none
  | .round2End _ => none
  | .amoqArrival _ => none
  | .directoryRecall _ _ => none
  | .dirtyLineEviction _ => none
  | .writeVisibility _ => none
  | .pageMigration _ _ _ => none
  | .leafChangeRelease _ => none
  | .transportError _ _ => none
  | .remoteAccessArrival _ => none
  | .correctedSoftError _ _ => none

/-- The base word (02 R52). -/
def baseWord (op : BitVec 6) (fn : BitVec 4) (f : Ext) : Word :=
  fn ++ BitVec.ofBool f.tb ++ BitVec.ofBool f.ta ++ f.b ++ f.a ++ f.d ++ op ++ f.len

/-- Extended word 1 (02 R53). -/
def extWord (f : Ext) : Word :=
  f.sub ++ f.ord ++ f.scope ++ BitVec.ofBool f.pneg ++ f.pred ++ f.fmt ++ f.rm ++ BitVec.ofBool f.tc ++ f.c

/-- The words of an instruction in address order (02 R51). -/
def encodeFields (op : BitVec 6) (fn : BitVec 4) (f : Ext) : List Word :=
  match f.len.toNat with
  | 0 => [baseWord op fn f]
  | 1 => [baseWord op fn f, f.lit.extractLsb' 0 32, f.lit.extractLsb' 32 32]
  | 2 => [baseWord op fn f, extWord f, f.imm]
  | _ => [baseWord op fn f, extWord f, f.imm, f.lit.extractLsb' 0 32, f.lit.extractLsb' 32 32]

/-- The words of an instruction; none for commands and events. -/
def encode (i : Instr) : List Word :=
  match i.fields with
  | some (op, fn, f) => encodeFields op fn f
  | none => []

/-- The bytes of an instruction. -/
def encodeBytes (i : Instr) : List Byte := (encode i).flatMap wordBytes

/-- Fields of words that LEN does not call for are zero. -/
def Ext.normal (f : Ext) : Bool :=
  (f.hasExt || (f.sub == 0#8 && f.ord == 0#3 && f.scope == 0#3 && !f.pneg && f.pred == 0#3 && f.fmt == 0#4 &&
    f.rm == 0#3 && !f.tc && f.c == 0#6 && f.imm == 0#32)) && (f.hasLit || f.lit == 0#64)

/-- The form of the opcode map that a length belongs to. -/
def formFor (op : BitVec 6) (fn : BitVec 4) (len : BitVec 2) : Option Form :=
  (formsOf op.toNat).find? (fun r => r.fn == fn && r.lens.contains len)

end Sys2Proof
end

