-- ==== Sys2Proof/Machine/State.lean ====
section
/-!
DEFINITION. Machine/State.lean: everything the spec gives the machine, as plain data, and the state after reset.
INVENTORY.md lists every field with the rule that names it.
-/

namespace Sys2Proof.Machine

/-! ## Registers of a thread -/

/-- The three states of a g or v register (01 R23), and that of one read back from a poisoned saved image (13 R362). -/
inductive RegState where
  | full | pending | empty | poisoned
  deriving DecidableEq, Repr

/-- The remote-fault mark of a g register, with word 0 of the record that filled it (07 R230). -/
inductive Mark where
  | clear
  | fault (word0 : DWord)
  | timeout (word0 : DWord)
  deriving DecidableEq, Repr

/-- One g register (01 R20, R23, 07 R230, R232). -/
structure GReg where
  val : QWord
  tag : Bool
  st : RegState
  mark : Mark
  /-- the vector clock of the reply that filled it (07 R232), or nothing -/
  reply : List Nat
  deriving DecidableEq, Repr

/-- One v register (01 R25, R26).  A Lupin core uses the low 256 bits (R50). -/
structure VReg where
  val : VWord
  st : RegState
  deriving DecidableEq, Repr

/-- A stream record as loaded (02 R65). -/
structure StreamRecord where
  start : DWord
  count0 : Word
  count1 : Word
  count2 : Word
  count3 : Word
  stride0 : Word
  stride1 : Word
  stride2 : Word
  stride3 : Word
  istride : Word
  ind : Bool
  islot : BitVec 3
  isize : BitVec 2
  write : Bool
  esize : BitVec 3
  deriving DecidableEq, Repr

/-- One stream slot (01 R31): its record and base capability, four counters, the index value of the nest in progress,
the number of elements visited, the indirect stream it serves (05 R146) and its binding to the pipeline (07 R234). -/
structure Slot where
  active : Bool
  record : StreamRecord
  base : QWord
  i0 : Nat
  i1 : Nat
  i2 : Nat
  i3 : Nat
  index : Option DWord
  visited : Nat
  servesSlot : Option (BitVec 3)
  pipeline : Bool
  deriving DecidableEq, Repr

/-- A call of the thread still outstanding (07 R226, 11 R321): `count` is the reply count, 0 for RCALLN. -/
structure OutCall where
  serial : Word
  /-- the hardware thread that issued and numbered it (11 R322) -/
  thread : Nat
  reg : Nat
  count : Nat
  device : Nat
  owner : Pos
  target : DWord
  handler : Nat
  idem : Bool
  payload : List TCap
  issued : Nat
  reissues : Nat
  /-- forwards taken, as far as this device has seen them (07 R229) -/
  hops : Nat
  deriving DecidableEq, Repr

/-- A posted store to another device (05 R142, R143). -/
structure RemoteStore where
  id : Nat
  address : DWord
  failed : Bool
  /-- an atomic that returns nothing: the thread's next access waits for it (05 R154) -/
  atomic : Bool
  /-- CYCLE at its issue (11 R321) -/
  issued : Nat
  deriving DecidableEq, Repr

/-- The writer that R169 checks: the gang of a band, or a loop (12 R340), or an agent of another device. -/
inductive Writer where
  | gang (band gang : Nat)
  | loop (loop : Nat)
  | foreign
  deriving DecidableEq, Repr

/-- The result of an atomic on its way to the register that waits for it (05 R154): one whose location lies on another device,
`away`, has its width in bytes and its sign, and its value comes with the answer. -/
structure InFlight where
  reg : Nat
  data : DWord
  away : Option (Nat × Bool)
  address : DWord
  /-- the atomic's own address -/
  pc : DWord
  /-- the state that the register had before (05 R154), and CYCLE at the atomic's issue (11 R321) -/
  was : RegState
  issued : Nat
  deriving DecidableEq, Repr

/-- A handler in progress on a service thread (07 R227 to R230, 11 R314, R317). -/
structure HandlerDuty where
  caller : FiringId
  callerDevice : Nat
  serial : Word
  thread : Nat
  reply : Bool
  count : Nat
  forwarded : Bool
  hops : Nat
  handler : Nat
  target : DWord
  executed : Nat
  writer : Writer
  deriving DecidableEq, Repr

/-- A landing handler in progress (05 R166): the transfer, its packet, and the destination bytes of g1. -/
structure LandingDuty where
  core : Pos
  channel : Nat
  id : Nat
  packet : Nat
  address : DWord
  size : Nat
  executed : Nat
  writer : Writer
  deriving DecidableEq, Repr

/-- A loop firing in progress (07 R237 to R239, 12 R327). -/
structure LoopDuty where
  loop : Nat
  iteration : Nat
  position : Nat
  commit : Bool
  failed : Bool
  /-- which core of the loop set it runs on -/
  core : Nat
  deriving DecidableEq, Repr

/-- What a thread runs. -/
inductive Duty where
  | idle
  | firing
  | handler (h : HandlerDuty)
  | landing (l : LandingDuty)
  | loop (l : LoopDuty)
  deriving DecidableEq, Repr

/-- Where a thread record stands: on its hardware thread, parked (09 R269), or held with its saved band (13 R355). -/
inductive Hold where
  | running | parked | suspended (wasParked : Bool)
  deriving DecidableEq, Repr

/-- The state of one thread that a program sees (01 R18 to R37), with the records the device keeps for it. -/
structure Thread where
  pos : Pos
  duty : Duty
  hold : Hold
  fid : FiringId
  /-- CTX, PATH, TID, ALLOT (01 R34 to R37) -/
  ctxw : DWord
  pathw : DWord
  tidw : DWord
  allotw : DWord
  g : Vector GReg 64
  v : Vector VReg 28
  p : Vector Word 8
  slots : Vector Slot 8
  pc : DWord
  code : QWord
  /-- trap state and the saved code capability (04 R135, 13 R343) -/
  trapped : Bool
  savedCode : QWord
  /-- the firing was stopped without delivery (13 R344) -/
  stopped : Bool
  fstat : DWord
  tcause : DWord
  tpc : DWord
  tinfo : DWord
  /-- sto_state (03 R96) -/
  sto : DWord
  calls : List OutCall
  /-- the RCALLN counter, word 0 of the first unreported record and how many are unreported (07 R231) -/
  rcalln : Nat
  rcallRecord : Option DWord
  rcallUnreported : Nat
  /-- the clock of the RCALLN completions that no RFENCE has passed (07 R231, R232) -/
  rcallClock : List Nat
  remoteStores : List RemoteStore
  /-- old values of atomics on their way to the registers that wait for them (05 R154) -/
  inFlight : List InFlight
  /-- the ordered atomics whose answers the thread's next access awaits (02 R64) -/
  amoqWaits : List Nat
  /-- elements popped from input ports 0 to 3, elements sent on output ports 0 to 3, and which output ports were bound
  when the firing started (04 R133, 07 R210, 09 R263) -/
  popped : List Nat
  sent : List Nat
  boundAtStart : List Bool
  /-- CYCLE at which the current instruction began to wait; the run clock's start; a WAIT limit passed while parked
  (13 R352) -/
  waitFrom : Option Nat
  runFrom : Nat
  waitPassed : Bool
  /-- the address for which the instruction waits for another device's answer, and CYCLE when it began to (05 R142) -/
  awaitsFabric : Option (DWord × Nat)
  /-- its part of the save area while it is parked: an address and a length (09 R269) -/
  parkedAt : Option (DWord × Nat)
  /-- what came back from a poisoned saved image besides g and v registers, by its saved item's number (13 R362) -/
  bad : List Nat
  deriving DecidableEq, Repr

/-! ## Engines of a core -/

/-- One transfer of a copy channel (05 R163 to R170).  `kind` 0 linear, 1 zero fill, 2 stream, 3 gather. -/
structure Xfer where
  id : Nat
  /-- its place in the order of issue -/
  seq : Nat
  kind : Nat
  issuer : FiringId
  writer : Writer
  det : Bool
  source : QWord
  dest : QWord
  /-- absolute addresses of the first source and destination byte, and below of the first index (08 R242) -/
  sourceAt : DWord
  destAt : DWord
  length : Nat
  tags : Bool
  land : Option Nat
  /-- the barrier word: its store address (08 R242) -/
  barrier : Option Nat
  /-- the stream read, then its index stream (05 R164), and their base capabilities with the absolute cursors (08 R242) -/
  stream : List Slot
  bases : List (QWord × DWord)
  indexAt : DWord
  esize : Nat
  count : Nat
  started : Bool
  done : List Nat
  /-- packets handed to a landing handler and not yet completed -/
  landing : List Nat
  /-- leaf entries of the pages that the engine has reached, pinned until the transfer retires (05 R165) -/
  pins : List Nat
  cancelled : Bool
  /-- the destination lies in the issuing core's store (scoreboard of R164) -/
  ownStore : Bool
  deriving DecidableEq, Repr

/-- The record of a channel's first unreported fault (05 R167, 13 R350). -/
structure CopyFault where
  id : Nat
  position : Nat
  inner : Nat
  overflow : Bool
  issuer : FiringId
  deriving DecidableEq, Repr

/-- One copy channel (05 R164, R167). -/
structure Channel where
  nextId : Nat
  /-- the first transfer whose destination lies on another device: from it on, completion is an acquire at sys scope (R167) -/
  firstAway : Option Nat
  live : List Xfer
  /-- transfers retired with a fault not yet reported, with their inner cause -/
  faulted : List (Nat × Nat)
  record : Option CopyFault
  deriving DecidableEq, Repr

/-- A fault recorded on a tile (06 R205, 13 R349). -/
structure TileFault where
  cause : Nat
  kstep : Nat
  skipped : Nat
  offset : Word
  issuers : List FiringId
  deriving DecidableEq, Repr

/-- One accumulator name: its tile and status (01 R30).  `acc` lists the 4,096 accumulators in row-major order; the
empty list stands for 4,096 zeros. -/
structure Tile where
  mode : Bool
  poison : Bool
  inexact : Bool
  overflow : Bool
  underflow : Bool
  acc : List DWord
  fault : Option TileFault
  deriving DecidableEq, Repr

/-- The kinds of matrix command (06 R193). -/
inductive MatrixKind where
  | mma | mmas | mmar | mzero
  deriving DecidableEq, Repr

/-- A queued matrix command (06 R196 to R200): `step` K-steps are done, and `chunks` are the sparse chunks of the group in
progress as they were read, with the poison of their elements (R207). -/
structure MatrixCmd where
  kind : MatrixKind
  tile : Nat
  fmt : BitVec 4
  aDesc : DWord
  bDesc : DWord
  k : Nat
  zero : Bool
  mode : Bool
  issuer : FiringId
  offset : Word
  step : Nat
  chunks : List (List Byte × Bool)
  deriving DecidableEq, Repr

/-- A stash mapping (05 R150, R151): local store address, length, global address, ST and FMTW on B, lines filled. -/
structure StashMap where
  localAt : Nat
  length : Nat
  globalAt : DWord
  store : Bool
  fmtw : Bool
  ctx : Nat
  valid : List Nat
  deriving DecidableEq, Repr

/-- A wait for a full/empty word, or a mailbox, to be full, or empty. -/
structure Waiter where
  word : Nat
  full : Bool
  who : FiringId
  deriving DecidableEq, Repr

/-- A run of the near-memory pipeline (07 R234, R235): its thread, its parameters, its streams, each followed by its index
streams, and how far it has come. -/
structure PipelineRun where
  issuer : FiringId
  service : Bool
  band : Option Nat
  duty : Duty
  writer : Writer
  word0 : DWord
  word1 : DWord
  rows : List Slot
  weights : List Slot
  out : List Slot
  running : Bool
  /-- the group in progress: its accumulators, and how many rows it has taken -/
  acc : List Nat
  taken : Nat
  written : Nat
  /-- the record numbers of its writes, in ranges: the first, and the one after the last -/
  writes : List (Nat × Nat)
  /-- cause and TINFO of the fault it stopped on -/
  fault : Option (Nat × DWord)
  deriving DecidableEq, Repr

/-- The mailboxes, parameter block and pipeline of a Lupin core (07 R233 to R236, 11 R310, R312).  The wake register's bit b
is whether mailbox b is full. -/
structure LupinUnit where
  /-- the core, as the position of its thread 0 -/
  pos : Pos
  /-- each message with the vector clock of its MBPOST (08 R258) -/
  mailboxes : List (Option (DWord × List Nat))
  /-- who waits on a mailbox, in the order in which they reached it -/
  waiters : List Waiter
  params : Option (DWord × DWord)
  runs : List PipelineRun
  deriving DecidableEq, Repr

/-- What a core or Lupin core held by a band holds beyond its threads. -/
structure CoreState where
  /-- the core, as the position of its thread 0 -/
  pos : Pos
  band : Nat
  gang : Nat
  /-- the loop whose set it belongs to (12 R326) -/
  loop : Option Nat
  channels : List Channel
  tiles : List Tile
  queue : List MatrixCmd
  /-- arbiter current value, and the K-steps left of its grant (09 R270) -/
  arbiter : Int
  grant : Nat
  stash : List (Option StashMap)
  /-- next call serial of each firing thread (11 R322) -/
  serials : List Word
  /-- instance that started the core's last firing, if any did (09 R265) -/
  lastInstance : Option Nat
  deriving DecidableEq, Repr

/-- The contents of a store allotment of a band saved by eviction (13 R355), keyed by distance from its first byte; `core` is
the number of the gang core, or none for the cluster store. -/
structure StoreImage where
  band : Nat
  gang : Nat
  core : Option Nat
  cells : List Host.Cell
  tags : List Nat
  poison : List Nat
  full : List Nat
  deriving DecidableEq, Repr

/-! ## Messages -/

/-- A remote call on its way or in an inbox (07 R226, R229, 11 R313). -/
structure CallMsg where
  ctx : Nat
  ctxw : DWord
  pathw : DWord
  caller : FiringId
  callerDevice : Nat
  serial : Word
  /-- the hardware thread whose serial it is -/
  thread : Nat
  target : TCap
  handler : Nat
  payload : List TCap
  count : Nat
  reply : Bool
  forwarded : Bool
  hops : Nat
  device : Nat
  owner : Pos
  writer : Writer
  /-- the caller's vector clock (08 R257) -/
  clock : List Nat
  deriving DecidableEq, Repr

/-- A landing packet in an inbox (05 R166). -/
structure LandMsg where
  ctx : Nat
  core : Pos
  channel : Nat
  id : Nat
  packet : Nat
  owner : Pos
  handler : Nat
  dest : QWord
  offset : Nat
  bytes : List Byte
  writer : Writer
  deriving DecidableEq, Repr

/-- A message of an inbox (09 R283). -/
inductive InMsg where
  | call (c : CallMsg)
  | land (l : LandMsg)
  deriving DecidableEq, Repr

/-- The service thread's queues (09 R283 to R285). -/
structure Owner where
  pos : Pos
  inbox : List InMsg
  held : List InMsg
  spill : List InMsg
  deriving DecidableEq, Repr

/-- What comes back for a reply call: values, or a fault or timeout record (07 R228, R230). -/
structure ReplyMsg where
  caller : FiringId
  callerDevice : Nat
  serial : Word
  thread : Nat
  values : List TCap
  mark : Mark
  /-- the vector clock of the owner that answers -/
  clock : List Nat
  deriving DecidableEq, Repr

/-- Completion of an RCALLN call, with word 0 of its record (07 R231). -/
structure DoneMsg where
  caller : FiringId
  callerDevice : Nat
  serial : Word
  thread : Nat
  record : Option DWord
  clock : List Nat
  deriving DecidableEq, Repr

/-- An element of a channel, with the vector clock of its SEND (07 R210, 08 R258). -/
structure Sent where
  data : VWord
  clock : List Nat
  deriving DecidableEq, Repr

/-- An element in flight toward an input FIFO (07 R210, 09 R263). -/
structure Element where
  band : Nat
  srcGang : Nat
  srcInst : Nat
  srcPort : Nat
  gang : Nat
  inst : Nat
  port : Nat
  sent : Sent
  deriving DecidableEq, Repr

/-- An RSV on its way to its cell, or to one of another device, with its thread's vector clock (07 R238, 12 R331). -/
structure RsvMsg where
  loop : Nat
  away : Bool
  cellAt : DWord
  /-- the keys and sizes of a cell of this device -/
  parts : List (Nat × Nat)
  epoch : Nat
  iteration : Nat
  clock : List Nat
  deriving DecidableEq, Repr

/-- An AMOQ request on its way, held, or accepted (05 R157).  `reg` receives the reply; `resume` is the address after
the AMOQ. -/
structure AmoqMsg where
  issuer : FiringId
  /-- the issuer's core, as the position of its thread 0 -/
  core : Pos
  path : DWord
  window : Nat
  interval : Nat
  addend : DWord
  reg : Nat
  order : Nat
  resume : DWord
  /-- ORD and SCOPE, and the vector clock of a release (02 R64, 08 R258) -/
  ord : BitVec 3
  scope : Nat
  clock : List Nat
  deriving DecidableEq, Repr

/-! ## Contexts, nodes, bands, loops -/

/-- One relation of a join-tree type (07 R215). -/
structure Relation where
  rows : TCap
  directory : TCap
  delta : TCap
  nrows : Nat
  nkeys : Nat
  rowBytes : Nat
  keyOff : Nat
  featOff : Nat
  ffmt : Nat
  fwidth : Nat
  pkeyOff : Nat
  heavy : Nat
  parent : Nat
  deriving DecidableEq, Repr

/-- A type slot of a context: load count and descriptor (07 R216, 10 R291). -/
structure TypeSlot where
  gen : BitVec 16
  relations : List Relation
  deriving DecidableEq, Repr

/-- An ordered-atomic window (05 R157). -/
structure AmoqWindow where
  counter : DWord
  batch : Nat
  next : Nat
  area : Nat
  accepted : List AmoqMsg
  held : List AmoqMsg
  told : Bool
  /-- the releases among the requests that have closed, each with its scope, the core of its thread and its vector clock -/
  releases : List (Nat × Pos × List Nat)
  deriving DecidableEq, Repr

/-- A context (14 R369, 01 R45). -/
structure Ctx where
  number : Nat
  det : Bool
  clusters : BitVec 256
  lupins : BitVec 512
  trapEntry : TCap
  root : DWord
  handlerTable : DWord
  saveArea : DWord
  saveSize : Nat
  spillAddr : DWord
  spillSize : Nat
  spillUsed : Nat
  timeoutMs : Nat
  waitLimit : Nat
  runLimit : Nat
  stallInterval : Nat
  adopt : Bool
  events : BitVec 256
  /-- event bits with the vector clocks of the changes made to them (07 R214, 08 R258) -/
  evClocks : List (Nat × List Nat)
  types : Vector TypeSlot 64
  windows : Vector AmoqWindow 64
  epoch : Nat
  /-- free frames of each die, as physical addresses (13 R357) -/
  frames : List (List Nat)
  killing : Bool
  /-- CYCLE of the last progress the stall report looks at (14 R369) -/
  lastProgress : Nat
  deriving DecidableEq, Repr

/-- A launch packet (02 R84). -/
structure Packet where
  entry : TCap
  operands : List TCap
  wait : BitVec 256
  set : BitVec 256
  path : DWord
  weight : Nat
  tiles : Nat
  vcount : Nat
  gcount : Nat
  instances : Nat
  gangs : Nat
  det : Bool
  prio : Nat
  lupin : Bool
  coreKib : Nat
  clusterKib : Nat
  depths : List Nat
  deriving DecidableEq, Repr

/-- An actor descriptor (02 R81): ESIZE and RATE of input ports 0 to 3 and output ports 0 to 3. -/
structure Actor where
  ins : List (Nat × Nat)
  outs : List (Nat × Nat)
  deriving DecidableEq, Repr

/-- A node waiting in the Aster pool (09 R273 to R277), a loop band waiting there (12 R326), or a saved band waiting to
be placed again (09 R276).  `entry` is its pool entry. -/
structure Node where
  entry : Nat
  ctx : Nat
  packet : Packet
  ready : Bool
  entered : Nat
  sequence : Nat
  readyAt : Nat
  passed : Nat
  /-- the `sequence` of the band that spawned it, and its child index (07 R212) -/
  parent : Option Nat
  child : Nat
  /-- SPAWN created it (09 R276) -/
  spawned : Bool
  loop : Option Nat
  resumed : Bool
  /-- the vector clock that its firings follow (07 R212, R214, 08 R258) -/
  clock : List Nat
  deriving DecidableEq, Repr

/-- States of an actor instance that no thread record shows (09 R264). -/
inductive InstState where
  | idle | running | parked
  deriving DecidableEq, Repr

/-- One actor instance of a band (09 R261). -/
structure Instance where
  gang : Nat
  index : Nat
  state : InstState
  count : Nat
  fifos : List (List Sent)
  /-- slots of each input FIFO reserved by firings of producers (09 R262) -/
  reserved : List Nat
  outs : List (Option DWord)
  /-- producer bound to each input port: gang, instance, port (07 R210) -/
  producers : List (Option (Nat × Nat × Nat))
  deriving DecidableEq, Repr

/-- Where a gang stands (09 R265 to R267): cluster, physical cores, store base and first physical tile. -/
structure GangPlace where
  cluster : Nat
  cores : List Nat
  storeBase : Nat
  deriving DecidableEq, Repr

/-- A store of an ended firing to another device, not yet acknowledged (05 R143). -/
structure BandStore where
  id : Nat
  issued : Nat
  firing : FiringId
  pathw : DWord
  tidw : DWord
  address : DWord
  deriving DecidableEq, Repr

/-- Band states (09 R271). -/
inductive BandState where
  | reserving | running | draining | preempting | saved
  deriving DecidableEq, Repr

/-- A band (09 R267, R271, 13 R353, R355). -/
structure Band where
  entry : Nat
  ctx : Nat
  packet : Packet
  actor : Actor
  state : BandState
  /-- it left DRAINING when it was pre-empted -/
  wasDraining : Bool
  evict : Bool
  evicted : Bool
  die : Nat
  places : List GangPlace
  instances : List Instance
  /-- spawned child indices, and those whose bands have exited, with the vector clocks of their exits (07 R212, R213) -/
  spawned : List Nat
  exited : List (Nat × List Nat)
  /-- the `sequence` of the band that spawned it, and whether SPAWN created its node -/
  parent : Option Nat
  child : Nat
  bySpawn : Bool
  entered : Nat
  sequence : Nat
  /-- writer regions it holds, as addresses of their leaf entries (05 R172) -/
  regions : List Nat
  /-- the vector clocks of the handovers of those regions (05 R173) -/
  handovers : List (Nat × List Nat)
  stores : List BandStore
  /-- the vector clock that its firings follow: that of its node, or of what they had seen when it was evicted (13 R355) -/
  clock : List Nat
  /-- the vector clock of what its ended firings had seen (07 R213, R214) -/
  endClock : List Nat
  /-- its part of the save area: an address and a length (13 R353) -/
  saveAt : Option (DWord × Nat)
  deriving DecidableEq, Repr

/-- Loop states (12 R334). -/
inductive LoopState where
  | queued | reserve | commit | pack | finished | faulted | saved (left : BitVec 2)
  deriving DecidableEq, Repr

/-- A reserving loop (12 R326 to R340). -/
structure Loop where
  id : Nat
  ctx : Nat
  band : Nat
  gang : Nat
  pathw : DWord
  ctxw : DWord
  allotw : DWord
  reserveCode : QWord
  commitCode : QWord
  cells : TCap
  guard : TCap
  operand : TCap
  gstride : Nat
  logw : Nat
  n : Nat
  state : LoopState
  epoch : Nat
  window : List Nat
  nextNew : Nat
  windowNo : Nat
  fired : List Nat
  ended : List Nat
  failed : List Nat
  rsvIssued : Nat
  rsvAcked : Nat
  /-- positions that faulted in this round, with their causes -/
  faults : List (Nat × Nat)
  /-- RLEND's record once faulted (12 R338) -/
  record : DWord
  committed : Nat
  set : List Pos
  regions : List Nat
  /-- the vector clock that its next firings follow, and that of what its firings did (12 R335) -/
  clock : List Nat
  endClock : List Nat
  /-- the cells that hold an iteration of this epoch since the round barrier (12 R332) -/
  held : List (Nat × Nat)
  deriving DecidableEq, Repr

/-! ## Memory -/

/-- A line held dirty in a cache: the bytes, tags and poison that HBM still holds under it, and the ZERO flag
(08 R249, 05 R152). -/
structure DirtyLine where
  line : Nat
  /-- the die whose L2 holds it; 4 is the hub -/
  die : Nat
  zero : Bool
  cells : List Host.Cell
  tags : List Nat
  poison : List Nat
  deriving DecidableEq, Repr

/-- A view line held decoded, its ZERO flag, and its poisoned granules (08 R249, R251, R252, 13 R360). -/
structure ViewLine where
  line : Nat
  /-- the die whose L2 holds it; 4 is the hub -/
  die : Nat
  bytes : List Byte
  dirty : Bool
  zero : Bool
  poison : List Nat
  deriving DecidableEq, Repr

/-- Some of the agents of a die: one of them, the threads of a core, the cores of a cluster, or the firings of a band or loop
(00 R8, 07 R212). -/
inductive Viewer where
  | agent (who : FiringId)
  | core (pos : Pos)
  | cluster (lupin : Bool) (die cluster : Nat)
  | band (ctx band : Nat)
  deriving DecidableEq, Repr

/-- A write that not every agent of one die sees yet (08 R257): who sees it there, the bytes that the others still see instead,
and the tags of the granules it touches.  Its own thread sees it from the start. -/
structure DieWrite where
  id : Nat
  toDie : Nat
  fromDie : Nat
  issuer : FiringId
  /-- the core of its issuer, as the position of its thread 0 -/
  issuerCore : Pos
  /-- the scope of a release (08 R258) -/
  release : Option Nat
  clock : List Nat
  shown : List Viewer
  before : List Host.Cell
  tags : List (Nat × Bool)
  /-- bytes for which this die sees a later write already -/
  passed : List Nat
  deriving DecidableEq, Repr

/-- Who reads: the agents of a die (die 4 is the Brolet hub), and the core and the thread among them. -/
structure Eye where
  die : Nat
  core : Pos
  who : FiringId
  deriving DecidableEq, Repr

/-- A reply or message sent to the host (14 R366, R367). -/
structure HostMsg where
  opcode : Nat
  context : Nat
  status : Nat
  seq : Nat
  /-- LENGTH: the payload's bytes, of which the last word may hold fewer than 8 -/
  length : Nat
  payload : List DWord
  deriving DecidableEq, Repr

/-- A leaf change in progress (13 R359): the entry's address, the new word, for a migration the new frame and die, and the
reply of the MAPWRITE that waits for it and for that command's other changes. -/
structure PageChange where
  ctx : Nat
  page : DWord
  size : Nat
  entryAt : Nat
  word : DWord
  migration : Option (Nat × Nat)
  reply : Option HostMsg
  deriving DecidableEq, Repr

/-- Access counters of a PLACE page (09 R281). -/
structure PageCount where
  ctx : Nat
  page : DWord
  accesses : List Nat
  deriving DecidableEq, Repr

/-- What stands behind a byte of a store while some write is not seen everywhere: the clock of the write that it holds, and the
releases performed there, each with its scope, the core of its thread and its clock (08 R257, R258). -/
structure StoreClock where
  key : Nat
  clock : List Nat
  releases : List (Nat × Pos × List Nat)
  deriving DecidableEq, Repr

/-- Memory of the whole package (08 R241 to R249).  Cells are keyed by physical address: a stored HBM byte by
DIE and OFFSET of R244, a store byte by its absolute aperture address of R242. -/
structure Memory where
  cells : List Host.Cell
  /-- tagged and poisoned 16-byte granules, by address / 16 (01 R43, 13 R360) -/
  tags : List Nat
  poison : List Nat
  /-- full 32-bit words of the cluster stores, by address / 4 (05 R149) -/
  full : List Nat
  /-- who waits on a full/empty word, in the order in which they reached it (05 R149) -/
  waiters : List Waiter
  dirty : List DirtyLine
  views : List ViewLine
  /-- format-window registers, die · 16 + window (08 R250) -/
  windows : List WindowWords
  /-- vector clocks of the four dies and the hub (08 R257) -/
  clocks : List (List Nat)
  unseen : List DieWrite
  /-- bytes of core and cluster stores, with the clocks of what was performed there (08 R247, R248) -/
  storeClocks : List StoreClock
  changes : List PageChange
  counts : List PageCount
  deriving DecidableEq, Repr

/-! ## The device -/

/-- A firmware image in a slot: what the Aelow controller's verification looks at (14 R373). -/
structure FirmwareImage where
  version : Nat
  digest : BitVec 256
  image : List Byte
  present : Bool
  deriving DecidableEq, Repr

/-- A boot stage: its two slots, the fused rollback counter and the slot that booted (14 R373). -/
structure FirmwareStage where
  slotA : FirmwareImage
  slotB : FirmwareImage
  rollback : Nat
  bootedB : Bool
  deriving DecidableEq, Repr

/-- The owning session (14 R366, R368). -/
structure Session where
  key : BitVec 256
  nextSeq : Nat
  messageSeq : Nat
  lastCommand : Nat
  lost : Option Nat
  deriving DecidableEq, Repr

/-- A port: down, up, or on one lane, as in minimal mode (14 R374). -/
inductive PortState where
  | down | up | oneLane
  deriving DecidableEq, Repr

/-- A warm reset in progress (14 R379, R380). -/
structure WarmReset where
  flush : Bool
  seq : DWord
  takeoverAnswered : Bool
  deriving DecidableEq, Repr

/-- An agent's activation limit (11 R325). -/
structure Throttle where
  stack : Nat
  channel : Nat
  sequencer : Bool
  expires : Nat
  deriving DecidableEq, Repr

/-- The hub, the Aelow controller and the package's own state. -/
structure Device where
  /-- CYCLE (01 R33) -/
  cycle : Nat
  number : Nat
  fabricMap : List (Nat × Nat)
  power : PowerState
  /-- a transition commanded and not yet reached -/
  powerTarget : Option PowerState
  tripLatched : Bool
  /-- CYCLE of the last trip, unless CYCLE has restarted since (14 R372) -/
  tripAt : Option Nat
  /-- the TRIP message that a session which takes over receives again (14 R380) -/
  tripPayload : List DWord
  /-- the last value that each sensor reported in a trip -/
  sensors : List (Sensor × Nat)
  failedStarts : Nat
  minimalMode : Bool
  bootRecord : DWord
  firmware : List FirmwareStage
  staging : List Byte
  stagingStage : Nat
  stagingSlot : Nat
  stagingTotal : Nat
  owners : List (BitVec 256)
  session : Option Session
  faultCount : Nat
  warmReset : Option WarmReset
  ports : List PortState
  /-- failed units, with CYCLE at detection (11 R320, 14 R379) -/
  failedUnits : List (UnitKind × Nat × Nat)
  /-- units that failed while a warm reset ran, with CYCLE: their DEVFAULT is sent at D0 (14 R380) -/
  failedAt : List (UnitKind × Nat × Nat)
  crash : List HostMsg
  errorLog : List (ErrorPlace × Nat)
  correctedLog : List (ErrorPlace × Nat)
  alerts : List (List AlertEntry)
  alertsLost : List Nat
  throttles : List Throttle
  refresh : List (Nat × Nat)
  sent : List HostMsg
  deriving DecidableEq, Repr

/-- A UET write of the host that must wait (14 R370). -/
structure HostWrite where
  ctx : Nat
  address : DWord
  data : List Byte
  deriving DecidableEq, Repr

/-- Messages between agents. -/
structure Net where
  calls : List CallMsg
  replies : List ReplyMsg
  dones : List DoneMsg
  elements : List Element
  rsvs : List RsvMsg
  amoqs : List AmoqMsg
  hostWrites : List HostWrite
  deriving DecidableEq, Repr

/-- An answer that another device gives to a load or atomic (05 R142): 16 bytes and a tag, of which the access takes
what it needs.  The model's own field: what the fabric will answer. -/
structure FabricAnswer where
  data : VWord
  tag : Bool
  /-- distance of its first poisoned granule -/
  poison : Option Nat
  deriving DecidableEq, Repr

/-- Which agent moves next: an event or command, or the thread at a position issues; the dies listed see its ordinary writes
late.  Or a write comes to be seen by some agents before the others of their die.  The model's own data
(notes/assumptions/1.md). -/
inductive Turn where
  | event (i : Instr) (late : List Nat)
  | issue (p : Pos) (late : List Nat)
  | shows (id : Nat) (viewer : Viewer)
  deriving DecidableEq, Repr

/-! ## The machine -/

/-- The state of one ZK-1 package.  DESIGN CHOICE: notes/assumptions/1.md. -/
structure State where
  /-- the thread that issues -/
  cur : Thread
  /-- every other thread: running, parked or saved -/
  threads : List Thread
  mem : Memory
  cores : List CoreState
  /-- cores and stores of bands saved by eviction, in gang and core order (13 R355) -/
  savedCores : List CoreState
  /-- the units of Lupin cores of such bands, with the bands' pool entries -/
  savedUnits : List (Nat × LupinUnit)
  images : List StoreImage
  units : List LupinUnit
  owners : List Owner
  ctxs : List Ctx
  nodes : List Node
  /-- what the pool knows since it passed nodes over: the nodes that were ready then, with when they became so, and the cores
  held then or since (notes/assumptions/23.md) -/
  poolTried : List (Nat × Nat) × List Pos
  bands : List Band
  loops : List Loop
  net : Net
  dev : Device
  /-- dies that see the ordinary writes of the instruction in progress late -/
  late : List Nat
  turns : List Turn
  fabricIn : List FabricAnswer
  /-- how many free values have been used (notes/assumptions/1.md) -/
  free : Nat
  /-- next fresh record number -/
  nextId : Nat
  deriving DecidableEq, Repr

/-- Why the machine stops with a fault.  DESIGN CHOICE: notes/assumptions/41.md. -/
inductive Fault where
  /-- Raised by an instruction or event whose thread names a context, band, core or loop that State does not hold: no
  run of the device reaches such a state.  Safe. -/
  | danglingRecord
  deriving DecidableEq, Repr

/-- Why an instruction has no meaning. -/
inductive Refusal where
  /-- Raised by an arm of exec whose instruction has no meaning yet.  Safe. -/
  | notModelled (mnemonic : String)
  deriving DecidableEq, Repr

/-! ## Reset -/

/-- A register at firing entry: zero, untagged, full (01 R19). -/
def GReg.zero : GReg := ⟨0#128, false, .full, .clear, []⟩

def VReg.zero : VReg := ⟨0#1024, .full⟩

def StreamRecord.zero : StreamRecord :=
  ⟨0#64, 0#32, 0#32, 0#32, 0#32, 0#32, 0#32, 0#32, 0#32, 0#32, false, 0#3, 0#2, false, 0#3⟩

/-- An inactive slot (01 R31). -/
def Slot.inactive : Slot := ⟨false, StreamRecord.zero, 0#128, 0, 0, 0, 0, none, 0, none, false⟩

/-- The predicates at firing entry: p0 all true, the others zero (01 R19). -/
def Thread.entryPredicates : Vector Word 8 := (Vector.replicate 8 0#32).set 0 0xFFFFFFFF#32

/-- A thread that holds no firing (DESIGN CHOICE for the fields R18 gives no value: notes/assumptions/2.md). -/
def Thread.idle : Thread where
  pos := ⟨false, 0, 0, 0, 0⟩
  duty := .idle
  hold := .running
  fid := ⟨0, 0, 0, 0, 0⟩
  ctxw := 0#64
  pathw := 0#64
  tidw := 0#64
  allotw := 0#64
  g := Vector.replicate 64 GReg.zero
  v := Vector.replicate 28 VReg.zero
  p := Thread.entryPredicates
  slots := Vector.replicate 8 Slot.inactive
  pc := 0#64
  code := 0#128
  trapped := false
  savedCode := 0#128
  stopped := false
  fstat := 0#64
  tcause := 0#64
  tpc := 0#64
  tinfo := 0#64
  sto := 0#64
  calls := []
  rcalln := 0
  rcallRecord := none
  rcallUnreported := 0
  rcallClock := []
  remoteStores := []
  inFlight := []
  amoqWaits := []
  popped := [0, 0, 0, 0]
  sent := [0, 0, 0, 0]
  boundAtStart := [false, false, false, false]
  waitFrom := none
  runFrom := 0
  waitPassed := false
  awaitsFabric := none
  parkedAt := none
  bad := []

/-- Memory with nothing listed (DESIGN CHOICE for HBM: notes/assumptions/4.md).  DESIGN CHOICE: notes/assumptions/3.md. -/
def Memory.reset : Memory where
  cells := []
  tags := []
  poison := []
  full := []
  waiters := []
  dirty := []
  views := []
  windows := List.replicate 64 ⟨0#64, 0#64, 0#64, 0#64⟩
  clocks := List.replicate 5 (List.replicate 5 0)
  unseen := []
  storeClocks := []
  changes := []
  counts := []

/-- The device after a cold boot that reached D0 (14 R365, R373, R374).  DESIGN CHOICE for what the spec gives no
value: notes/assumptions/3.md. -/
def Device.reset : Device where
  cycle := 0
  number := 0
  fabricMap := []
  power := .d0
  powerTarget := none
  tripLatched := false
  tripAt := none
  tripPayload := []
  sensors := []
  failedStarts := 0
  minimalMode := false
  bootRecord := 0#64
  firmware := List.replicate 5 ⟨⟨0, 0#256, [], true⟩, ⟨0, 0#256, [], true⟩, 0, false⟩
  staging := []
  stagingStage := 0
  stagingSlot := 0
  stagingTotal := 0
  owners := [0#256]
  session := none
  faultCount := 0
  warmReset := none
  ports := List.replicate 24 .up
  failedUnits := []
  failedAt := []
  crash := []
  errorLog := []
  correctedLog := []
  alerts := List.replicate 16 []
  alertsLost := List.replicate 16 0
  throttles := []
  refresh := []
  sent := []

/-- The package right after reset: no context, no node, no thread running (01 R18, 14 R365). -/
def State.reset : State where
  cur := Thread.idle
  threads := []
  mem := Memory.reset
  cores := []
  savedCores := []
  savedUnits := []
  images := []
  units := []
  owners := []
  ctxs := []
  nodes := []
  poolTried := ([], [])
  bands := []
  loops := []
  net := ⟨[], [], [], [], [], [], []⟩
  dev := Device.reset
  late := []
  turns := []
  fabricIn := []
  free := 0
  nextId := 0

end Sys2Proof.Machine
end

