-- ==== Sys2Proof/Machine/Caps.lean ====
section
/-!
DEFINITION. Machine/Caps.lean: the fields and bounds of capabilities (01 R38 to R42, 07 R217).
-/

namespace Sys2Proof.Machine

/-! ## Permission bits (01 R40) -/

def permLD : Nat := 0
def permST : Nat := 1
def permLDCAP : Nat := 2
def permSTCAP : Nat := 3
def permEXE : Nat := 4
def permSYS : Nat := 5
def permXFER : Nat := 6
def permRCALL : Nat := 7
def permRSVC : Nat := 8
def permGLOBAL : Nat := 9
def permSEAL : Nat := 10
def permUNSEAL : Nat := 11
def permJOIN : Nat := 12
def permFMTW : Nat := 13

/-! ## Fields (01 R38) -/

def capPerms (c : QWord) : BitVec 16 := c.extractLsb' 112 16
def capType (c : QWord) : Nat := (c.extractLsb' 108 4).toNat
def capExp (c : QWord) : Nat := (c.extractLsb' 102 6).toNat
def capBaseM (c : QWord) : Nat := (c.extractLsb' 84 18).toNat
def capTopM (c : QWord) : Nat := (c.extractLsb' 66 18).toNat
def capCursor (c : QWord) : DWord := c.extractLsb' 0 64

/-- The address part of a register or memory value (01 R20). -/
def capAddr (c : QWord) : Nat := (capCursor c).toNat

def capHas (c : QWord) (perm : Nat) : Bool := (capPerms c).getLsbD perm

def capSealed (c : QWord) : Bool := capType c != 0

def capWithCursor (c : QWord) (x : DWord) : QWord := c.extractLsb' 64 64 ++ x

def capWithType (c : QWord) (t : Nat) : QWord := c.extractLsb' 112 16 ++ BitVec.ofNat 4 t ++ c.extractLsb' 0 108

def capWithPerms (c : QWord) (p : BitVec 16) : QWord := p ++ c.extractLsb' 0 112

/-- Data in a register: bits [127:64] are zero (01 R20). -/
def dataVal (x : DWord) : QWord := 0#64 ++ x

/-! ## Bounds (01 R41) -/

/-- Base and top of a capability whose OTYPE is neither 3 nor 4. -/
def capBounds (c : QWord) : Nat × Nat :=
  let e := capExp c
  let cursor := capAddr c
  let mid : Int := ((cursor / 2 ^ e % 2 ^ 18 : Nat) : Int)
  let off : Int := (mid - (capBaseM c : Int) + 0x8000) % 0x40000 - 0x8000
  let base := ((((cursor / 2 ^ e : Nat) : Int) - off) * ((2 ^ e : Nat) : Int) % ((2 ^ 64 : Nat) : Int)).toNat
  let len := (capTopM c + 0x40000 - capBaseM c) % 0x40000
  (base, base + len * 2 ^ e)

/-- A cursor inside the representable window (R41, R125); addresses wrap at 2^64 as the decoding does. -/
def capRepresentable (c : QWord) (cursor : Nat) : Bool :=
  let e := capExp c
  let base := (capBounds c).1
  decide ((cursor + 2 ^ 64 + 2 ^ (e + 15) - base) % 2 ^ 64 < 2 ^ (e + 18)) || decide (64 ≤ e + 18)

/-- Encode bounds at exponent e (R41). -/
def capWithBounds (c : QWord) (e base top : Nat) : QWord :=
  c.extractLsb' 108 20 ++ BitVec.ofNat 6 e ++ BitVec.ofNat 18 (base / 2 ^ e) ++ BitVec.ofNat 18 (top / 2 ^ e) ++ 0#2 ++
    c.extractLsb' 0 64

/-- ⌈log2 n⌉, with 0 for 0 (R42). -/
def ceilLog2 (n : Nat) : Nat := if n ≤ 1 then 0 else (n - 1).log2 + 1


/-- The bounds that CBOUND forms (04 R126): exponent, rounded base and rounded top. -/
def roundBounds (base len : Nat) : Nat × Nat × Nat :=
  let at' (e : Nat) : Nat × Nat × Nat :=
    (e, base / 2 ^ e * 2 ^ e, (base + len + 2 ^ e - 1) / 2 ^ e * 2 ^ e)
  let e := ceilLog2 len - 17
  let r := at' e
  if 2 ^ (e + 18) ≤ r.2.2 - r.2.1 then at' (e + 1) else r

/-- A capability with exact or outward-rounded bounds, built by the device. -/
def makeCap (perms : BitVec 16) (base len cursor : Nat) : QWord :=
  let r := roundBounds base len
  capWithBounds (perms ++ 0#112 ||| (0#64 ++ BitVec.ofNat 64 cursor)) r.1 r.2.1 r.2.2

/-! ## Type and result capabilities (07 R217) -/

def kprWidth (c : QWord) : Nat := (c.extractLsb' 91 11).toNat + 1
def kprCounts (c : QWord) : Bool := c.getLsbD 90
def kprEdge (c : QWord) : Nat := (c.extractLsb' 86 4).toNat
def kprGen (c : QWord) : BitVec 16 := c.extractLsb' 70 16
def kprSlot (c : QWord) : Nat := (c.extractLsb' 64 6).toNat
def typeNrel (c : QWord) : Nat := (c.extractLsb' 86 5).toNat

/-- Bytes of one element of a KPR. -/
def kprStride (c : QWord) : Nat := if kprCounts c then 8 else 4 * kprWidth c

def makeType (nrel : Nat) (gen : BitVec 16) (slot : Nat) (cursor : DWord) : QWord :=
  0x1000#16 ++ 3#4 ++ 0#17 ++ BitVec.ofNat 5 nrel ++ gen ++ BitVec.ofNat 6 slot ++ cursor

def makeKpr (perms : BitVec 16) (width : Nat) (counts : Bool) (edge : Nat) (gen : BitVec 16) (slot : Nat) (cursor : DWord) :
    QWord :=
  perms ++ 4#4 ++ 0#6 ++ BitVec.ofNat 11 (width - 1) ++ BitVec.ofBool counts ++ BitVec.ofNat 4 edge ++ gen ++
    BitVec.ofNat 6 slot ++ cursor

end Sys2Proof.Machine
end

