-- ==== Sys2Proof/Config.lean ====
section
/-!
DEFINITION. Config.lean: what the spec leaves to an implementation or leaves open, as constants without a body.  Nothing
in Lean can compute one of these values, so a statement about them holds whatever they are.
-/

namespace Sys2Proof.Config

/-- The `n`-th value the spec leaves open in a run (State.free counts them; notes/assumptions/1.md). -/
opaque freeValue (n : Nat) (width : Nat) : BitVec width

/-- A free choice, the `n`-th of a run.  DESIGN CHOICE: notes/assumptions/1.md. -/
opaque freeChoice (n : Nat) : Nat

/-- By how much CYCLE advances at the `n`-th step (01 R33; notes/assumptions/5.md). -/
opaque cycleStep (n : Nat) : Nat

/-- The fixed pattern of a transcendental form for a source code (03 R112, R114): `fn` is the FN of OP 0x21.  DESIGN CHOICE: notes/assumptions/19.md. -/
opaque transcendental (fn fmt code : Nat) : Nat

/-- What a format window stores for an element whose quotient the spec gives no value (08 R251): scale NaN or infinite
against an infinite element, or E8M0 byte 0xFF.  DESIGN CHOICE: notes/assumptions/16.md. -/
opaque windowEncode (sfmt code scale block : Nat) : Nat

/-- SHA3-256 (14 R368, R373).  DESIGN CHOICE: notes/assumptions/36.md. -/
opaque sha3 (data : List Byte) : BitVec 256

/-- ML-DSA-44 verification of a signature over a message (14 R368, R373, R376).  DESIGN CHOICE: notes/assumptions/36.md. -/
opaque verify (key message signature : List Byte) : Bool

/-- ML-DSA-44 signature by the device's identity key (14 R376).  DESIGN CHOICE: notes/assumptions/36.md. -/
opaque deviceSign (message : List Byte) : List Byte

/-- What the header of a firmware image holds, and the bytes that its digest covers (14 R373).  DESIGN CHOICE: notes/assumptions/36.md. -/
opaque firmwareDigest (image : List Byte) : BitVec 256
opaque firmwareVersion (image : List Byte) : Nat
opaque firmwareKey (image : List Byte) : List Byte
opaque firmwareSignature (image : List Byte) : List Byte
opaque firmwareBody (image : List Byte) : List Byte

/-- The fused digest of the vendor's key (14 R373), and the vendor's signature over a message (14 R375).  DESIGN CHOICE: notes/assumptions/36.md. -/
opaque vendorKeyDigest : BitVec 256
opaque vendorSign (message : List Byte) : List Byte

/-- The key and the signature that an owner list image carries (14 R368).  DESIGN CHOICE: notes/assumptions/36.md. -/
opaque ownerListKey (image : List Byte) : List Byte
opaque ownerListSignature (image : List Byte) : List Byte

/-- Rail groups of the package (14 R372).  DESIGN CHOICE: notes/assumptions/37.md. -/
opaque railGroups : Nat

/-- The public key of the identity pair (14 R375).  DESIGN CHOICE: notes/assumptions/36.md. -/
opaque deviceKey : List Byte

/-- Part code, stepping and opcode map version (14 R371, R375).  DESIGN CHOICE: notes/assumptions/34.md. -/
opaque partCode : BitVec 64
opaque stepping : BitVec 64
opaque mapVersion : BitVec 64

/-- Save-area bytes that an eviction writes, less one, by firing threads, cores, core-store and cluster-store bytes and tiles
(13 R353).  DESIGN CHOICE: notes/assumptions/32.md. -/
opaque saveBytes (threads cores coreBytes clusterBytes tiles : Nat) : Nat

/-- The 16-byte granule of a band's part of the save area that holds an item of a saved register file or store (13 R355, R362).
DESIGN CHOICE: notes/assumptions/32.md. -/
opaque saveGranule (holder item : Nat) : Nat

/-- Which run of a cluster store the gangs of a node get in a deterministic context: a function of the node's PATH and the eligible
clusters (09 R280).  DESIGN CHOICE: notes/assumptions/23.md. -/
opaque storeRun (path : BitVec 64) (eligible : BitVec 256) : Nat

end Sys2Proof.Config
end

