-- ==== Sys2Proof/Machine/Numbers.lean ====
section
/-!
DEFINITION. Machine/Numbers.lean: the number formats of chapter 03, exact values, rounding R95 to R97, conversions R98 to
R102, arithmetic R103 and RNS64 R92 to R94.  A code is the Nat of a format's bits.
-/

namespace Sys2Proof.Machine

/-! ## Integers -/

/-- Two's complement value of the low `w` bits. -/
def toSigned (w x : Nat) : Int :=
  let y := x % 2 ^ w
  if y < 2 ^ (w - 1) then (y : Int) else (y : Int) - (2 ^ w : Nat)

/-- The low `w` bits of an integer. -/
def ofInt (w : Nat) (x : Int) : Nat := (x % ((2 ^ w : Nat) : Int)).toNat

/-- Number of significant bits. -/
def bitLen (n : Nat) : Nat := if n = 0 then 0 else n.log2 + 1

/-- Integer square root, by digits from bit `k` down. -/
def isqrtFrom (n : Nat) : Nat → Nat → Nat
  | 0, r => r
  | k + 1, r => if (r + 2 ^ k) * (r + 2 ^ k) ≤ n then isqrtFrom n k (r + 2 ^ k) else isqrtFrom n k r

def isqrt (n : Nat) : Nat := isqrtFrom n (bitLen n / 2 + 1) 0

/-! ## Rounding codes and flags -/

/-- The rounding codes (02 R61). -/
inductive Rm where
  | rne | rtz | rup | rdn | rna | sto
  deriving DecidableEq, Repr

def Rm.ofCode (n : Nat) : Rm :=
  match n with
  | 0 => .rne
  | 1 => .rtz
  | 2 => .rup
  | 3 => .rdn
  | 4 => .rna
  | _ => .sto

/-- Sticky flags in the bit order of FSTAT (01 R48). -/
abbrev Flags := BitVec 5

def Flags.none : Flags := 0#5
def Flags.invalid : Flags := 1#5
def Flags.divzero : Flags := 2#5
def Flags.overflow : Flags := 4#5
def Flags.underflow : Flags := 8#5
def Flags.inexact : Flags := 16#5

/-! ## Floating-point formats -/

/-- How the all-ones exponent is used (03 R89). -/
inductive FpKind where
  | ieee | e4m3 | e2m1
  deriving DecidableEq, Repr

/-- Parameters of a binary floating-point format (03 R88). -/
structure Fp where
  exp : Nat
  frac : Nat
  bias : Nat
  kind : FpKind
  deriving DecidableEq, Repr

/-- The format of FMT codes 0 to 6. -/
def Fp.ofFmt (fmt : Nat) : Fp :=
  match fmt with
  | 0 => ⟨11, 52, 1023, .ieee⟩
  | 1 => ⟨8, 23, 127, .ieee⟩
  | 2 => ⟨5, 10, 15, .ieee⟩
  | 3 => ⟨8, 7, 127, .ieee⟩
  | 4 => ⟨4, 3, 7, .e4m3⟩
  | 5 => ⟨5, 2, 15, .ieee⟩
  | _ => ⟨2, 1, 1, .e2m1⟩

def Fp.width (f : Fp) : Nat := 1 + f.exp + f.frac

/-- Exponent of the last place of a subnormal. -/
def Fp.qmin (f : Fp) : Int := 1 - (f.bias : Int) - (f.frac : Int)

/-- Magnitude code of the largest finite value (03 R88, R89). -/
def Fp.maxCode (f : Fp) : Nat :=
  match f.kind with
  | .ieee => (2 ^ f.exp - 1) * 2 ^ f.frac - 1
  | .e4m3 => 0x7E
  | .e2m1 => 7

/-- Magnitude code of infinity; only in the formats that have one. -/
def Fp.infCode (f : Fp) : Nat := (2 ^ f.exp - 1) * 2 ^ f.frac

def Fp.signBit (f : Fp) (neg : Bool) : Nat := if neg then 2 ^ (f.exp + f.frac) else 0

/-- The default NaN (03 R103). -/
def Fp.defaultNan (f : Fp) : Nat :=
  match f.kind with
  | .ieee => f.infCode + 2 ^ (f.frac - 1)
  | _ => 0x7F

/-- A value read from a code.  `fin neg m e` is (−1)^neg · m · 2^e. -/
inductive FpVal where
  | nan (neg : Bool) (frac : Nat)
  | inf (neg : Bool)
  | fin (neg : Bool) (m : Nat) (e : Int)
  deriving DecidableEq, Repr

/-- Decode a code (03 R88, R89). -/
def Fp.decode (f : Fp) (code : Nat) : FpVal :=
  let neg := code.testBit (f.exp + f.frac)
  let e := (code / 2 ^ f.frac) % 2 ^ f.exp
  let m := code % 2 ^ f.frac
  let finite : FpVal :=
    if e = 0 then .fin neg m f.qmin else .fin neg (m + 2 ^ f.frac) (f.qmin + (e : Int) - 1)
  if e = 2 ^ f.exp - 1 then
    match f.kind with
    | .ieee => if m = 0 then .inf neg else .nan neg m
    | .e4m3 => if m = 7 then .nan neg m else finite
    | .e2m1 => finite
  else finite

def FpVal.isNan (v : FpVal) : Bool :=
  match v with
  | .nan _ _ => true
  | _ => false

/-- A NaN with quiet bit 0 (03 R103). -/
def Fp.signalling (f : Fp) (code : Nat) : Bool :=
  match f.kind, f.decode code with
  | .ieee, .nan _ frac => !(frac.testBit (f.frac - 1))
  | _, _ => false

/-! ## Rounding (03 R95, R96) -/

/-- The result of a rounding on the grid with the exponent unbounded above: `code` is the magnitude code that the value
would have, so it exceeds the format's largest when the rounding overflows. -/
structure Rounding where
  code : Nat
  inexact : Bool
  tiny : Bool
  /-- the neighbour farther from zero was chosen -/
  away : Bool
  deriving DecidableEq, Repr

/-- Whether a value with lower neighbour `n`, remainder `rem` of `2^k` and a sticky tail goes to the neighbour farther
from zero. -/
def roundsAway (rm : Rm) (draw : Nat) (neg : Bool) (n rem k : Nat) (sticky : Bool) : Bool :=
  let inexact := rem != 0 || sticky
  let half := 2 ^ k
  match rm with
  | .rtz => false
  | .rup => inexact && !neg
  | .rdn => inexact && neg
  | .rne => decide (half < 2 * rem) || (2 * rem == half && k != 0 && (sticky || n % 2 == 1))
  | .rna => decide (half ≤ 2 * rem) && k != 0
  | .sto =>
    -- above a draw: high is the neighbour above x, which is nearer zero for a negative x
    if !inexact then false
    else if !neg then
      decide (draw * half < rem * 2 ^ 32) || (draw * half == rem * 2 ^ 32 && sticky)
    else
      -- (x − low) / (high − low) = 1 − (rem + tail) / half
      !(decide (draw * half + rem * 2 ^ 32 < half * 2 ^ 32))

/-- Round m · 2^e, plus a tail below one unit of it when `sticky`, onto a format's grid. -/
def Fp.roundMag (f : Fp) (rm : Rm) (draw : Nat) (neg : Bool) (m : Nat) (e : Int) (sticky : Bool) : Rounding :=
  if m = 0 && !sticky then ⟨0, false, false, false⟩
  else
    let top : Int := e + (bitLen m : Int) - 1
    let q : Int := max (top - (f.frac : Int)) f.qmin
    let up := (e - q).toNat
    let k := (q - e).toNat
    let n := m * 2 ^ up / 2 ^ k
    let rem := m * 2 ^ up % 2 ^ k
    let away := roundsAway rm draw neg n rem k sticky
    { code := (q - f.qmin).toNat * 2 ^ f.frac + n + (if away then 1 else 0)
      inexact := rem != 0 || sticky
      tiny := decide (top < 1 - (f.bias : Int))
      away := away }

/-- Magnitude and flags of an arithmetic rounding (03 R95, R97). -/
def Fp.roundArith (f : Fp) (rm : Rm) (draw : Nat) (neg : Bool) (m : Nat) (e : Int) (sticky : Bool) : Nat × Flags :=
  let r := f.roundMag rm draw neg m e sticky
  if f.maxCode < r.code then
    let inf :=
      match rm with
      | .rne | .rna => true
      | .rtz => false
      | .rup => !neg
      | .rdn => neg
      | .sto => r.away || !r.inexact
    (f.signBit neg + (if inf then f.infCode else f.maxCode), Flags.overflow ||| Flags.inexact)
  else
    (f.signBit neg + r.code,
      if r.inexact then (if r.tiny then Flags.inexact ||| Flags.underflow else Flags.inexact) else Flags.none)

/-- Round a magnitude to an integer. -/
def roundInt (rm : Rm) (draw : Nat) (neg : Bool) (m : Nat) (e : Int) : Nat × Bool :=
  let up := e.toNat
  let k := (-e).toNat
  let n := m * 2 ^ up / 2 ^ k
  let rem := m * 2 ^ up % 2 ^ k
  (if roundsAway rm draw neg n rem k false then n + 1 else n, rem != 0)

/-! ## Arithmetic (03 R103) -/

/-- An exact value m · 2^e with the sign that an exact zero takes. -/
structure Dyadic where
  m : Int
  e : Int
  deriving DecidableEq, Repr

def Dyadic.add (x y : Dyadic) : Dyadic :=
  let e := min x.e y.e
  ⟨x.m * ((2 ^ (x.e - e).toNat : Nat) : Int) + y.m * ((2 ^ (y.e - e).toNat : Nat) : Int), e⟩

def Dyadic.mul (x y : Dyadic) : Dyadic := ⟨x.m * y.m, x.e + y.e⟩

def Dyadic.ofFin (neg : Bool) (m : Nat) (e : Int) : Dyadic := ⟨if neg then -(m : Int) else (m : Int), e⟩

/-- Compare two exact values. -/
def Dyadic.lt (x y : Dyadic) : Bool := decide ((Dyadic.add x ⟨-y.m, y.e⟩).m < 0)

/-- Arithmetic rounding of an exact value; `zeroNeg` is the sign of an exact zero. -/
def Fp.roundDyadic (f : Fp) (rm : Rm) (draw : Nat) (zeroNeg : Bool) (x : Dyadic) : Nat × Flags :=
  if x.m = 0 then (f.signBit zeroNeg, Flags.none)
  else f.roundArith rm draw (decide (x.m < 0)) x.m.natAbs x.e false

/-- The result when a source is a NaN: the first in order, its code unchanged; INVALID when it is signalling. -/
def Fp.firstNan (f : Fp) (codes : List Nat) : Option (Nat × Flags) :=
  match codes.find? (fun c => (f.decode c).isNan) with
  | some c => some (c, if f.signalling c then Flags.invalid else Flags.none)
  | none => none

def Fp.invalid (f : Fp) : Nat × Flags := (f.defaultNan, Flags.invalid)

/-- Sign of a sum that is exactly zero, given the signs of its two addends when both are zeros. -/
def zeroSumSign (rm : Rm) (bothZero : Bool) (s t : Bool) : Bool :=
  if bothZero && s == t then s else rm == .rdn

/-- a + b. -/
def Fp.add (f : Fp) (rm : Rm) (draw : Nat) (a b : Nat) : Nat × Flags :=
  match f.firstNan [a, b] with
  | some r => r
  | none =>
    match f.decode a, f.decode b with
    | .inf s, .inf t => if s == t then (f.signBit s + f.infCode, Flags.none) else f.invalid
    | .inf s, _ => (f.signBit s + f.infCode, Flags.none)
    | _, .inf t => (f.signBit t + f.infCode, Flags.none)
    | .fin s m e, .fin t n g =>
      f.roundDyadic rm draw (zeroSumSign rm (m == 0 && n == 0) s t) (Dyadic.add (.ofFin s m e) (.ofFin t n g))
    | _, _ => f.invalid

/-- The code with its sign inverted. -/
def Fp.negate (f : Fp) (a : Nat) : Nat :=
  if a.testBit (f.exp + f.frac) then a - f.signBit true else a + f.signBit true

/-- a − b: a NaN keeps its code. -/
def Fp.sub (f : Fp) (rm : Rm) (draw : Nat) (a b : Nat) : Nat × Flags :=
  match f.firstNan [a, b] with
  | some r => r
  | none => f.add rm draw a (f.negate b)

/-- a · b. -/
def Fp.mul (f : Fp) (rm : Rm) (draw : Nat) (a b : Nat) : Nat × Flags :=
  match f.firstNan [a, b] with
  | some r => r
  | none =>
    match f.decode a, f.decode b with
    | .inf s, .inf t => (f.signBit (s != t) + f.infCode, Flags.none)
    | .inf s, .fin t n _ => if n = 0 then f.invalid else (f.signBit (s != t) + f.infCode, Flags.none)
    | .fin s m _, .inf t => if m = 0 then f.invalid else (f.signBit (s != t) + f.infCode, Flags.none)
    | .fin s m e, .fin t n g =>
      f.roundDyadic rm draw (s != t) (Dyadic.mul (.ofFin s m e) (.ofFin t n g))
    | _, _ => f.invalid

/-- a · b + c with one rounding; `np` negates the product and `nc` the addend, after the NaN rule. -/
def Fp.fma (f : Fp) (rm : Rm) (draw : Nat) (np nc : Bool) (a b c : Nat) : Nat × Flags :=
  match f.firstNan [a, b, c] with
  | some r => r
  | none =>
    let sumInf (s : Bool) : Nat × Flags :=
      match f.decode c with
      | .inf t => if s == (t != nc) then (f.signBit s + f.infCode, Flags.none) else f.invalid
      | _ => (f.signBit s + f.infCode, Flags.none)
    match f.decode a, f.decode b with
    | .inf s, .inf t => sumInf ((s != t) != np)
    | .inf s, .fin t n _ => if n = 0 then f.invalid else sumInf ((s != t) != np)
    | .fin s m _, .inf t => if m = 0 then f.invalid else sumInf ((s != t) != np)
    | .fin s m e, .fin t n g =>
      let sp := (s != t) != np
      match f.decode c with
      | .inf u => (f.signBit (u != nc) + f.infCode, Flags.none)
      | .fin u k h =>
        let p := Dyadic.ofFin sp (m * n) (e + g)
        f.roundDyadic rm draw (zeroSumSign rm (m * n == 0 && k == 0) sp (u != nc)) (Dyadic.add p (.ofFin (u != nc) k h))
      | _ => f.invalid
    | _, _ => f.invalid

/-- a / b. -/
def Fp.div (f : Fp) (rm : Rm) (draw : Nat) (a b : Nat) : Nat × Flags :=
  match f.firstNan [a, b] with
  | some r => r
  | none =>
    match f.decode a, f.decode b with
    | .inf s, .fin t _ _ => (f.signBit (s != t) + f.infCode, Flags.none)
    | .fin s _ _, .inf t => (f.signBit (s != t), Flags.none)
    | .fin s m e, .fin t n g =>
      if n = 0 then
        if m = 0 then f.invalid else (f.signBit (s != t) + f.infCode, Flags.divzero)
      else if m = 0 then (f.signBit (s != t), Flags.none)
      else
        let k := f.frac + 45 + bitLen n - bitLen m
        f.roundArith rm draw (s != t) (m * 2 ^ k / n) (e - g - (k : Int)) (m * 2 ^ k % n != 0)
    | _, _ => f.invalid

/-- √a. -/
def Fp.sqrt (f : Fp) (rm : Rm) (draw : Nat) (a : Nat) : Nat × Flags :=
  match f.firstNan [a] with
  | some r => r
  | none =>
    match f.decode a with
    | .inf s => if s then f.invalid else (a, Flags.none)
    | .fin s m e =>
      if m = 0 then (a, Flags.none)
      else if s then f.invalid
      else
        let k := 2 * (f.frac + 45) + (if e % 2 = 0 then 0 else 1)
        let x := m * 2 ^ k
        let r := isqrt x
        f.roundArith rm draw false r ((e - (k : Int)) / 2) (r * r != x)
    | _ => f.invalid

/-- Order of two codes that are not NaN; the zeros are equal. -/
def Fp.cmp (f : Fp) (a b : Nat) : Ordering :=
  match f.decode a, f.decode b with
  | .inf s, .inf t => if s == t then .eq else if s then .lt else .gt
  | .inf s, _ => if s then .lt else .gt
  | _, .inf t => if t then .gt else .lt
  | .fin s m e, .fin t n g =>
    let d := (Dyadic.add (.ofFin s m e) (.ofFin (!t) n g)).m
    if d < 0 then .lt else if d = 0 then .eq else .gt
  | _, _ => .eq

/-! ## RNS64 (03 R92 to R94) -/

def rnsM : Nat := 2 ^ 63 - 2 ^ 21

/-- The canonical residues modulo 2^21 − 1, 2^21 and 2^21 + 1. -/
def rnsResidues (x : Nat) : Nat × Nat × Nat :=
  (x % 2 ^ 21 % (2 ^ 21 - 1), x / 2 ^ 21 % 2 ^ 21, x / 2 ^ 42 % 2 ^ 22 % (2 ^ 21 + 1))

def rnsPack (minus pow plus : Nat) : Nat := plus * 2 ^ 42 + pow * 2 ^ 21 + minus

/-- The canonical word of an integer class. -/
def rnsOfInt (x : Int) : Nat :=
  let v := (x % (rnsM : Int)).toNat
  rnsPack (v % (2 ^ 21 - 1)) (v % 2 ^ 21) (v % (2 ^ 21 + 1))

/-- The signed value (R94). -/
def rnsToInt (x : Nat) : Int :=
  let (m, p, q) := rnsResidues x
  let v := (m * 0x4000020000000000 + p * 0x7FFFFBFFFFE00001 + q * 0x400001FFFFE00000) % rnsM
  if 2 * v < rnsM then (v : Int) else (v : Int) - (rnsM : Int)

/-- DEDUCED: notes/assumptions/20.md. -/
def rnsAdd (x y : Nat) : Nat :=
  let (a, b, c) := rnsResidues x
  let (d, e, f) := rnsResidues y
  rnsPack ((a + d) % (2 ^ 21 - 1)) ((b + e) % 2 ^ 21) ((c + f) % (2 ^ 21 + 1))

/-- DEDUCED: notes/assumptions/20.md. -/
def rnsMul (x y : Nat) : Nat :=
  let (a, b, c) := rnsResidues x
  let (d, e, f) := rnsResidues y
  rnsPack (a * d % (2 ^ 21 - 1)) (b * e % 2 ^ 21) (c * f % (2 ^ 21 + 1))

/-! ## Integer formats -/

/-- FMT codes 7 to 13 whose values are signed (03 R86). -/
def fmtSigned (fmt : Nat) : Bool := fmt == 7 || fmt == 9 || fmt == 11 || fmt == 13

def intWidth (fmt : Nat) : Nat :=
  match fmt with
  | 7 | 8 => 8
  | 9 | 10 => 16
  | 11 | 12 => 32
  | _ => 64

/-- Value of an integer code. -/
def intValue (fmt code : Nat) : Int :=
  if fmtSigned fmt then toSigned (intWidth fmt) code else ((code % 2 ^ intWidth fmt : Nat) : Int)

def intMin (fmt : Nat) : Int := if fmtSigned fmt then -((2 ^ (intWidth fmt - 1) : Nat) : Int) else 0

def intMax (fmt : Nat) : Int :=
  if fmtSigned fmt then ((2 ^ (intWidth fmt - 1) - 1 : Nat) : Int) else ((2 ^ intWidth fmt - 1 : Nat) : Int)

/-! ## Conversions (03 R98 to R102) -/

/-- The value of a code of FMT 0 to 14, with the fraction width of a NaN's source format. -/
def numValue (fmt code : Nat) : FpVal :=
  if fmt < 7 then (Fp.ofFmt fmt).decode code
  else
    let x := if fmt < 14 then intValue fmt code else rnsToInt code
    .fin (decide (x < 0)) x.natAbs 0

/-- A NaN carried into a floating-point format (R99). -/
def nanInto (srcFmt dstFmt : Nat) (neg : Bool) (frac : Nat) : Nat :=
  let s := Fp.ofFmt srcFmt
  let d := Fp.ofFmt dstFmt
  match d.kind with
  | .ieee =>
    let x := if s.frac ≤ d.frac then frac * 2 ^ (d.frac - s.frac) else frac / 2 ^ (s.frac - d.frac)
    d.signBit neg + d.infCode + (if x = 0 then 1 else x)
  | _ => d.signBit neg + 0x7F

/-- Convert a value into a format; `none` is the range error of R101, with whether the source was a NaN left to the
caller. -/
def convertValue (srcFmt dstFmt : Nat) (rm : Rm) (sat : Bool) (draw : Nat) (v : FpVal) : Option (Nat × Flags) :=
  let beyond := Flags.overflow ||| Flags.inexact
  if dstFmt < 7 then
    let d := Fp.ofFmt dstFmt
    match v with
    | .nan neg frac => if d.kind == .e2m1 then none else some (nanInto srcFmt dstFmt neg frac, Flags.none)
    | .inf neg =>
      if d.kind == .ieee then some (d.signBit neg + d.infCode, Flags.none)
      else if sat then some (d.signBit neg + d.maxCode, beyond) else none
    | .fin neg m e =>
      if m = 0 then some (d.signBit neg, Flags.none)
      else
        let r := d.roundMag rm draw neg m e false
        if d.maxCode < r.code then
          if sat then some (d.signBit neg + d.maxCode, beyond) else none
        else some (d.signBit neg + r.code,
          if r.inexact then (if r.tiny then Flags.inexact ||| Flags.underflow else Flags.inexact) else Flags.none)
  else if dstFmt < 14 then
    match v with
    | .nan _ _ => none
    | .inf neg =>
      if sat then some (ofInt (intWidth dstFmt) (if neg then intMin dstFmt else intMax dstFmt), beyond) else none
    | .fin neg m e =>
      let (n, inexact) := roundInt rm draw neg m e
      let x : Int := if neg then -(n : Int) else (n : Int)
      if x < intMin dstFmt then (if sat then some (ofInt (intWidth dstFmt) (intMin dstFmt), beyond) else none)
      else if intMax dstFmt < x then (if sat then some (ofInt (intWidth dstFmt) (intMax dstFmt), beyond) else none)
      else some (ofInt (intWidth dstFmt) x, if inexact then Flags.inexact else Flags.none)
  else
    match v with
    | .fin neg m e =>
      let (n, inexact) := roundInt rm draw neg m e
      some (rnsOfInt (if neg then -(n : Int) else (n : Int)), if inexact then Flags.inexact else Flags.none)
    | _ => none

/-- Convert a code between two formats of FMT 0 to 14. -/
def convert (srcFmt dstFmt : Nat) (rm : Rm) (sat : Bool) (draw code : Nat) : Option (Nat × Flags) :=
  convertValue srcFmt dstFmt rm sat draw (numValue srcFmt code)

/-! ## Transcendentals (03 R112 to R114) -/

/-- An exact positive power of two in a format, if representable. -/
def Fp.powerOfTwo (f : Fp) (neg : Bool) (e : Int) : Option Nat :=
  let r := f.roundMag .rne 0 neg 1 e false
  if r.inexact || f.maxCode < r.code then none else some (f.signBit neg + r.code)

/-- p as a pattern between two magnitude codes, else the lower one. -/
def clampCode (lo hi p : Nat) : Nat := if lo ≤ p ∧ p ≤ hi then p else lo

/-- Exponent of the highest bit of m · 2^e. -/
def topExp (m : Nat) (e : Int) : Int := e + (bitLen m : Int) - 1

/-- The exponent t with m · 2^e = 2^t, when there is one. -/
def exactLog (m : Nat) (e : Int) : Option Int :=
  if m = 2 ^ (bitLen m - 1) && m != 0 then some (topExp m e) else none

/-- Flags of a result that differs from the exact value: tiny when the exact magnitude lies below the smallest normal. -/
def inexactFlags (tiny : Bool) : Flags := if tiny then Flags.inexact ||| Flags.underflow else Flags.inexact

/-- Exponent of the highest bit of the values just below m · 2^e. -/
def topBelow (m : Nat) (e : Int) : Int := if (exactLog m e).isSome then topExp m e - 1 else topExp m e

/-- The magnitude codes within n ulp of every value from lo · 2^g up to, and not at, hi · 2^g: the ulp is that of R112 at the exact
result, the smaller where a power of two lies between; a bound below zero is zero. -/
def Fp.ulpRange (f : Fp) (n lo hi : Nat) (g : Int) : Nat × Nat :=
  let q : Int := max (topExp lo g - (f.frac : Int)) f.qmin
  let u : Int := min g q
  let a := lo * 2 ^ (g - u).toNat
  let b := hi * 2 ^ (g - u).toNat
  let d := n * 2 ^ (q - u).toNat
  ((if b ≤ d then 0 else (f.roundMag .rup 0 false (b - d) u false).code),
    (f.roundMag .rtz 0 false (a + d) u false).code)

/-- A result within n ulp of an inexact value from lo · 2^g up to, and not at, hi · 2^g: the pattern that the device has for the
source (R114).  A value beyond the range overflows (R95); one below the smallest normal is tiny (R97).  DESIGN CHOICE: notes/assumptions/19.md. -/
def Fp.within (f : Fp) (fn fmt code n : Nat) (neg : Bool) (lo hi : Nat) (g : Int) : Nat × Flags :=
  let beyond := Flags.overflow ||| Flags.inexact
  if f.maxCode < (f.roundMag .rtz 0 false lo g false).code then (f.signBit neg + f.infCode, beyond)
  else
    let r := f.ulpRange n lo hi g
    let p := clampCode (min r.1 f.infCode) (min r.2 f.infCode) (Config.transcendental fn fmt code)
    (f.signBit neg + p, if p = f.infCode then beyond else inexactFlags (decide (topBelow hi g < 1 - (f.bias : Int))))

/-- VRCP of a finite nonzero value: exact at powers of two within range, else within one ulp.  DESIGN CHOICE: notes/assumptions/19.md. -/
def Fp.recip (f : Fp) (fmt code : Nat) (neg : Bool) (m : Nat) (e : Int) : Nat × Flags :=
  let k := f.frac + 45 + bitLen m
  let q := 2 ^ k / m
  let g : Int := -e - (k : Int)
  if 2 ^ k % m = 0 && !(f.roundMag .rtz 0 neg q g false).inexact then f.roundArith .rne 0 neg q g false
  else f.within 0 fmt code 1 neg q (q + 1) g

/-- VRSQ of a positive finite nonzero value: exact at even powers of two, else within one ulp.  DESIGN CHOICE: notes/assumptions/19.md. -/
def Fp.recipSqrt (f : Fp) (fmt code : Nat) (m : Nat) (e : Int) : Nat × Flags :=
  -- 1/√(m · 2^e) = √(2^(2k) / m) · 2^(−k − e/2) for an even e
  let odd : Nat := if e % 2 = 0 then 0 else 1
  let m' := m * 2 ^ odd
  let h : Int := (e - (odd : Int)) / 2
  let k := f.frac + 45 + bitLen m'
  let q := isqrt (2 ^ (2 * k) / m')
  let g : Int := -h - (k : Int)
  if q * q * m' = 2 ^ (2 * k) then f.roundArith .rne 0 false q g false else f.within 1 fmt code 1 false q (q + 1) g

/-! ### Bounds of 2^x, log2 x and e^x, by integers scaled by 2^160 -/

/-- Multiply in the factors 2^(2^−i) of a fraction's one bits, highest bit first, from below and from above: `clo` and `chi` bound
the factor of the next bit. -/
def pow2Steps (r : Nat) : Nat → Nat → Nat → Nat → Nat → Nat × Nat
  | 0, _, _, lo, hi => (lo, hi)
  | i + 1, clo, chi, lo, hi =>
    pow2Steps r i (isqrt (clo * 2 ^ 160)) (isqrt (chi * 2 ^ 160) + 1) (if r.testBit i then lo * clo / 2 ^ 160 else lo)
      (if r.testBit i then hi * chi / 2 ^ 160 + 1 else hi)

/-- Bounds of 2^x · 2^160 for every x from r / 2^128 to (r + 1) / 2^128, with r below 2^128. -/
def pow2Bounds (r : Nat) : Nat × Nat :=
  let b := pow2Steps r 128 (isqrt (2 ^ 321)) (isqrt (2 ^ 321) + 1) (2 ^ 160) (2 ^ 160)
  (b.1, b.2 + b.2 / 2 ^ 128 + 1)

/-- The bits of log2 of a value z / 2^192 from 1 to 2, by squaring: `up` keeps z from falling below the exact value. -/
def log2Steps (up : Bool) : Nat → Nat → Nat → Nat
  | 0, _, acc => acc
  | i + 1, z, acc =>
    let w := if up then (z * z + 2 ^ 192 - 1) / 2 ^ 192 else z * z / 2 ^ 192
    if 2 ^ 193 ≤ w then log2Steps up i (if up then (w + 1) / 2 else w / 2) (2 * acc + 1) else log2Steps up i w (2 * acc)

/-- log2 e · 2^192, rounded down. -/
def log2e : Nat := 0x171547652b82fe1777d0ffda0d23a7d11d6aef551bad2b4b1

/-- Bounds of e^(m · 2^e) · 2^160. -/
def expBounds (m : Nat) (e : Int) : Nat × Nat :=
  let k := (64 - e).toNat
  let up := (e - 64).toNat
  let lo := m * log2e * 2 ^ up / 2 ^ k
  let hi := m * (log2e + 1) * 2 ^ up / 2 ^ k + 1
  ((pow2Bounds (lo % 2 ^ 128)).1 * 2 ^ (lo / 2 ^ 128), (pow2Bounds (hi % 2 ^ 128)).2 * 2 ^ (hi / 2 ^ 128))

/-- VEXP2 of a finite x: exact at the integers, else within two ulp.  DESIGN CHOICE: notes/assumptions/19.md. -/
def Fp.exp2 (f : Fp) (fmt code : Nat) (neg : Bool) (m : Nat) (e : Int) : Nat × Flags :=
  let up := (e + 128).toNat
  let k := (-(e + 128)).toNat
  let x : Int := (if neg then -(m : Int) else (m : Int)) * ((2 ^ up : Nat) : Int)
  let y := x / ((2 ^ k : Nat) : Int)
  let fl := y / ((2 ^ 128 : Nat) : Int)
  let r := (y % ((2 ^ 128 : Nat) : Int)).toNat
  if (f.bias : Int) < fl then (f.infCode, Flags.overflow ||| Flags.inexact)
  else if fl < f.qmin - 1 then (clampCode 0 2 (Config.transcendental 2 fmt code), Flags.inexact ||| Flags.underflow)
  else if r = 0 && x % ((2 ^ k : Nat) : Int) = 0 && !(f.roundMag .rtz 0 false 1 fl false).inexact then
    f.roundArith .rne 0 false 1 fl false
  else f.within 2 fmt code 2 false (pow2Bounds r).1 (min (pow2Bounds r).2 (2 ^ 161)) (fl - 160)

/-- VLOG2 of a positive finite nonzero value: exact at the powers of two, else within two ulp.  DESIGN CHOICE: notes/assumptions/19.md. -/
def Fp.log2 (f : Fp) (fmt code : Nat) (m : Nat) (e : Int) : Nat × Flags :=
  match exactLog m e with
  | some t => f.roundDyadic .rne 0 false ⟨t, 0⟩
  | none =>
    let t := topExp m e
    let z := m * 2 ^ (193 - bitLen m)
    let lo := log2Steps false 160 z 0
    let hi := log2Steps true 160 z 0 + 1
    let n := t.natAbs * 2 ^ 160
    if t < 0 then f.within 3 fmt code 2 true (n - hi) (n - lo) (-160) else f.within 3 fmt code 2 false (n + lo) (n + hi) (-160)

/-- VSIGM of a finite nonzero value: within three ulp of 1/(1 + e^−x).  DESIGN CHOICE: notes/assumptions/19.md. -/
def Fp.sigm (f : Fp) (fmt code : Nat) (neg : Bool) (m : Nat) (e : Int) : Nat × Flags :=
  let one := 2 ^ 160
  if 8 ≤ topExp m e then
    (if neg then f.within 4 fmt code 3 false 0 1 (-300) else f.within 4 fmt code 3 false (2 ^ 300 - 1) (2 ^ 300) (-300))
  else
    let b := expBounds m e
    if neg then f.within 4 fmt code 3 false (2 ^ 680 / (b.2 + one)) (2 ^ 680 / (b.1 + one) + 1) (-520)
    else f.within 4 fmt code 3 false (b.1 * one / (b.1 + one)) (b.2 * one / (b.2 + one) + 1) (-160)

/-- VTANH of a finite nonzero value: within three ulp, with the sign of its source.  DESIGN CHOICE: notes/assumptions/19.md. -/
def Fp.tanh (f : Fp) (fmt code : Nat) (neg : Bool) (m : Nat) (e : Int) : Nat × Flags :=
  let one := 2 ^ 160
  if 8 ≤ topExp m e then f.within 5 fmt code 3 neg (2 ^ 300 - 1) (2 ^ 300) (-300)
  else if topExp m e < -32 then f.within 5 fmt code 3 neg (m * (2 ^ 64 - 1)) (m * 2 ^ 64) (e - 64)
  else
    let b := expBounds m (e + 1)
    f.within 5 fmt code 3 neg ((b.1 - one) * one / (b.1 + one)) ((b.2 - one) * one / (b.2 + one) + 1) (-160)

/-- The forms of OP 0x21 on one element.  DESIGN CHOICE: notes/assumptions/19.md. -/
def transcendental (fn fmt code : Nat) : Nat × Flags :=
  let f := Fp.ofFmt fmt
  match f.firstNan [code] with
  | some r => r
  | none =>
    match fn, f.decode code with
    | 0, .inf s => (f.signBit s, Flags.none)
    | 0, .fin s m e => if m = 0 then (f.signBit s + f.infCode, Flags.divzero) else f.recip fmt code s m e
    | 1, .inf s => if s then f.invalid else (0, Flags.none)
    | 1, .fin s m e =>
      if m = 0 then (f.signBit s + f.infCode, Flags.divzero)
      else if s then f.invalid else f.recipSqrt fmt code m e
    | 2, .inf s => (if s then 0 else f.infCode, Flags.none)
    | 2, .fin s m e => f.exp2 fmt code s m e
    | 3, .inf s => if s then f.invalid else (f.infCode, Flags.none)
    | 3, .fin s m e =>
      if m = 0 then (f.signBit true + f.infCode, Flags.divzero)
      else if s then f.invalid else f.log2 fmt code m e
    | 4, .inf s => (if s then 0 else (f.roundMag .rne 0 false 1 0 false).code, Flags.none)
    | 4, .fin s m e =>
      if m = 0 then ((f.roundMag .rne 0 false 1 (-1) false).code, Flags.none) else f.sigm fmt code s m e
    | 5, .inf s => (f.signBit s + (f.roundMag .rne 0 false 1 0 false).code, Flags.none)
    | 5, .fin s m e => if m = 0 then (code, Flags.none) else f.tanh fmt code s m e
    | _, _ => f.invalid

end Sys2Proof.Machine
end

