-- ==== Sys2Proof/Machine/Memory.lean ====
section
/-!
DEFINITION. Machine/Memory.lean: the bytes, tags, poison and full/empty bits of the package and the order in which its
dies see writes (08 R244 to R257, 01 R43, 05 R149, 13 R360).  Everything here acts on physical keys: an HBM byte is keyed
by its physical address [40:0], a view byte by its physical address with VIEW = 1, and a store byte by its absolute
aperture address [49:0].
-/

namespace Sys2Proof.Machine

/-! ## Canonical lists -/

/-- What an unlisted byte reads as (R46 for the stores; notes/assumptions/4.md for HBM). -/
def unlisted : Byte := 0#8

/-- The byte listed at a key.  DESIGN CHOICE: notes/assumptions/4.md. -/
def cellGet (cs : List Host.Cell) (k : Nat) : Byte :=
  match cs with
  | [] => unlisted
  | (a, b) :: rest => if a = k then b else cellGet rest k

/-- List a byte at a key, or remove the entry when it equals what an unlisted key reads as.  DESIGN CHOICE: notes/assumptions/4.md. -/
def cellPut (cs : List Host.Cell) (k : Nat) (x : Byte) : List Host.Cell :=
  match cs with
  | [] => if x = unlisted then [] else [(k, x)]
  | (a, b) :: rest =>
    if a < k then (a, b) :: cellPut rest k x
    else if a = k then (if x = unlisted then rest else (k, x) :: rest)
    else if x = unlisted then (a, b) :: rest else (k, x) :: (a, b) :: rest

/-- Keys strictly rising and no entry that an unlisted key would read as.  DESIGN CHOICE: notes/assumptions/4.md. -/
def cellsWf (cs : List Host.Cell) : Bool :=
  match cs with
  | [] => true
  | [(_, b)] => b != unlisted
  | (a, b) :: (c, d) :: rest => decide (a < c) && b != unlisted && cellsWf ((c, d) :: rest)

def setHas (xs : List Nat) (k : Nat) : Bool := xs.contains k

/-- Add a number to a strictly rising list. -/
def setAdd (xs : List Nat) (k : Nat) : List Nat :=
  match xs with
  | [] => [k]
  | a :: rest => if a < k then a :: setAdd rest k else if a = k then a :: rest else k :: a :: rest

def setDrop (xs : List Nat) (k : Nat) : List Nat := xs.filter (· != k)

/-- Strictly rising. -/
def setWf (xs : List Nat) : Bool :=
  match xs with
  | [] => true
  | [_] => true
  | a :: b :: rest => decide (a < b) && setWf (b :: rest)

/-- The canonical form of memory.  DESIGN CHOICE: notes/assumptions/4.md. -/
def Memory.wf (m : Memory) : Bool := cellsWf m.cells && setWf m.tags && setWf m.poison && setWf m.full

/-! ## Keys -/

/-- First key of the store apertures (R241). -/
def apertureBase : Nat := 0x3FF0000000000

def keyIsStore (k : Nat) : Bool := decide (apertureBase ≤ k)

def keyIsView (k : Nat) : Bool := decide (2 ^ 41 ≤ k) && !(keyIsStore k)

/-- Absolute cluster-store key (R242). -/
def clusterKey (die cluster offset : Nat) : Nat :=
  apertureBase + 2 * 2 ^ 38 + die * 2 ^ 28 + cluster * 2 ^ 22 + offset

/-- Absolute core-store key (R242). -/
def coreKey (die cluster core offset : Nat) : Nat :=
  apertureBase + 3 * 2 ^ 38 + die * 2 ^ 28 + cluster * 2 ^ 21 + core * 2 ^ 18 + offset

def keyIsCluster (k : Nat) : Bool := keyIsStore k && k / 2 ^ 38 % 4 == 2

def keyIsCore (k : Nat) : Bool := keyIsStore k && k / 2 ^ 38 % 4 == 3

/-- Bytes of HBM on a die (R244). -/
def hbmPerDie : Nat := 0x5000000000

/-! ## Visibility (R255 to R257) -/

/-- An eye is among the agents that a write is shown to. -/
def Viewer.sees (v : Viewer) (e : Eye) : Bool :=
  match v with
  | .agent f => e.who == f
  | .core p => e.core == p
  | .cluster l d c => e.core.lupin == l && e.core.die == d && e.core.cluster == c
  | .band c b => e.who.ctx == c && e.who.band == b

/-- A write that an eye does not see yet. -/
def DieWrite.hidden (w : DieWrite) (e : Eye) : Bool := w.toDie == e.die && !(w.shown.any (·.sees e))

/-- A write touches a key, or a granule. -/
def DieWrite.atKey (w : DieWrite) (k : Nat) : Bool := w.before.any (fun c => c.1 == k)

def DieWrite.atGrain (w : DieWrite) (g : Nat) : Bool := w.tags.any (fun x => x.1 == g)

/-- The write whose older contents an eye still sees, of those to one place in their order: the first after the last that it
sees. -/
def firstHidden (e : Eye) (ws : List DieWrite) : Option DieWrite :=
  ws.foldl (fun r w => if w.hidden e then r.or (some w) else none) none

/-- The writes to a die that touch a place, in their order. -/
def Memory.lying (m : Memory) (e : Eye) (touches : DieWrite → Bool) : List DieWrite :=
  m.unseen.filter (fun w => w.toDie == e.die && touches w)

/-- The byte at a key that an eye sees, where `base` is the newest.  DEDUCED: notes/assumptions/7.md. -/
def Memory.seenOr (m : Memory) (e : Eye) (k : Nat) (base : Byte) : Byte :=
  match (firstHidden e (m.lying e (·.atKey k))).bind (fun w => w.before.find? (fun c => c.1 == k)) with
  | some c => c.2
  | none => base

/-- The stored byte at a key that an eye sees; the bytes of a store stand there for every eye (R247, R248). -/
def Memory.seen (m : Memory) (e : Eye) (k : Nat) : Byte :=
  if keyIsStore k then cellGet m.cells k else m.seenOr e k (cellGet m.cells k)

/-- The tag of a granule that an eye sees: it goes with the bytes (08 R254). -/
def Memory.seenTag (m : Memory) (e : Eye) (g : Nat) : Bool :=
  let newest := setHas m.tags g
  if keyIsStore (16 * g) then newest
  else
    match (firstHidden e (m.lying e (·.atGrain g))).bind (fun w => w.tags.find? (fun x => x.1 == g)) with
    | some x => x.2
    | none => newest

def clockOf (cs : List (List Nat)) (die : Nat) : List Nat := cs.getD die []

/-! A clock's first five entries count the writes of the dies and the hub (R257).  The numbers after them name the writes that it
does not cover although its entries reach them: write n of die d is n * 8 + d. -/

/-- A clock covers write n of a die. -/
def clockHas (c : List Nat) (die n : Nat) : Bool := decide (n ≤ c.getD die 0) && !((c.drop 5).contains (n * 8 + die))

/-- A write's number among those of its die. -/
def DieWrite.number (w : DieWrite) : Nat := w.clock.getD w.fromDie 0

/-- A clock covers a write. -/
def DieWrite.covered (w : DieWrite) (c : List Nat) : Bool := clockHas c w.fromDie w.number

/-- The clock that covers what either of two does. -/
def clockMerge (a b : List Nat) : List Nat :=
  let left (c d : List Nat) := (c.drop 5).filter (fun x => !(clockHas d (x % 8) (x / 8)))
  (List.range 5).map (fun j => max (a.getD j 0) (b.getD j 0)) ++ left a b ++ (left b a).filter (fun x => !((left a b).contains x))

/-- The entries of a die's clock once it has come to a write's. -/
def clockRaise (a b : List Nat) : List Nat := (List.range 5).map (fun j => max (a.getD j 0) (b.getD j 0))

/-- What an eye's die has applied, its own writes and what else it sees (R257).  DEDUCED: notes/assumptions/7.md. -/
def Memory.clockAt (m : Memory) (e : Eye) : List Nat :=
  let c := clockRaise (clockOf m.clocks e.die) []
  c ++ (m.unseen.filter (fun w => w.hidden e && decide (w.number ≤ c.getD w.fromDie 0))).map (fun w => w.number * 8 + w.fromDie)

/-- Drop keys and granules from what a die still sees under a write. -/
def DieWrite.hide (w : DieWrite) (keys grains : List Nat) : DieWrite :=
  { w with
    before := w.before.filter (fun c => !(keys.contains c.1))
    tags := w.tags.filter (fun x => !(grains.contains x.1))
    passed := w.passed ++ (w.before.filter (fun c => keys.contains c.1)).map (·.1) }

/-- Drop keys and granules from what a die still sees under earlier writes. -/
def hideKeys (die : Nat) (keys grains : List Nat) (ws : List DieWrite) : List DieWrite :=
  ws.map (fun w => if w.toDie = die then w.hide keys grains else w)

/-- The writes that stay unseen when the selected ones are applied; what those overwrite of earlier ones is hidden from then on. -/
def applySelected (sel : DieWrite → Bool) (ws : List DieWrite) : List DieWrite :=
  match ws with
  | [] => []
  | w :: rest =>
    let rest' := applySelected sel rest
    if sel w then rest'
    else ((rest.filter (fun x => sel x && x.toDie == w.toDie)).foldl
      (fun y x => y.hide (x.before.map (·.1)) (x.tags.map (·.1))) w) :: rest'

/-- A write to the same die as a wanted one that carries its clock: it comes before it, or is part of it. -/
def Memory.precedes (m : Memory) (want : DieWrite → Bool) (w : DieWrite) : Bool :=
  m.unseen.any (fun t => want t && t.toDie == w.toDie && (t.id == w.id || w.covered t.clock))

/-- Make the writes that satisfy `want` visible to some agents, or to all of their dies, each after every write to its die that
its clock covers.  DEDUCED: notes/assumptions/7.md. -/
def Memory.applyWhere (m : Memory) (viewer : Option Viewer) (want : DieWrite → Bool) : Memory :=
  { m with
    unseen := match viewer with
      | none => applySelected (m.precedes want) m.unseen
      | some v => m.unseen.map (fun w => if m.precedes want w && !(w.shown.contains v) then { w with shown := w.shown ++ [v] } else w)
    clocks := (m.unseen.filter (m.precedes want)).foldl
      (fun cs w => cs.set w.toDie (clockRaise (clockOf cs w.toDie) w.clock)) m.clocks }

/-- Issue the clock of a new write of an eye. -/
def Memory.tick (m : Memory) (e : Eye) : Memory × List Nat :=
  let c := m.clockAt e
  let n := c.getD e.die 0 + 1
  ({ m with clocks := m.clocks.set e.die ((clockOf m.clocks e.die).set e.die n) }, c.set e.die n)

/-- A write touches one of n bytes at a key. -/
def DieWrite.within (w : DieWrite) (k n : Nat) : Bool := w.before.any (fun c => decide (k ≤ c.1) && decide (c.1 < k + n))

/-- A die has applied everything before a write: it may make it visible. -/
def Memory.ready (m : Memory) (w : DieWrite) : Bool :=
  !(m.unseen.any (fun x => x.toDie == w.toDie && x.id != w.id && x.covered w.clock))

/-- A write comes to its die, late or at once; at once, it hides the keys and granules that the die still saw older. -/
def Memory.offer (m : Memory) (w : DieWrite) (late : Bool) : Memory :=
  if late then { m with unseen := m.unseen ++ [w] }
  else
    { m with
      unseen := hideKeys w.toDie (w.before.map (·.1)) (w.tags.map (·.1)) m.unseen
      clocks := m.clocks.set w.toDie (clockRaise (clockOf m.clocks w.toDie) w.clock) }

/-- Let the dies and the hub see a write with clock `c`, except the dies in `late` and those that have not applied
everything before it.  Its own thread sees it at once.  DEDUCED: notes/assumptions/7.md. -/
def Memory.publish (m : Memory) (e : Eye) (late : List Nat) (id : Nat) (release : Option Nat) (c : List Nat)
    (before : List Host.Cell) (tags : List (Nat × Bool)) : Memory :=
  (List.range (max 5 (e.die + 1))).foldl
    (fun m d =>
      let w : DieWrite := ⟨id, d, e.die, e.who, e.core, release, c, if d = e.die then [.agent e.who] else [], before, tags, []⟩
      m.offer w (late.contains d || !(m.ready w)))
    m

/-- Every write that a clock covers becomes visible to some agents of a die (07 R232). -/
def Memory.applyClock (m : Memory) (die : Nat) (viewer : Option Viewer) (c : List Nat) : Memory :=
  m.applyWhere viewer (fun w => w.toDie == die && w.covered c)

/-! ## Stores (R247, R248) -/

/-- The releases performed at a byte of a store. -/
def Memory.releasedAt (m : Memory) (k : Nat) : List (Nat × Pos × List Nat) :=
  match m.storeClocks.find? (fun x => x.key == k) with
  | some x => x.releases
  | none => []

/-- A write to bytes of a store is performed at the store, with its issuer's clock; a release joins those before it (R258).
Nothing is kept when every write is visible. -/
def Memory.storeClock (m : Memory) (e : Eye) (k n : Nat) (release : Option Nat) : Memory :=
  let c := m.clockAt e
  let rest := m.storeClocks.filter (fun x => decide (x.key < k) || decide (k + n ≤ x.key))
  let mine := match release with
    | some scope => [(scope, e.core, c)]
    | none => []
  { m with storeClocks :=
      if m.unseen = [] then [] else rest ++ (List.range n).map (fun i => ⟨k + i, c, m.releasedAt (k + i) ++ mine⟩) }

/-- Who reads bytes of a store sees every write that the clocks of the writes they hold cover (R256). -/
def Memory.pullStore (m : Memory) (die : Nat) (viewer : Viewer) (k n : Nat) : Memory :=
  (m.storeClocks.filter (fun x => decide (k ≤ x.key) && decide (x.key < k + n))).foldl
    (fun m x => m.applyClock die (some viewer) x.clock) m

/-- The least scope that holds a core and an eye (00 R8). -/
def scopeTo (core : Pos) (e : Eye) : Nat :=
  if core == e.core then 0
  else if core.lupin == e.core.lupin && core.die == e.core.die && core.cluster == e.core.cluster then 1
  else if core.die == e.die then 2
  else 3

/-- An acquire of an eye at a scope follows releases, where both lie within the scope of either (R258). -/
def Memory.followReleases (m : Memory) (e : Eye) (scope : Nat) (rs : List (Nat × Pos × List Nat)) : Memory :=
  rs.foldl
    (fun m r =>
      if scopeTo r.2.1 e ≤ r.1 ∧ scopeTo r.2.1 e ≤ scope then m.applyClock e.die (some (.agent e.who)) r.2.2 else m) m

/-- The same for the releases performed at n bytes of a store. -/
def Memory.pullReleases (m : Memory) (e : Eye) (scope k n : Nat) : Memory :=
  m.followReleases e scope ((m.storeClocks.filter (fun x => decide (k ≤ x.key) && decide (x.key < k + n))).flatMap (·.releases))

/-! ## Lines held dirty (R249, 05 R152, 14 R379) -/

/-- A die's L2 holds a line dirty, over the bytes, tags and poison that HBM holds. -/
def Memory.touchLine (m : Memory) (die line : Nat) : Memory :=
  if m.dirty.any (fun d => d.line == line) then
    { m with dirty := m.dirty.map (fun d => if d.line = line then { d with die := die } else d) }
  else
    { m with dirty := m.dirty ++ [
      { line := line
        die := die
        zero := false
        cells := m.cells.filter (fun c => c.1 / 128 == line)
        tags := m.tags.filter (fun g => g / 8 == line)
        poison := m.poison.filter (fun g => g / 8 == line) }] }

/-- Write a line back to HBM: nothing is held under it any more. -/
def Memory.cleanLine (m : Memory) (line : Nat) : Memory :=
  { m with dirty := m.dirty.filter (fun d => d.line != line) }

/-- Change the ZERO flag of a line (R249). -/
def Memory.setZero (m : Memory) (line : Nat) (z : Bool → Bool) : Memory :=
  { m with dirty := m.dirty.map (fun d => if d.line = line then { d with zero := z d.zero } else d) }

/-! ## Raw writes -/

/-- Put bytes at consecutive keys. -/
def cellsPut (cs : List Host.Cell) (k : Nat) (bs : List Byte) : List Host.Cell :=
  match bs with
  | [] => cs
  | b :: rest => cellsPut (cellPut cs k b) (k + 1) rest

/-- The 16-byte granules that n bytes at a key touch. -/
def granules (k n : Nat) : List Nat :=
  if n = 0 then [] else (List.range ((k + n - 1) / 16 - k / 16 + 1)).map (· + k / 16)

/-- The granules that n bytes at a key cover whole. -/
def wholeGranules (k n : Nat) : List Nat := (granules k n).filter (fun g => decide (k ≤ 16 * g) && decide (16 * g + 16 ≤ k + n))

/-- The lines that n bytes at a key touch. -/
def linesOf (k n : Nat) : List Nat :=
  if n = 0 then [] else (List.range ((k + n - 1) / 128 - k / 128 + 1)).map (· + k / 128)

/-- First key and size of the part of n bytes at a key that lies in a line. -/
def linePart (k n line : Nat) : Nat × Nat :=
  let lo := max k (128 * line)
  (lo, min (k + n) (128 * line + 128) - lo)

/-- The bytes of a write that lie in a line. -/
def lineBytes (k line : Nat) (bs : List Byte) : List Byte :=
  let r := linePart k bs.length line
  (bs.drop (r.1 - k)).take r.2

/-- The ZERO flag of a line after a write to it (R249). -/
def zeroAfter (bs : List Byte) (zero : Bool) : Bool := if bs.all (· == 0#8) then zero || bs.length == 128 else false

/-- Write bytes as a die does: granule tags are cleared (01 R43), the poison of whole granules is replaced (13 R360), an HBM
line becomes dirty in the die's L2.  The hub (die 4) holds no line (08 R253): what it writes is in HBM.  Visibility is the
caller's.  DEDUCED: notes/assumptions/38.md. -/
def Memory.put (m : Memory) (die k : Nat) (bs : List Byte) : Memory :=
  let n := bs.length
  let m := if keyIsStore k then m
    else if 4 ≤ die then (linesOf k n).foldl Memory.cleanLine m
    else (linesOf k n).foldl (fun m l => (m.touchLine die l).setZero l (zeroAfter (lineBytes k l bs))) m
  { m with
    cells := cellsPut m.cells k bs
    tags := (granules k n).foldl setDrop m.tags
    poison := (wholeGranules k n).foldl setDrop m.poison }

/-- Poison a granule, of memory or of a view line that is held. -/
def Memory.setPoison (m : Memory) (g : Nat) : Memory :=
  if keyIsView (16 * g) then
    { m with views := m.views.map (fun v => if v.line = g / 8 then { v with poison := setAdd v.poison g } else v) }
  else { m with poison := setAdd m.poison g }

/-! ## Bytes and numbers -/

/-- The number that bytes hold, little-endian (00 R9). -/
def bytesNat (bs : List Byte) : Nat :=
  match bs with
  | [] => 0
  | b :: rest => b.toNat + 256 * bytesNat rest

/-- The n low bytes of a number. -/
def natBytes (n x : Nat) : List Byte :=
  match n with
  | 0 => []
  | k + 1 => BitVec.ofNat 8 x :: natBytes k (x / 256)

/-- The n bytes at a key that an eye sees. -/
def Memory.seenBytes (m : Memory) (e : Eye) (k n : Nat) : List Byte := (List.range n).map (fun i => m.seen e (k + i))

/-- The n bytes at a key in the write order of their locations. -/
def Memory.bytes (m : Memory) (k n : Nat) : List Byte := (List.range n).map (fun i => cellGet m.cells (k + i))

def Memory.word64 (m : Memory) (k : Nat) : DWord := BitVec.ofNat 64 (bytesNat (m.bytes k 8))

/-! ## Format windows (R250 to R252) -/

/-- The fields of an enabled window register. -/
structure Window where
  die : Nat
  sfmt : Nat
  vfmt : Nat
  sbase : Nat
  slength : Nat
  scaleBase : Nat
  vbase : Nat
  deriving DecidableEq, Repr

/-- DEDUCED: notes/assumptions/16.md. -/
def windowOf (die : Nat) (w : WindowWords) : Option Window :=
  if w.w0.getLsbD 63 then
    some { die := die
           sfmt := (w.w0.extractLsb' 61 2).toNat
           vfmt := (w.w0.extractLsb' 60 1).toNat
           sbase := (w.w0.extractLsb' 0 39).toNat
           slength := (w.w1.extractLsb' 0 39).toNat
           scaleBase := (w.w2.extractLsb' 0 39).toNat
           vbase := (w.w3.extractLsb' 0 39).toNat }
  else none

/-- The expansion factor X. -/
def Window.factor (w : Window) : Nat := (if w.sfmt = 0 then 4 else 2) * (if w.vfmt = 0 then 1 else 2)

/-- FMT codes of the stored and the view elements. -/
def Window.storedFmt (w : Window) : Nat := if w.sfmt = 0 then 6 else if w.sfmt = 1 then 4 else 7

def Window.viewFmt (w : Window) : Nat := if w.vfmt = 0 then 3 else 1

/-- The enabled windows of a die. -/
def Memory.dieWindows (m : Memory) (die : Nat) : List Window :=
  ((m.windows.drop (16 * die)).take 16).filterMap (windowOf die)

/-- The window that shows a view byte, by its die and offset. -/
def Memory.windowAt (m : Memory) (die off : Nat) : Option Window :=
  (m.dieWindows die).find? (fun w => decide (w.vbase ≤ off) && decide (off < w.vbase + w.slength * w.factor))

def keyDie (k : Nat) : Nat := k / 2 ^ 39 % 4
def keyOffset (k : Nat) : Nat := k % 2 ^ 39

/-- The window of a view key. -/
def Memory.windowOfKey (m : Memory) (k : Nat) : Option Window := m.windowAt (keyDie k) (keyOffset k)

/-- HBM key of the first stored byte that a view line shows. -/
def Window.storedKey (w : Window) (line : Nat) : Nat :=
  w.die * 2 ^ 39 + w.sbase + (line * 128 % 2 ^ 39 - w.vbase) / w.factor

/-- HBM key of the scale record of the block that a view line shows. -/
def Window.scaleKey (w : Window) (line : Nat) : Nat :=
  w.die * 2 ^ 39 + w.scaleBase + 16 * ((line * 128 % 2 ^ 39 - w.vbase) / w.factor / 128)

/-- Stored element j of a view line: its code, and the E8M0 byte of its block of 32. -/
def Window.element (w : Window) (read : Nat → Byte) (line j : Nat) : Nat × Nat :=
  let first := (line * 128 % 2 ^ 39 - w.vbase) / w.factor % 128
  if w.sfmt = 0 then
    let b := (read (w.storedKey line + j / 2)).toNat
    (if j % 2 = 0 then b % 16 else b / 16,
      (read (w.scaleKey line + 4 + (2 * first + j) / 32)).toNat)
  else ((read (w.storedKey line + j)).toNat, 127)

/-- The scale of a view line, from its record's bytes. -/
def Window.scaleOf (w : Window) (read : Nat → Byte) (line : Nat) : Nat :=
  bytesNat ((List.range 4).map (fun i => read (w.scaleKey line + i)))

/-- Decode one element (R251): a NaN code decodes to the default NaN whatever its sign, as R251 says against 03 R99.  DEDUCED:
notes/assumptions/16.md.  A product beyond the view format's largest finite value, for which the spec gives no result,
decodes to the infinity of its sign.  DESIGN CHOICE: notes/assumptions/16.md. -/
def windowDecode (w : Window) (code scale block : Nat) : Nat :=
  let vf := Fp.ofFmt w.viewFmt
  let v := numValue w.storedFmt code
  match v, (Fp.ofFmt 1).decode scale with
  | .fin s m e, .fin t n g =>
    if block = 0xFF then vf.defaultNan
    else
      (vf.roundDyadic .rne 0 (s != t)
        (Dyadic.mul (Dyadic.mul (.ofFin s m e) (.ofFin t n g)) ⟨1, (block : Int) - 127⟩)).1
  | .fin s m _, .inf t =>
    if block = 0xFF || m = 0 then vf.defaultNan else vf.signBit (s != t) + vf.infCode
  | _, _ => vf.defaultNan

/-- Encode one element (R251); where the spec gives no value, a free pattern.  DEDUCED: notes/assumptions/16.md. -/
def windowEncode (w : Window) (view scale block : Nat) : Nat :=
  let vf := Fp.ofFmt w.viewFmt
  let nanCode (neg : Bool) : Nat := if w.sfmt = 1 then (if neg then 0xFF else 0x7F) else 0
  let saturated (neg : Bool) : Nat :=
    match convertValue w.viewFmt w.storedFmt .rne true 0 (.inf neg) with
    | some r => r.1
    | none => 0
  let free := Config.windowEncode w.sfmt view scale block % 2 ^ (if w.sfmt = 0 then 4 else 8)
  match vf.decode view, (Fp.ofFmt 1).decode scale with
  | .nan neg _, _ => nanCode neg
  | _, .nan _ _ => free
  | .inf _, .inf _ => free
  | .fin s _ _, .inf t =>
    if block = 0xFF then free
    else
      match convertValue w.viewFmt w.storedFmt .rne true 0 (.fin (s != t) 0 0) with
      | some r => r.1
      | none => free
  | .inf s, .fin t _ _ => if block = 0xFF then free else saturated (s != t)
  | .fin s m e, .fin t n g =>
    if block = 0xFF then free
    else if n = 0 then saturated (s != t)
    else
      -- the quotient to 64 significant bits and a sticky bit that no rounding of the stored formats can miss
      let k := 64 + bitLen n
      let q := 2 * (m * 2 ^ k / n) + (if m * 2 ^ k % n = 0 then 0 else 1)
      match convertValue w.viewFmt w.storedFmt .rne true 0
          (.fin (s != t) q (e - g - (k : Int) - 1 - ((block : Int) - 127))) with
      | some r => r.1
      | none => free

/-- Elements of one view line. -/
def Window.count (w : Window) : Nat := if w.vfmt = 0 then 64 else 32

/-- The 128 decoded bytes of a view line, from stored bytes. -/
def Window.decodeLine (w : Window) (read : Nat → Byte) (line : Nat) : List Byte :=
  let scale := w.scaleOf read line
  let width := 128 / w.count
  (List.range w.count).flatMap (fun j =>
    let x := w.element read line j
    natBytes width (windowDecode w x.1 scale x.2))

/-- The stored bytes that a view line encodes to. -/
def Memory.encodeLine (m : Memory) (w : Window) (line : Nat) (bs : List Byte) : List Byte :=
  let scale := w.scaleOf (cellGet m.cells) line
  let width := 128 / w.count
  let codes := (List.range w.count).map (fun j =>
    windowEncode w (bytesNat ((bs.drop (j * width)).take width)) scale (w.element (cellGet m.cells) line j).2)
  if w.sfmt = 0 then
    (List.range (w.count / 2)).map (fun i => BitVec.ofNat 8 (codes.getD (2 * i) 0 + 16 * codes.getD (2 * i + 1) 0))
  else codes.map (BitVec.ofNat 8)

/-- The stored granules that the poisoned granules of a view line reach when it is written back (13 R360). -/
def Window.storedPoison (w : Window) (v : ViewLine) : List Nat :=
  v.poison.map (fun g => (w.storedKey v.line + g % 8 * 16 / w.factor) / 16)

/-- The stored bytes of a dirty view line are written, with its poison: every agent sees them (R252). -/
def Memory.storeView (m : Memory) (v : ViewLine) : Memory :=
  match m.windowOfKey (v.line * 128) with
  | some w =>
    if v.dirty then
      let k := w.storedKey v.line
      let bs := m.encodeLine w v.line v.bytes
      let old := (granules k bs.length).filter (fun g => setHas m.poison g && !((wholeGranules k bs.length).contains g))
      let keys := (List.range bs.length).map (· + k)
      let m := { m with unseen := (List.range 5).foldl (fun ws d => hideKeys d keys (granules k bs.length) ws) m.unseen }
      let m := m.put v.die k bs
      { m with poison := (w.storedPoison v ++ old).foldl setAdd m.poison }
    else m
  | none => m

/-- Write a view line back (R252), once its own writes are visible everywhere; `keep` leaves a clean copy.  DEDUCED: notes/assumptions/16.md. -/
def Memory.viewWriteback (m : Memory) (v : ViewLine) (keep : Bool) : Memory :=
  let m := (m.applyWhere none (fun x => x.within (128 * v.line) 128)).storeView v
  let rest := m.views.filter (fun x => x.line != v.line)
  { m with views := if keep then rest ++ [{ v with dirty := false }] else rest }

/-- A view line whose unit holds one of n stored bytes at a key: the stored bytes it shows, or its scale record. -/
def Memory.unitTouches (m : Memory) (line k n : Nat) : Bool :=
  match m.windowOfKey (line * 128) with
  | some w =>
    let s := w.storedKey line
    let r := w.scaleKey line
    (decide (k < s + 128 / w.factor) && decide (s < k + n)) || (decide (k < r + 16) && decide (r < k + n))
  | none => false

/-- A line holds another part of a unit that n bytes at a key write to (R252). -/
def Memory.unitShares (m : Memory) (line k n : Nat) : Bool :=
  if keyIsView (128 * line) then m.unitTouches line k n
  else keyIsView k && (linesOf k n).any (fun l => m.unitTouches l (128 * line) 128)

/-- Before stored bytes are read, dirty view lines of their units are recalled; before they are written, every view line
of their units is (R252). -/
def Memory.recallViews (m : Memory) (k n : Nat) (write : Bool) : Memory :=
  (m.views.filter (fun v => (v.dirty || write) && m.unitTouches v.line k n)).foldl (fun m v => m.viewWriteback v false) m

/-- What a read of n bytes at a key does first: a dirty view line of its unit is recalled; in a store, who reads sees what the
writes there followed. -/
def Memory.readied (m : Memory) (e : Eye) (k n : Nat) : Memory :=
  if keyIsStore k then m.pullStore e.die (.agent e.who) k n else if keyIsView k then m else m.recallViews k n false

/-- The view line that holds a view byte. -/
def Memory.heldView (m : Memory) (line : Nat) : Option ViewLine := m.views.find? (fun v => v.line == line)

/-- The bytes of a view line as an eye sees them, held or filled now.  DEDUCED: notes/assumptions/16.md. -/
def Memory.viewLine (m : Memory) (e : Eye) (line : Nat) : Option (List Byte) :=
  match m.heldView line with
  | some v => some (v.bytes.mapIdx (fun i b => m.seenOr e (128 * line + i) b))
  | none => (m.windowOfKey (line * 128)).map (fun w => w.decodeLine (m.seen e) line)

/-- The n view bytes at a key as an eye sees them; none when a line of theirs lies in no enabled window. -/
def Memory.viewBytes (m : Memory) (e : Eye) (k n : Nat) : Option (List Byte) :=
  ((linesOf k n).mapM (fun l => (m.viewLine e l).map (fun bs =>
    let r := linePart k n l
    (bs.drop (r.1 - 128 * l)).take r.2))).map List.flatten

/-- A line's granules are poisoned when it is filled from poisoned stored bytes or a poisoned scale record (13 R360). -/
def Memory.unitPoisoned (m : Memory) (w : Window) (line : Nat) : Bool :=
  (granules (w.storedKey line) (128 / w.factor) ++ granules (w.scaleKey line) 16).any (setHas m.poison)

/-- Hold a view line for a write: the other parts of its unit are recalled first, so every agent sees the writes to them
(R252). -/
def Memory.openView (m : Memory) (die line : Nat) : Memory :=
  match m.heldView line, m.windowOfKey (line * 128) with
  | none, some w =>
    let m := m.applyWhere none (fun x => x.within (w.storedKey line) (128 / w.factor) || x.within (w.scaleKey line) 16)
    { m with views := m.views ++ [{
        line := line
        die := die
        bytes := w.decodeLine (cellGet m.cells) line
        dirty := false
        zero := false
        poison := if m.unitPoisoned w line then granules (128 * line) 128 else [] }] }
  | _, _ => m

/-- A line that one store has made all zero gives up its data storage (R249). -/
def Memory.markZero (m : Memory) (line : Nat) : Memory :=
  { m with
    dirty := m.dirty.map (fun d => if d.line = line then { d with zero := true } else d)
    views := m.views.map (fun v => if v.line = line then { v with zero := true } else v) }

/-- Replace part of a byte list. -/
def splice (old new : List Byte) (at' : Nat) : List Byte := old.take at' ++ new ++ old.drop (at' + new.length)

/-- Put bytes of one view line. -/
def Memory.putView (m : Memory) (die k : Nat) (bs : List Byte) : Memory :=
  { m with views := m.views.map (fun v =>
      if v.line = k / 128 then
        { v with
          die := die
          bytes := splice v.bytes bs (k % 128)
          dirty := true
          zero := zeroAfter bs v.zero
          poison := v.poison.filter (fun g => !((wholeGranules k bs.length).contains g)) }
      else v) }

/-- The newest byte at a key: of memory, or of a view line that is held. -/
def Memory.newest (m : Memory) (k : Nat) : Byte :=
  if keyIsView k then
    match m.heldView (k / 128) with
    | some v => v.bytes.getD (k % 128) 0#8
    | none => unlisted
  else cellGet m.cells k

/-! ## One write (R254 to R257) -/

/-- What a write displaces: the bytes, and the tags of the granules it touches. -/
def Memory.displaced (m : Memory) (k n : Nat) : List Host.Cell × List (Nat × Bool) :=
  ((List.range n).map (fun i => (k + i, m.newest (k + i))),
    if keyIsView k then [] else (granules k n).map (fun g => (g, setHas m.tags g)))

/-- Write back the view lines that n bytes at a key touch, and hold them no longer. -/
def Memory.closeViews (m : Memory) (k n : Nat) : Memory :=
  (m.views.filter (fun v => (linesOf k n).contains v.line)).foldl (fun m v => m.viewWriteback v false) m

/-- The bytes and tag of a write enter their places; a granule of a decoded view has no tag.  DESIGN CHOICE: notes/assumptions/16.md. -/
def Memory.putBytes (m : Memory) (die k : Nat) (bs : List Byte) (tag : Bool) : Memory :=
  if keyIsView k then
    let m := (linesOf k bs.length).foldl (fun m l => m.putView die (linePart k bs.length l).1 (lineBytes k l bs)) m
    if 4 ≤ die then m.closeViews k bs.length else m
  else
    let m := m.put die k bs
    if tag then { m with tags := setAdd m.tags (k / 16) } else m

/-- One write of an agent of a die: its place in the write order, its clock, and who sees it late.  A store's bytes are
written at the store.  DEDUCED: notes/assumptions/7.md. -/
def Memory.write (m : Memory) (e : Eye) (late : List Nat) (id : Nat) (release : Option Nat) (k : Nat) (bs : List Byte)
    (tag : Bool) : Memory :=
  if keyIsStore k then (m.storeClock e k bs.length release).putBytes e.die k bs tag
  else
    let m := if keyIsView k then (linesOf k bs.length).foldl (fun m l => m.openView e.die l) m else m.recallViews k bs.length true
    let old := m.displaced k bs.length
    let t := m.tick e
    (t.1.publish e late id release t.2 old.1 old.2).putBytes e.die k bs tag

/-- A view granule is poisoned: the held line's, or the unit's that would fill it (13 R360). -/
def Memory.viewPoisoned (m : Memory) (g : Nat) : Bool :=
  match m.heldView (g / 8), m.windowOfKey (16 * g) with
  | some v, _ => v.poison.contains g
  | none, some w => m.unitPoisoned w (g / 8)
  | none, none => false

/-- The first poisoned byte among n at a key, rounded down to its granule's distance from the key.  DEDUCED: notes/assumptions/38.md. -/
def Memory.firstPoison (m : Memory) (k n : Nat) : Option Nat :=
  ((granules k n).find? (if keyIsView k then m.viewPoisoned else setHas m.poison)).map (· * 16)

/-! ## Full/empty bits (05 R149) -/

def Memory.isFull (m : Memory) (k : Nat) : Bool := setHas m.full (k / 4)
def Memory.setFull (m : Memory) (k : Nat) (f : Bool) : Memory :=
  { m with full := if f then setAdd m.full (k / 4) else setDrop m.full (k / 4) }

end Sys2Proof.Machine
end

