-- ==== Sys2Proof/Machine/Ops.lean ====
section
/-!
DEFINITION. Machine/Ops.lean: the named operations of 00 R13 on registers, capabilities, addresses and memory, taking a trap
(13 R343 to R348) and the return from one (04 R135).
-/

namespace Sys2Proof.Machine

/-! ## How an instruction runs -/

/-- How an instruction ends early: a trap, a trap whose report clears what it reports, a wait (it has not begun, 05 R140), a
wait that keeps what the instruction has asked for, or a machine state that no run reaches. -/
inductive Exc where
  | trap (cause : Nat) (info : DWord)
  | report (cause : Nat) (info : DWord) (clear : State → State)
  | wait
  | hold (keep : State → State)
  | fault (f : Fault)

/-- A computation on the machine.  A trap or a wait discards every effect (R14, R140). -/
abbrev Act := StateT State (Except Exc)

abbrev Out := Host.Outcome State Fault Refusal

def trap {α : Type} (cause : Nat) (info : DWord) : Act α := throw (.trap cause info)

/-- A trap that reports a record and clears it. -/
def reportTrap {α : Type} (cause : Nat) (info : DWord) (clear : State → State) : Act α := throw (.report cause info clear)

/-- Trap when a check fails. -/
def trapIf (b : Bool) (cause : Nat) (info : DWord) : Act Unit := if b then trap cause info else pure ()

def waitIf (b : Bool) : Act Unit := if b then throw .wait else pure ()

def dangling {α : Type} : Act α := throw (.fault .danglingRecord)

def w64 (n : Nat) : DWord := BitVec.ofNat 64 n

def modCur (f : Thread → Thread) : Act Unit := modify (fun s => { s with cur := f s.cur })

def modMem (f : Memory → Memory) : Act Unit := modify (fun s => { s with mem := f s.mem })

def modDev (f : Device → Device) : Act Unit := modify (fun s => { s with dev := f s.dev })

def modNet (f : Net → Net) : Act Unit := modify (fun s => { s with net := f s.net })

/-- A value the spec leaves open.  DESIGN CHOICE: notes/assumptions/1.md. -/
def freshValue (width : Nat) : Act (BitVec width) := do
  let s ← get
  set { s with free := s.free + 1 }
  return Config.freeValue s.free width

/-- A fresh record number.  DESIGN CHOICE: notes/assumptions/1.md. -/
def freshId : Act Nat := do
  let s ← get
  set { s with nextId := s.nextId + 1 }
  return s.nextId

/-! ## Allotments (01 R37, R46) -/

def allotG (w : DWord) : Nat := 8 * ((w.extractLsb' 0 3).toNat + 1)
def allotV (w : DWord) : Nat := 4 * ((w.extractLsb' 3 3).toNat + 1)
def allotTiles (w : DWord) : Nat := (w.extractLsb' 6 4).toNat
def allotWeight (w : DWord) : Nat := (w.extractLsb' 10 4).toNat

def isLupin (s : State) : Bool := s.cur.pos.lupin

/-- The position of a thread's core, as that of its thread 0. -/
def coreOf (p : Pos) : Pos := { p with thread := 0 }

def serviceOf (p : Pos) : Pos := { p with thread := 4 }

/-! ## Registers -/

def gAt (t : Thread) (n : BitVec 6) : GReg := t.g[n.toNat]

/-- Where a v register number stands in the file. -/
def vAt (t : Thread) (n : Nat) : VReg := t.v.getD n VReg.zero

/-- TINFO of cause 0x03 (13 R348). -/
def emptyInfo (pending : Bool) (file number : Nat) : DWord :=
  w64 ((if pending then 0x10000 else 0) + file * 0x100 + number)

/-- A g register as held: g0 is zero, untagged and full (01 R21). -/
def gRead (t : Thread) (n : BitVec 6) : GReg := if n = 0#6 then GReg.zero else gAt t n

/-- ReadG (00 R13, 01 R23, 07 R230); TINFO of a register that came back poisoned is 0.  DESIGN CHOICE: notes/assumptions/32.md. -/
def readG (n : BitVec 6) (tb : Bool) : Act TCap := do
  let r := gRead (← get).cur n
  match r.st with
  | .full =>
    match r.mark with
    | .clear => return ⟨r.val, r.tag⟩
    | .fault w => if tb then trap 0x0F w else return ⟨r.val, r.tag⟩
    | .timeout w => if tb then trap 0x10 w else return ⟨r.val, r.tag⟩
  | .pending => if tb then trap 0x03 (emptyInfo true 0 n.toNat) else throw .wait
  | .empty => trap 0x03 (emptyInfo false 0 n.toNat)
  | .poisoned => trap 0x12 0#64

/-- The 64-bit data of a g register (01 R20). -/
def readData (n : BitVec 6) (tb : Bool) : Act DWord := do
  let c ← readG n tb
  return capCursor c.val

def setG (n : BitVec 6) (r : GReg) : Act Unit := modCur (fun t => { t with g := t.g.set n.toNat r })

/-- WriteG: a write waits for the register's pending producer (01 R24); writes to g0 are discarded (R21). -/
def writeG (n : BitVec 6) (x : TCap) : Act Unit := do
  if n = 0#6 then return ()
  waitIf ((gAt (← get).cur n).st == .pending)
  setG n ⟨x.val, x.tag, .full, .clear, []⟩

/-- Write a data result: bits [127:64] zero, tag clear (01 R20). -/
def writeData (n : BitVec 6) (x : DWord) : Act Unit := writeG n ⟨dataVal x, false⟩

/-- Make a register empty with a producer pending, after any earlier producer (01 R24). -/
def markPending (n : BitVec 6) : Act Unit := do
  if n = 0#6 then return ()
  waitIf ((gAt (← get).cur n).st == .pending)
  modCur (fun t => { t with g := t.g.set n.toNat { t.g[n.toNat] with st := .pending } })

/-- A result that arrives later: its register has a producer pending until then (01 R23, R24, 05 R154).  One that another device
returns is awaited also where D is g0. -/
def sendResult (n : BitVec 6) (x : DWord) (away : Option (Nat × Bool)) (addr : Nat) : Act Unit := do
  let s ← get
  let was := (gRead s.cur n).st
  markPending n
  if n = 0#6 ∧ away.isNone then return ()
  modCur (fun t => { t with inFlight := t.inFlight ++ [⟨n.toNat, x, away, w64 addr, t.pc, was, s.dev.cycle⟩] })

/-- A result in flight arrives in its register (01 R23); one for g0 is discarded (R21). -/
def fillResult (reg : Nat) (x : DWord) (t : Thread) : Thread :=
  if reg = 0 then t else { t with g := t.g.setIfInBounds reg ⟨dataVal x, false, .full, .clear, []⟩ }

/-! The numbers of a thread's saved items that may come back poisoned, besides its g and v registers (13 R355, R362): p registers,
stream slots, FSTAT, TCAUSE, TPC, TINFO, sto_state, the pc, the code capability and the saved one. -/

def badP (n : Nat) : Nat := n
def badSlot (n : Nat) : Nat := 8 + n
def badFstat : Nat := 16
def badTcause : Nat := 17
def badTpc : Nat := 18
def badTinfo : Nat := 19
def badSto : Nat := 20
def badPc : Nat := 21
def badCode : Nat := 22
def badSaved : Nat := 23

/-- A predicate register as an item; p0 holds nothing. -/
def predItems (n : Nat) : List Nat := if n = 0 then [] else [badP n]

/-- Some of the items came back poisoned. -/
def holdsBad (items : List Nat) (t : Thread) : Bool := items.any (fun k => t.bad.contains k)

/-- The first read of what came back poisoned traps (13 R362); no granule of memory is named then.  DESIGN CHOICE:
notes/assumptions/32.md. -/
def readGood (items : List Nat) : Act Unit := do
  trapIf (holdsBad items (← get).cur) 0x12 0#64

/-- p0 reads as all ones (01 R28). -/
def pRead (t : Thread) (n : Nat) : Word := if n = 0 then 0xFFFFFFFF#32 else t.p.getD n 0#32

def readP (n : BitVec 6) : Act Word := do
  readGood (predItems n.toNat)
  return pRead (← get).cur n.toNat

/-- A write to p0 is discarded (01 R28). -/
def writeP (n : BitVec 6) (x : Word) : Act Unit :=
  if n = 0#6 then pure () else modCur (fun t => { t with p := t.p.setIfInBounds n.toNat x, bad := setDrop t.bad (badP n.toNat) })

/-- All ones or zero (04 R118). -/
def allOnes (b : Bool) : Word := if b then 0xFFFFFFFF#32 else 0#32

/-! ## The records a thread belongs to -/

def findCtx (s : State) (n : Nat) : Option Ctx := s.ctxs.find? (·.number == n)
def findBand (s : State) (e : Nat) : Option Band := s.bands.find? (·.entry == e)
def findLoop (s : State) (n : Nat) : Option Loop := s.loops.find? (·.id == n)
def findCore (s : State) (p : Pos) : Option CoreState := s.cores.find? (fun c => c.pos == coreOf p)

def modCtx (n : Nat) (f : Ctx → Ctx) : Act Unit :=
  modify (fun s => { s with ctxs := s.ctxs.map (fun c => if c.number = n then f c else c) })
def modBand (e : Nat) (f : Band → Band) : Act Unit :=
  modify (fun s => { s with bands := s.bands.map (fun b => if b.entry = e then f b else b) })
def modLoop (n : Nat) (f : Loop → Loop) : Act Unit :=
  modify (fun s => { s with loops := s.loops.map (fun l => if l.id = n then f l else l) })
def modCore (p : Pos) (f : CoreState → CoreState) : Act Unit :=
  modify (fun s => { s with cores := s.cores.map (fun c => if c.pos = coreOf p then f c else c) })

/-- The context a thread runs in. -/
def ctxOf (t : Thread) : Nat := t.fid.ctx

/-- DESIGN CHOICE: notes/assumptions/41.md. -/
def getCtx : Act Ctx := do
  let s ← get
  match findCtx s (ctxOf s.cur) with
  | some c => return c
  | none => dangling

/-- The band on whose behalf a thread runs: a loop firing's is that of its loop (12 R326); a call from another device has
none here. -/
def bandOf (s : State) (t : Thread) : Option Band :=
  match t.duty with
  | .loop l => (findLoop s l.loop).bind (fun x => findBand s x.band)
  | .handler h => if h.callerDevice = s.dev.number then findBand s h.caller.band else none
  | .landing _ => findBand s t.fid.band
  | _ => findBand s t.fid.band

/-- DESIGN CHOICE: notes/assumptions/41.md. -/
def getBand : Act Band := do
  let s ← get
  match bandOf s s.cur with
  | some b => return b
  | none => dangling

/-- The band against which a thread's gang and core forms are resolved: a loop firing has none, for its loop's band holds no
store (08 R242, 12 R326). -/
def formBand (s : State) (t : Thread) : Option Band :=
  match t.duty with
  | .loop _ => none
  | _ => bandOf s t

/-- The gang that R169 checks the writes of a thread against. -/
def writerOf (t : Thread) : Writer :=
  match t.duty with
  | .loop l => .loop l.loop
  | .handler h => h.writer
  | .landing l => l.writer
  | _ => .gang t.fid.band t.fid.gang

/-- The core of a thread's band.  DESIGN CHOICE: notes/assumptions/41.md. -/
def getCore : Act CoreState := do
  let s ← get
  match findCore s s.cur.pos with
  | some c => return c
  | none => dangling

/-- One of n, by a choice the spec leaves to the device. -/
def pick (n : Nat) (s : State) : Nat × State := (Config.freeChoice s.free % n, { s with free := s.free + 1 })

/-- Cycles of a millisecond (00 R3). -/
def cyclesPerMillisecond : Nat := 850000

/-- So many quarters of a context's remote timeout have passed since a value of CYCLE (11 R321).  DEDUCED: notes/assumptions/40.md. -/
def timeoutPassed (s : State) (ctx start quarters : Nat) : Bool :=
  match findCtx s ctx with
  | some c => decide (4 * start + quarters * (c.timeoutMs * cyclesPerMillisecond) ≤ 4 * s.dev.cycle)
  | none => false

/-! ## Capability checks (01 R41) -/

/-- Number of keys of a relation of a type slot at a generation; 0 when the generation is stale. -/
def keysAt (s : State) (ctx slot : Nat) (gen : BitVec 16) (edge : Nat) : Nat :=
  match findCtx s ctx with
  | some c =>
    let t := c.types.getD slot ⟨0#16, []⟩
    if t.gen = gen then (match t.relations[edge]? with | some r => if edge = 0 then 1 else r.nkeys | none => 0) else 0
  | none => 0

/-- Base and top of a capability of any type in a context (01 R38, R41, 07 R217). -/
def boundsIn (s : State) (ctx : Nat) (c : QWord) : Nat × Nat :=
  if capType c = 3 then (capAddr c, capAddr c + 64 + 128 * typeNrel c)
  else if capType c = 4 then (capAddr c, capAddr c + keysAt s ctx (kprSlot c) (kprGen c) (kprEdge c) * kprStride c)
  else capBounds c

/-- Those of a capability of the current thread. -/
def boundsOf (s : State) (c : QWord) : Nat × Nat := boundsIn s (ctxOf s.cur) c

def inBounds (c : QWord) (addr size : Nat) : Bool :=
  let b := capBounds c
  decide (b.1 ≤ addr) && decide (addr + size ≤ b.2)

/-- Deref: tag, seal, bounds, permissions, in this order (01 R41).  DEDUCED: notes/assumptions/13.md. -/
def deref (c : TCap) (addr size : Nat) (perms : List Nat) : Act Unit := do
  trapIf (!c.tag) 0x04 (w64 addr)
  trapIf (capSealed c.val) 0x07 (w64 addr)
  trapIf (!(inBounds c.val addr size)) 0x05 (w64 addr)
  trapIf (!(perms.all (capHas c.val))) 0x06 (w64 addr)

/-! ## Addresses (01 R44, 08 R241 to R246) -/

/-- What a translated address reaches: bytes from a key on, with the leaf entry that maps them; a placement word; or
another device. -/
inductive Place where
  | bytes (key : Nat) (leaf : Option Nat)
  | word (x : DWord)
  | remote (device : Nat)
  /-- bytes behind a stash mapping that do not lie as its local ones: keys and sizes, in order (05 R151) -/
  | split (parts : List (Nat × Nat))
  deriving DecidableEq, Repr

/-- The keys and sizes of the bytes at a place. -/
def Place.parts (p : Place) (size : Nat) : List (Nat × Nat) :=
  match p with
  | .bytes k _ => [(k, size)]
  | .split ps => ps
  | .word _ | .remote _ => []

/-- The parts of a list that split bytes take. -/
def placeParts {α : Type} (ps : List (Nat × Nat)) (bs : List α) : List (Nat × List α) :=
  match ps with
  | [] => []
  | (k, n) :: rest => (k, bs.take n) :: placeParts rest (bs.drop n)

/-- What an access does: load, store, atomic, copy destination; fetch is a read made by the device; `word` is the load of
LD.64, the one access that a placement word allows (08 R243). -/
inductive Kind where
  | read | write | fetch | word
  deriving DecidableEq, Repr

/-- Bytes of a gang's cluster-store allotment and of a core's core-store allotment. -/
def Packet.clusterBytes (p : Packet) : Nat := p.clusterKib * 4096
def Packet.coreBytes (p : Packet) : Nat := p.coreKib * 1024

/-- The bands of a context that hold resources. -/
def placedBands (s : State) (ctx : Nat) : List Band := s.bands.filter (fun b => b.ctx == ctx && !b.evicted)

/-- n cluster-store bytes lie in an allotment of the context. -/
def clusterAllotted (s : State) (ctx die cluster off n : Nat) : Bool :=
  (placedBands s ctx).any (fun b =>
    b.die == die && !b.packet.lupin && b.places.any (fun p =>
      p.cluster == cluster && decide (p.storeBase ≤ off) && decide (off + n ≤ p.storeBase + b.packet.clusterBytes)))

/-- n core-store bytes lie in an allotment of the context. -/
def coreAllotted (s : State) (ctx die cluster core off n : Nat) : Bool :=
  (placedBands s ctx).any (fun b =>
    b.die == die && !b.packet.lupin && b.places.any (fun p =>
      p.cluster == cluster && p.cores.contains core && decide (off + n ≤ b.packet.coreBytes)))

/-- The core form of a load or store names the core of its own thread (R247); a request that another engine carries out names
any core of the gang.  DEDUCED: notes/assumptions/13.md. -/
def coreFormFits (own : Option Pos) (die cluster core : Nat) : Bool :=
  match own with
  | some p => !p.lupin && p.die == die && p.cluster == cluster && p.core == core
  | none => true

/-- A local aperture address against a band, for an access of a thread or for a request (R241 to R243).  DEDUCED: notes/assumptions/13.md. -/
def resolveAperture (s : State) (ctx : Nat) (band : Option Band) (own : Option Pos) (addr size : Nat) : Except Nat Place :=
  let a := addr % 2 ^ 50
  let form := a / 2 ^ 38 % 4
  let device := w64 (s.dev.number * 2 ^ 50)
  if form = 0 then
    let gang := a / 2 ^ 22 % 64
    let off := a % 2 ^ 22
    if a / 2 ^ 28 % 2 ^ 10 ≠ 0 then .error 9
    else
      match band with
      | none => .error 6
      | some b =>
        match b.places[gang]? with
        | none => .error 6
        | some p =>
          if b.packet.lupin then .error 6
          else if off = 0x3FFFF8 ∧ size = 8 then .ok (.word (device + w64 (clusterKey b.die p.cluster p.storeBase)))
          else if b.packet.clusterBytes < off + size then .error 6
          else .ok (.bytes (clusterKey b.die p.cluster (p.storeBase + off)) none)
  else if form = 1 then
    let gang := a / 2 ^ 22 % 64
    let core := a / 2 ^ 18 % 8
    let off := a % 2 ^ 18
    if a / 2 ^ 28 % 2 ^ 10 ≠ 0 ∨ a / 2 ^ 21 % 2 ≠ 0 then .error 9
    else
      match band with
      | none => .error 6
      | some b =>
        match b.places[gang]? with
        | none => .error 6
        | some p =>
          if b.packet.lupin || !(p.cores.contains core) then .error 6
          else if off = 0x3FFF8 ∧ size = 8 then .ok (.word (device + w64 (coreKey b.die p.cluster core 0)))
          else if b.packet.coreBytes < off + size || !(coreFormFits own b.die p.cluster core) then .error 6
          else .ok (.bytes (coreKey b.die p.cluster core off) none)
  else if form = 2 then
    let die := a / 2 ^ 28 % 4
    let cluster := a / 2 ^ 22 % 64
    let off := a % 2 ^ 22
    if a / 2 ^ 30 % 2 ^ 8 ≠ 0 ∨ 0x300000 < off + size then .error 9
    else if clusterAllotted s ctx die cluster off size then .ok (.bytes (clusterKey die cluster off) none)
    else .error 6
  else
    let die := a / 2 ^ 28 % 4
    let cluster := a / 2 ^ 21 % 64
    let core := a / 2 ^ 18 % 8
    let off := a % 2 ^ 18
    if a / 2 ^ 30 % 2 ^ 8 ≠ 0 ∨ a / 2 ^ 27 % 2 ≠ 0 ∨ 0x30000 < off + size then .error 9
    else if coreAllotted s ctx die cluster core off size then .ok (.bytes (coreKey die cluster core off) none)
    else .error 6

/-! ## Translation (13 R357, R358) -/

def entryKind (w : DWord) : Nat := (w.extractLsb' 0 2).toNat
def entryRead (w : DWord) : Bool := w.getLsbD 2
def entryMigrating (w : DWord) : Bool := w.getLsbD 3
def entryPlace (w : DWord) : Bool := w.getLsbD 4
def entryPlaced (w : DWord) : Bool := w.getLsbD 5
def entryPhys (w : DWord) : Nat := (w.extractLsb' 16 26).toNat * 2 ^ 16
def entryTable (w : DWord) : Nat := (w.extractLsb' 8 34).toNat * 2 ^ 8
def entryWrite (w : DWord) : Bool := w.getLsbD 42
def entryOwned (w : DWord) : Bool := w.getLsbD 43
def entryGang (w : DWord) : Nat := (w.extractLsb' 44 6).toNat
def entryBand (w : DWord) : Nat := (w.extractLsb' 50 14).toNat

/-- An entry with its owner fields replaced. -/
def entryWithOwner (w : DWord) (owner : Option (Nat × Nat)) : DWord :=
  match owner with
  | some (band, gang) => BitVec.ofNat 14 band ++ BitVec.ofNat 6 gang ++ 1#1 ++ w.extractLsb' 0 43
  | none => 0#21 ++ w.extractLsb' 0 43

/-- An entry with a frame taken (R357). -/
def entryWithPhys (w : DWord) (phys : Nat) : DWord :=
  w.extractLsb' 42 22 ++ BitVec.ofNat 26 (phys / 2 ^ 16) ++ w.extractLsb' 6 10 ++ 1#1 ++ w.extractLsb' 0 5

def entryWithMigrating (w : DWord) (b : Bool) : DWord := w.extractLsb' 4 60 ++ BitVec.ofBool b ++ w.extractLsb' 0 3

/-- The index of an address at a level, and the bytes that a leaf there maps (R357). -/
def levelIndex (level addr : Nat) : Nat :=
  match level with
  | 0 => addr / 2 ^ 40 % 1024
  | 1 => addr / 2 ^ 30 % 1024
  | 2 => addr / 2 ^ 21 % 512
  | _ => addr / 2 ^ 16 % 32

def levelSize (level : Nat) : Nat :=
  match level with
  | 0 => 2 ^ 40
  | 1 => 2 ^ 30
  | 2 => 2 ^ 21
  | _ => 2 ^ 16

/-- A leaf that a walk reaches. -/
structure Leaf where
  entryAt : Nat
  word : DWord
  level : Nat
  deriving DecidableEq, Repr

/-- Walk from a table at a level; none is a fault of cause 0x09 (R358). -/
def walkFrom (m : Memory) (det : Bool) (addr : Nat) : Nat → Nat → Nat → Option Leaf
  | 0, _, _ => none
  | fuel + 1, level, table =>
    let at' := table + 8 * levelIndex level addr
    let w := m.word64 at'
    if entryKind w = 1 then
      if entryPlace w then none else walkFrom m det addr fuel (level + 1) (entryTable w)
    else if entryKind w = 2 then
      if level = 0 || (det && level != 3) || (entryPlace w && level != 3) ||
          entryPhys w % levelSize level != 0 || (w.extractLsb' 8 8).toNat != 0 then none
      else some ⟨at', w, level⟩
    else none

/-- The leaf of a paged address of a context. -/
def walk (m : Memory) (c : Ctx) (addr : Nat) : Option Leaf := walkFrom m c.det addr 4 0 c.root.toNat

/-- Write a device field of an entry. -/
def putEntry (at' : Nat) (w : DWord) : Act Unit := modMem (fun m => m.put 4 at' (natBytes 8 w.toNat))

/-- Take a frame for a page that the host mapped with PLACE: of the touching die, else of the lowest die that has one
(R357).  DEDUCED: notes/assumptions/13.md. -/
def takeFrame (c : Ctx) (die : Nat) : Act (Option Nat) := do
  let frames := match findCtx (← get) c.number with
    | some x => x.frames
    | none => c.frames
  let dies := if (frames.getD die []) != [] then [die] else (List.range 4).filter (fun d => (frames.getD d []) != [])
  match dies with
  | [] => return none
  | d :: _ =>
    match frames.getD d [] with
    | [] => return none
    | f :: rest =>
      modCtx c.number (fun c => { c with frames := c.frames.set d rest })
      return some f

/-- Count an access to a PLACE page (09 R281). -/
def countAccess (ctx : Nat) (page : DWord) (die : Nat) : Act Unit :=
  modMem (fun m =>
    let fresh : List Nat := (List.replicate 4 0).set die 1
    if m.counts.any (fun x => x.ctx == ctx && x.page == page) then
      { m with counts := m.counts.map (fun x =>
          if x.ctx = ctx ∧ x.page = page then
            { x with accesses :=
                if x.accesses.foldl (· + ·) 0 < 2 ^ 16 then x.accesses.set die (x.accesses.getD die 0 + 1) else fresh }
          else x) }
    else { m with counts := m.counts ++ [⟨ctx, page, fresh⟩] })

/-- Bytes of a frame lie in the HBM of its die, or in views of enabled windows (R244, R250). -/
def keyExists (m : Memory) (key size : Nat) : Bool :=
  if key < 2 ^ 41 then decide (keyOffset key + size ≤ hbmPerDie)
  else (linesOf key size).all (fun l => (m.windowOfKey (128 * l)).isSome)

/-- Translate a paged address of a context for an agent on a die (R357, R358, R359): `pins` are the leaf entries that the
agent's transfer holds, which no change of the page makes wait.  Reads of kind fetch are not counted among a page's accesses.
DEDUCED: notes/assumptions/13.md; DESIGN CHOICE: notes/assumptions/38.md. -/
def translatePaged (c : Ctx) (die : Nat) (pins : List Nat) (addr size : Nat) (kind : Kind) : Act Place := do
  match walk (← get).mem c (addr % 2 ^ 50) with
  | none => trap 0x09 (w64 addr)
  | some l =>
    waitIf (entryMigrating l.word && !(pins.contains l.entryAt))
    trapIf (!(if kind == .write then entryWrite l.word else entryRead l.word)) 0x09 (w64 addr)
    let phys ←
      if entryPlace l.word && !entryPlaced l.word then do
        match ← takeFrame c die with
        | none => trap 0x09 (w64 addr)
        | some f => do
          putEntry l.entryAt (entryWithPhys l.word f)
          pure f
      else pure (entryPhys l.word)
    if entryPlace l.word && kind != .fetch then countAccess c.number (w64 (addr % 2 ^ 50 / 2 ^ 16 * 2 ^ 16)) die
    let key := phys + addr % levelSize l.level
    trapIf (!(keyExists (← get).mem key size)) 0x09 (w64 addr)
    return .bytes key (some l.entryAt)

/-- The size of the system: every device of the fabric map, and this one (14 R365).  DEDUCED: notes/assumptions/13.md. -/
def knownDevice (s : State) (device : Nat) : Bool := s.dev.fabricMap.any (·.1 == device)

/-- Translate an address of a context (R44, R241).  `band` and `own` resolve gang and core forms.  DEDUCED: notes/assumptions/13.md. -/
def translateIn (c : Ctx) (band : Option Band) (own : Option Pos) (die : Nat) (pins : List Nat) (addr size : Nat) (kind : Kind) :
    Act Place := do
  let s ← get
  let device := addr / 2 ^ 50
  let a := addr % 2 ^ 50
  if device ≠ s.dev.number then
    trapIf (!(knownDevice s device)) 0x09 (w64 addr)
    trapIf (decide (a / 2 ^ 40 = 0x3FF) && decide (a / 2 ^ 38 % 4 < 2)) 0x09 (w64 addr)
    return .remote device
  else if a / 2 ^ 40 = 0x3FF then
    match resolveAperture s c.number band own addr size with
    | .error e => trap e (w64 addr)
    | .ok (.word x) => if kind == .word then return .word x else trap 0x06 (w64 addr)
    | .ok p => return p
  else translatePaged c die pins addr size kind

/-! ## Owners (08 R246) -/

/-- The position of a Lupin core's service thread, as R36 numbers it. -/
def lupinPos (die stack channel : Nat) : Pos := ⟨true, die, stack * 16 + channel % 16, channel / 16 * 4, 4⟩

/-- Stack and channel of an HBM byte (R245). -/
def hbmChannel (off : Nat) : Nat × Nat :=
  let line := off / 128
  let index := (line % 128) ^^^ (line / 128 % 128)
  (index / 32, index % 32)

/-- The owner of a byte of this device. -/
def ownerOfKey (m : Memory) (k : Nat) : Pos :=
  if keyIsCluster k then
    ⟨false, k / 2 ^ 28 % 4, k / 2 ^ 22 % 64, k % 2 ^ 22 / 128 % 8, 4⟩
  else if keyIsCore k then
    ⟨false, k / 2 ^ 28 % 4, k / 2 ^ 21 % 64, k / 2 ^ 18 % 8, 4⟩
  else
    let h := if keyIsView k then
      (match m.windowOfKey k with | some w => w.storedKey (k / 128) | none => k % 2 ^ 41) else k
    lupinPos (keyDie h) (hbmChannel (keyOffset h)).1 (hbmChannel (keyOffset h)).2

/-! ## Checks that an access makes after translation -/

/-- Two ranges overlap. -/
def overlaps (a n b m : Nat) : Bool := decide (a < b + m) && decide (b < a + n)

/-- Packets of a transfer's destination (05 R165): aligned on 512 bytes of the destination.  DEDUCED: notes/assumptions/18.md. -/
def Xfer.packets (x : Xfer) : Nat :=
  if x.length = 0 then 0 else (x.destAt.toNat + x.length - 1) / 512 - x.destAt.toNat / 512 + 1

/-- First destination byte and size of a packet. -/
def Xfer.packetRange (x : Xfer) (p : Nat) : Nat × Nat :=
  let d := x.destAt.toNat
  let lo := max d ((d / 512 + p) * 512)
  let hi := min (d + x.length) ((d / 512 + p + 1) * 512)
  (lo, hi - lo)

/-- The key of an address of a context, without the checks of an access. -/
def keyOf (s : State) (c : Ctx) (band : Option Band) (addr size : Nat) : Option Nat :=
  if addr / 2 ^ 50 ≠ s.dev.number then none
  else if addr % 2 ^ 50 / 2 ^ 40 = 0x3FF then
    match resolveAperture s c.number band none addr size with
    | .ok (.bytes k _) => some k
    | _ => none
  else
    match walk s.mem c (addr % 2 ^ 50) with
    | some l => if entryPlace l.word && !entryPlaced l.word then none else some (entryPhys l.word + addr % levelSize l.level)
    | none => none

/-- A transfer owns a line under n bytes at a key that it has not written yet (05 R168): one that hands its packets to a
landing handler owns none.  DEDUCED: notes/assumptions/18.md. -/
def Xfer.owes (s : State) (x : Xfer) (k n : Nat) : Bool :=
  !x.cancelled && x.land.isNone &&
    (match findCtx s x.issuer.ctx with
     | none => false
     | some c => (List.range x.packets).any (fun p =>
         let r := x.packetRange p
         !(x.done.contains p) &&
           (match keyOf s c none r.1 r.2 with
            | some d => overlaps (k / 128 * 128) ((k + n + 127) / 128 * 128 - k / 128 * 128) d r.2
            | none => false)))

/-- A line under n bytes at a key belongs to a transfer issued before `before` (05 R168, 08 R253): whoever reaches it waits, but
for the issuing core in its own store, which the scoreboard holds back.  DEDUCED: notes/assumptions/18.md. -/
def copyOwnedBefore (s : State) (before : Nat) (viewer : Option Pos) (k n : Nat) : Bool :=
  s.cores.any (fun c => c.channels.any (fun ch => ch.live.any (fun x =>
    decide (x.seq < before) && !(x.ownStore && viewer.map coreOf == some c.pos) && x.owes s k n)))

/-- The same for every transfer issued so far. -/
def copyOwned (s : State) (viewer : Option Pos) (k n : Nat) : Bool := copyOwnedBefore s s.nextId viewer k n

/-- A range of the core's own store that a transfer in flight writes (05 R164). -/
def scoreboarded (s : State) (p : Pos) (key size : Nat) : Bool :=
  match findCore s p with
  | some c => c.channels.any (fun ch => ch.live.any (fun x =>
      x.ownStore && overlaps key size (x.destAt.toNat % 2 ^ 50) x.length))
  | none => false

/-- The core whose stash maps a core-store byte, and the mapping's number (05 R150).  DEDUCED: notes/assumptions/17.md. -/
def stashOf (s : State) (key size : Nat) : Option (CoreState × Nat × StashMap) :=
  if keyIsCore key then
    match s.cores.find? (fun c => !c.pos.lupin && c.pos == coreOf (ownerOfKey s.mem key)) with
    | some c =>
      match (List.range 8).find? (fun i =>
          match c.stash.getD i none with
          | some x => overlaps key size x.localAt x.length
          | none => false) with
      | some i => (c.stash.getD i none).map (fun x => (c, i, x))
      | none => none
    | none => none
  else none

/-! ## Lines that stashes hold (05 R151, 08 R252, R253) -/

/-- The global bytes of a mapping's line: keys, sizes and distances from the line's first byte, one piece for each global line
that they lie in. -/
def stashPieces (s : State) (x : StashMap) (l : Nat) : List (Nat × Nat × Nat) :=
  match findCtx s x.ctx with
  | none => []
  | some c =>
    let g := x.globalAt.toNat + 128 * l
    ((linesOf g 128).map (linePart g 128)).filterMap (fun r => (keyOf s c none r.1 r.2).map (fun k => (k, r.2, r.1 - g)))

/-- Bytes of memory or of a view, with their tags and poison, go to the store; a granule whose bytes do not lie on a granule of
the store brings no tag (01 R43). -/
def Memory.copyIn (m : Memory) (die k n dst : Nat) : Memory :=
  let m := if keyIsView k then m.openView die (k / 128) else m.recallViews k n false
  let m' := m.put die dst ((List.range n).map (fun i => m.newest (k + i)))
  (granules k n).foldl (fun m' g =>
    let lo := dst + max k (16 * g) - k
    let hi := dst + min (k + n) (16 * g + 16) - k
    let m' := if !(keyIsView k) && setHas m.tags g && lo % 16 == 0 && lo + 16 == hi then { m' with tags := setAdd m'.tags (lo / 16) } else m'
    if if keyIsView k then m.viewPoisoned g else setHas m.poison g then (granules lo (hi - lo)).foldl Memory.setPoison m' else m') m'

/-- A core's store keeps the last values of a line that the mapping gives up, as private data (R151).  DEDUCED: notes/assumptions/17.md. -/
def stashKeep (core : Pos) (x : StashMap) (l : Nat) (s : State) : State :=
  (stashPieces s x l).foldl (fun s y => { s with mem := s.mem.copyIn core.die y.1 y.2.1 (x.localAt + 128 * l + y.2.2) }) s

/-- A mapping gives up the lines that satisfy a test. -/
def stashDrop (core : Pos) (n : Nat) (want : State → StashMap → Nat → Bool) (s : State) : State :=
  match (findCore s core).bind (fun c => c.stash.getD n none) with
  | none => s
  | some x =>
    let gone := x.valid.filter (want s x)
    if gone = [] then s
    else
      let s := gone.foldl (fun s l => stashKeep core x l s) s
      { s with cores := s.cores.map (fun c =>
          if c.pos = coreOf core then
            { c with stash := c.stash.set n (some { x with valid := x.valid.filter (fun l => !(gone.contains l)) }) }
          else c) }

/-- Every stash of the device gives up the lines that satisfy a test, of the mapping that a core and a number name. -/
def stashDropAll (want : Pos → Nat → State → StashMap → Nat → Bool) (s : State) : State :=
  s.cores.foldl (fun s c => (List.range 8).foldl (fun s n => stashDrop c.pos n (want c.pos n) s) s) s

/-- A mapping's line must be given up before n bytes at a key are written: it holds one of their lines, unless the mapping is the
writer's `own`, or another part of their unit (R252). -/
def stashLoses (own : Option (Pos × Nat)) (k n : Nat) (core : Pos) (i : Nat) (s : State) (x : StashMap) (l : Nat) : Bool :=
  (stashPieces s x l).any (fun y =>
    (own != some (core, i) && (linesOf k n).contains (y.1 / 128)) || s.mem.unitShares (y.1 / 128) k n)

/-- Before bytes are written, the stashes that hold their lines give them up, with the bytes that they held (R253).  DEDUCED:
notes/assumptions/17.md. -/
def recallStashes (own : Option (Pos × Nat)) (k n : Nat) (s : State) : State :=
  if keyIsStore k then s else stashDropAll (stashLoses own k n) s

/-- The number that stands for the service thread of a core where a firing has its own. -/
def serviceId (p : Pos) : FiringId := ⟨2 ^ 16, (if p.lupin then 1 else 0), p.die, p.cluster, p.core⟩

/-- Who waits, writes and reads: a firing, or a service thread. -/
def agentId (t : Thread) : FiringId :=
  match t.duty with
  | .handler _ | .landing _ => serviceId t.pos
  | _ => t.fid

/-- A transfer by its core, channel, identifier and place in the order of issue. -/
structure XferName where
  core : Pos
  channel : Nat
  id : Nat
  seq : Nat
  deriving DecidableEq, Repr

/-- Who makes an access: its context, the band and thread that resolve its gang and core forms, its die and position, its
duty and writer, its number in the write order, and the leaf entries that its transfer pins. -/
structure Agent where
  ctx : Ctx
  band : Option Band
  own : Option Pos
  die : Nat
  pos : Pos
  duty : Duty
  writer : Writer
  issuer : FiringId
  pins : List Nat
  /-- the transfer that an engine carries out -/
  xfer : Option XferName
  /-- capabilities whose gang or core form was resolved when a request was issued, with their absolute cursors (08 R242) -/
  resolved : List (QWord × DWord)

/-- cursor + offset mod 2^64. -/
def addOffset (base : Nat) (off : Int) : Nat := (((base : Int) + off) % ((2 ^ 64 : Nat) : Int)).toNat

/-- The address that an access through a capability goes to: the request carries the absolute form of its cursor (08 R242). -/
def Agent.carried (a : Agent) (c : QWord) (addr : Nat) : Nat :=
  match a.resolved.find? (fun x => x.1 == c) with
  | some x => addOffset x.2.toNat ((addr : Int) - (capAddr c : Int))
  | none => addr

def Agent.eye (a : Agent) : Eye := ⟨a.die, coreOf a.pos, a.issuer⟩

/-- The eye of a thread. -/
def eyeOf (t : Thread) : Eye := ⟨t.pos.die, coreOf t.pos, agentId t⟩

/-- The current thread as an agent. -/
def threadAgent : Act Agent := do
  let s ← get
  let t := s.cur
  let c ← getCtx
  return ⟨c, formBand s t, some t.pos, t.pos.die, t.pos, t.duty, writerOf t, agentId t, [], none, []⟩

/-- The thread's next access waits: for an atomic that another device has not performed (05 R154), or for an ordered atomic
that is an acquire (02 R64). -/
def accessWaits (t : Thread) : Bool :=
  t.inFlight.any (fun r => r.away.isSome) || t.remoteStores.any (fun r => r.atomic && !r.failed) || t.amoqWaits != []

/-- The current thread as the agent of its next access. -/
def curAgent : Act Agent := do
  let a ← threadAgent
  waitIf (accessWaits (← get).cur)
  return a

/-- A transfer pins the page of a leaf entry until it retires (05 R165). -/
def pinLeaf (x : XferName) (leaf : Nat) (s : State) : State :=
  { s with cores := s.cores.map (fun c =>
      if c.pos = x.core then
        { c with channels := c.channels.modify x.channel (fun ch =>
            { ch with live := ch.live.map (fun y => if y.id = x.id then { y with pins := setAdd y.pins leaf } else y) }) }
      else c) }

/-- Translate for an agent; an engine pins the page that it reaches. -/
def translateFor (a : Agent) (addr size : Nat) (kind : Kind) : Act Place := do
  let p ← translateIn a.ctx a.band a.own a.die a.pins addr size kind
  match a.xfer, p with
  | some x, .bytes _ (some leaf) => modify (pinLeaf x leaf)
  | _, _ => pure ()
  return p

/-- The loop that holds a writer region (12 R340). -/
def regionLoop (s : State) (entryAt : Nat) : Option Loop := s.loops.find? (fun l => l.regions.contains entryAt)

/-- The live band and gang that own the region of a leaf entry (05 R172); an entry that names a band which holds no such
region has no owner.  DEDUCED: notes/assumptions/22.md. -/
def liveOwner (s : State) (entryAt : Nat) : Option (Nat × Nat) :=
  let e := s.mem.word64 entryAt
  if entryOwned e && s.bands.any (fun b => b.entry == entryBand e && b.regions.contains entryAt) then
    some (entryBand e, entryGang e)
  else none

/-- A writer owns the region of a leaf entry (05 R169, R172, 12 R340).  DEDUCED: notes/assumptions/22.md. -/
def ownsRegion (s : State) (entryAt : Nat) (w : Writer) : Bool :=
  match regionLoop s entryAt, w with
  | some l, .loop n => l.id == n
  | some _, _ => false
  | none, .gang b g => liveOwner s entryAt == some (b, g)
  | none, _ => false

/-- The writer-capability check, made in deterministic contexts (05 R169); no writer of this device owns a region of another.  DEDUCED: notes/assumptions/22.md. -/
def checkWriter (a : Agent) (p : Place) (addr : Nat) : Act Unit := do
  match p with
  | .bytes _ (some e) => trapIf (a.ctx.det && !(ownsRegion (← get) e a.writer)) 0x0A (w64 addr)
  | .remote _ => trapIf (a.ctx.det && addr % 2 ^ 50 / 2 ^ 40 != 0x3FF) 0x0A (w64 addr)
  | _ => pure ()

/-- A handler reaches only bytes of its own owner, a landing handler only the bytes of g1 (11 R317). -/
def checkOwner (a : Agent) (p : Place) (addr size : Nat) : Act Unit := do
  match a.duty with
  | .handler _ =>
    match p with
    | .bytes k _ =>
      let m := (← get).mem
      trapIf (!((List.range size).all (fun i => ownerOfKey m (k + i) == a.pos))) 0x0F (w64 addr)
    | _ => trap 0x0F (w64 addr)
  | .landing l =>
    trapIf (!(decide (l.address.toNat ≤ addr) && decide (addr + size ≤ l.address.toNat + l.size))) 0x0F (w64 addr)
  | _ => pure ()

/-- The cells that guard the bytes of a range (12 R332). -/
def guardCells (l : Loop) (addr size : Nat) : List Nat :=
  let b := capBounds l.guard.val
  let lo := max addr b.1
  let hi := min (addr + size) b.2
  if l.guard.tag && decide (lo < hi) then
    (List.range ((hi - 1 - b.1) / l.gstride - (lo - b.1) / l.gstride + 1)).map (· + (lo - b.1) / l.gstride)
  else []

/-- Address of a cell (07 R238). -/
def cellAt (l : Loop) (i : Nat) : Nat := (capBounds l.cells.val).1 + 8 * i

/-- The next answer of another device, or a wait for one (05 R142); a wait that R140 bounds by the watchdog alone is not
`timed`.  DESIGN CHOICE: notes/assumptions/28.md. -/
def fabricAnswer (addr : Nat) (timed : Bool) : Act FabricAnswer := do
  let s ← get
  match s.fabricIn with
  | x :: _ =>
    modify (fun s => { s with fabricIn := s.fabricIn.drop 1 })
    return x
  | [] =>
    if timed then
      throw (.hold (fun s => { s with cur := { s.cur with
        awaitsFabric := some (w64 addr, (s.cur.awaitsFabric.map (·.2)).getD s.dev.cycle) } }))
    else throw .wait

/-- A cell lies within CELLS and held the epoch and an iteration at the round barrier (12 R332); a cell of another device
answers.  DEDUCED: notes/assumptions/14.md. -/
def cellHeld (l : Loop) (iteration i : Nat) : Act Bool := do
  if (capBounds l.cells.val).2 < cellAt l i + 8 then return false
  else if cellAt l i / 2 ^ 50 ≠ (← get).dev.number then
    let x ← fabricAnswer (cellAt l i) true
    return x.data.toNat % 2 ^ 64 == l.epoch * 2 ^ 32 + iteration
  else return l.held.contains (i, iteration)

/-- A commit firing of an iteration holds every cell that guards its write, or traps with the first it does not (12 R332). -/
def checkCells (l : Loop) (iteration : Nat) : List Nat → Act Unit
  | [] => pure ()
  | i :: rest => do
    let held ← cellHeld l iteration i
    trapIf (!held) 0x0E (w64 i)
    checkCells l iteration rest

/-- Writes of loop firings into GUARD: a reserve firing's trap in a deterministic context (12 R340), a commit firing's
are checked against the cells that guard them (12 R332).  DEDUCED: notes/assumptions/14.md. -/
def checkGuard (a : Agent) (addr size : Nat) : Act Unit := do
  match a.duty with
  | .loop d =>
    match findLoop (← get) d.loop with
    | none => pure ()
    | some l =>
      if d.commit then checkCells l d.iteration (guardCells l addr size)
      else
        match if a.ctx.det then (guardCells l addr size).head? else none with
        | some i => trap 0x0E (w64 i)
        | none => pure ()
  | _ => pure ()

/-- The checks of a write: `checked` writes make the writer check; a view needs FMTW (01 R40, 08 R251). -/
def checkWrite (a : Agent) (p : Place) (addr size : Nat) (checked fmtw : Bool) : Act Unit := do
  if checked then checkWriter a p addr
  checkGuard a addr size
  match p with
  | .bytes k _ => trapIf (keyIsView k && !fmtw) 0x06 (w64 addr)
  | _ => pure ()

/-- An access to lines that a copy owns waits for the copy's packets (05 R168), an engine's for those of the transfers issued
before its own; the core's own store waits by the scoreboard (R164), which lets the copy's landing handler by. -/
def awaitCopies (a : Agent) (k size : Nat) : Act Unit := do
  let s ← get
  match a.xfer, a.duty with
  | some x, _ => waitIf (copyOwnedBefore s x.seq none k size)
  | none, .landing _ => waitIf (copyOwned s (some a.pos) k size)
  | none, _ => waitIf (copyOwned s (some a.pos) k size || (keyIsStore k && scoreboarded s a.pos k size))

/-- Ranges cut at 64 KiB boundaries. -/
def pageCuts (addr size : Nat) : List (Nat × Nat) :=
  (List.range ((addr + size - 1) / 65536 - addr / 65536 + 1)).filterMap (fun i =>
    let lo := max addr ((addr / 65536 + i) * 65536)
    let hi := min (addr + size) ((addr / 65536 + i + 1) * 65536)
    if lo < hi then some (lo, hi - lo) else none)

/-- The mapping whose lines an access goes through, by its core and number. -/
abbrev OwnStash := Option (Pos × Nat)

/-- An access to bytes of the device that no mapping redirects: the waits for a copy engine's lines and the checks of a write,
before which other stashes give up its lines. -/
def arrive (own : OwnStash) (a : Agent) (p : Place) (addr size : Nat) (kind : Kind) (checked fmtw : Bool) : Act Unit := do
  match p with
  | .bytes k _ => awaitCopies a k size
  | _ => pure ()
  if kind == .write then
    checkWrite a p addr size checked fmtw
    match p with
    | .bytes k _ => modify (recallStashes own k size)
    | _ => pure ()

/-- The global bytes that a piece of an access through a mapping reaches: their key, or none.  DEDUCED: notes/assumptions/17.md. -/
def reachGlobal (own : OwnStash) (a : Agent) (kind : Kind) (checked fmtw : Bool) (piece : Nat × Nat) : Act Place := do
  let q ← translateFor a piece.1 piece.2 kind
  match a.duty with
  | .handler _ => checkOwner a q piece.1 piece.2
  | _ => pure ()
  arrive own a q piece.1 piece.2 kind checked fmtw
  return q

/-- The place of an access through a mapping, from those of its pieces: split where it crosses a page, or where its 16 bytes are
no granule of memory (01 R43). -/
def stashPlace (size : Nat) (qs : List (Place × Nat)) : Place :=
  match qs with
  | [(.bytes k leaf, n)] => if size < 16 || k % 16 == 0 then .bytes k leaf else .split [(k, n)]
  | _ => .split (qs.filterMap (fun q => match q.1 with | .bytes k _ => some (k, q.2) | _ => none))

/-- How an access is checked and where it goes: `checked` writes make the writer check; `fmtw` is the capability's FMTW
bit (01 R40).  A byte of a stash mapping is a byte of the global range it maps (05 R151).  DEDUCED: notes/assumptions/13.md, notes/assumptions/17.md. -/
def reach (a : Agent) (addr size : Nat) (kind : Kind) (checked fmtw : Bool) : Act Place := do
  let p ← translateFor a addr size kind
  checkOwner a p addr size
  let s ← get
  match (match p with | .bytes k _ => (stashOf s k size).map (fun y => (k, y)) | _ => none) with
  | none => do
    arrive none a p addr size kind checked fmtw
    return p
  | some (k, c, i, x) => do
    trapIf (kind == .write && !x.store) 0x06 (w64 addr)
    match findCtx s x.ctx with
    | none => dangling
    | some cc =>
      let b : Agent := { a with ctx := cc, band := none }
      let pieces := pageCuts (x.globalAt.toNat + (k - x.localAt)) size
      let qs ← pieces.mapM (reachGlobal (some (c.pos, i)) b kind checked x.fmtw)
      modCore c.pos (fun c => { c with stash := c.stash.modify i (fun y => y.map (fun y =>
        { y with valid := setAdd y.valid ((k - y.localAt) / 128) })) })
      return stashPlace size (qs.zip (pieces.map (·.2)))

/-! ## Reading and writing what an access reaches -/

/-- Poisoned bytes trap the reading instruction (13 R360). -/
def checkPoison (k size addr : Nat) : Act Unit := do
  match (← get).mem.firstPoison k size with
  | some g => trap 0x12 (w64 (addr + g - k))
  | none => pure ()

/-- What another device answers to a read of `size` bytes: poison traps, and a tag crosses only with a sealed global
capability (01 R43). -/
def readRemote (addr size : Nat) : Act (List Byte × Bool) := do
  let x ← fabricAnswer addr true
  match x.poison with
  | some g => trap 0x12 (w64 (addr / 16 * 16 + 16 * g))
  | none => pure ()
  let v := x.data.extractLsb' 0 128
  return (natBytes size x.data.toNat, x.tag && capSealed v && capHas v permGLOBAL)

/-- The bytes that an agent reads at one part of a split place. -/
def readPart (a : Agent) (addr k n : Nat) : Act (List Byte) := do
  checkPoison k n addr
  let m := (← get).mem
  if keyIsView k then
    match m.viewBytes a.eye k n with
    | some bs => return bs
    | none => trap 0x09 (w64 addr)
  else return m.seenBytes a.eye k n

/-- The bytes an agent reads at a place, and their granule's tag when they are one granule; one of a decoded view reads as
untagged.  DEDUCED: notes/assumptions/7.md; DESIGN CHOICE: notes/assumptions/16.md. -/
def readPlace (a : Agent) (p : Place) (addr size : Nat) : Act (List Byte × Bool) := do
  match p with
  | .word x => return (natBytes size x.toNat, false)
  | .remote _ => readRemote addr size
  | .bytes k _ =>
    modMem (·.readied a.eye k size)
    checkPoison k size addr
    let m := (← get).mem
    if keyIsView k then
      match m.viewBytes a.eye k size with
      | some bs => return (bs, false)
      | none => trap 0x09 (w64 addr)
    else return (m.seenBytes a.eye k size, m.seenTag a.eye (k / 16))
  | .split ps => do
    modMem (fun m => ps.foldl (fun m x => m.readied a.eye x.1 x.2) m)
    let parts ← ps.mapM (fun x => readPart a addr x.1 x.2)
    return (parts.flatten, false)

/-- Perform a write at a place as an agent: its place in the write order, its clock, and who sees it late.  DEDUCED: notes/assumptions/7.md; DESIGN CHOICE: notes/assumptions/28.md. -/
def writePlace (a : Agent) (p : Place) (addr : Nat) (bs : List Byte) (tag : Bool) (release : Option Nat) : Act Unit := do
  match p with
  | .word _ => trap 0x06 (w64 addr)
  | .remote _ =>
    let id ← freshId
    let now := (← get).dev.cycle
    modCur (fun t => { t with remoteStores := t.remoteStores ++ [⟨id, w64 addr, false, false, now⟩] })
  | .bytes k _ =>
    let id ← freshId
    let late := (← get).late
    modMem (fun m => m.write a.eye late id release k bs tag)
  | .split ps =>
    let id ← freshId
    let late := (← get).late
    modMem (fun m => (placeParts ps bs).foldl (fun m x => m.write a.eye late id release x.1 x.2 false) m)

/-! ## Ordering (08 R258, 05 R158) -/

/-- A scope reaches a die, or the hub, from a die: scopes below dev reach its own alone. -/
def scopeDies (own scope d : Nat) : Bool := d == own || (decide (3 ≤ scope) && decide (d ≤ 4))

/-- The agents of the die that a scope reaches from a core (00 R8): its threads, its cluster's cores, or all. -/
def scopeViewer (core : Pos) (scope : Nat) : Option Viewer :=
  if scope = 0 then some (.core core) else if scope = 1 then some (.cluster core.lupin core.die core.cluster) else none

/-- Writes are performed at a scope of an eye's core (08 R258).  DEDUCED: notes/assumptions/7.md. -/
def Memory.performAt (m : Memory) (e : Eye) (scope : Nat) (want : DieWrite → Bool) : Memory :=
  m.applyWhere (scopeViewer e.core scope) (fun w => scopeDies e.die scope w.toDie && want w)

/-- Every earlier write of the thread is performed at a scope. -/
def performOwn (scope : Nat) : Act Unit := do
  let e := eyeOf (← get).cur
  modMem (fun m => m.performAt e scope (fun w => w.issuer == e.who))

/-- A write whose bytes its reader sees. -/
def Memory.returned (m : Memory) (e : Eye) (w : DieWrite) : Bool := !(m.unseen.any (fun x => x.id == w.id && x.hidden e))

/-- An eye reads a later write than this one in a byte of n at a key. -/
def Memory.overtaken (m : Memory) (e : Eye) (k n : Nat) (w : DieWrite) : Bool :=
  w.passed.any (fun b => decide (k ≤ b) && decide (b < k + n)) ||
    w.before.any (fun c => decide (k ≤ c.1) && decide (c.1 < k + n) &&
      ((m.lying e (·.atKey c.1)).dropWhile (fun x => x.id != w.id)).any (fun x => !(x.hidden e)))

/-- A release that an acquire of an eye at a scope pairs with, where it reads a later write of its bytes (08 R258): both lie
within the scope of either. -/
def Memory.paired (m : Memory) (e : Eye) (scope k n : Nat) (w : DieWrite) : Bool :=
  w.toDie == e.die && m.overtaken e k n w &&
    (match w.release with
     | some r => decide (scopeTo w.issuerCore e ≤ r) && decide (scopeTo w.issuerCore e ≤ scope)
     | none => false)

/-- The thread's earlier releases are performed before its acquire at the same or a wider scope (08 R258), each at its own. -/
def Memory.releasesFirst (m : Memory) (e : Eye) (scope : Nat) : Memory :=
  (List.range 5).foldl (fun m r =>
    if r ≤ scope then m.performAt e r (fun w => w.issuer == e.who && w.release == some r) else m) m

/-- An acquire of an eye at a scope reads n bytes at a key: the writes that it returns are performed at the scope, and what the
releases before them followed is visible to it.  DEDUCED: notes/assumptions/7.md. -/
def Memory.acquire (m : Memory) (e : Eye) (scope k n : Nat) : Memory :=
  let m := m.releasesFirst e scope
  let m := if keyIsStore k then (m.pullStore e.die (.agent e.who) k n).pullReleases e scope k n else m
  let m := m.applyWhere (some (.agent e.who)) (m.paired e scope k n)
  m.performAt e scope (fun w => w.within k n && m.returned e w)

/-- An acquire of the bytes read at a place. -/
def acquireAt (scope : Nat) (p : Place) (size : Nat) : Act Unit := do
  let e := eyeOf (← get).cur
  match p with
  | .bytes k _ => modMem (fun m => m.acquire e scope k size)
  | .split ps => modMem (fun m => ps.foldl (fun m x => m.acquire e scope x.1 x.2) m)
  | _ => modMem (fun m => m.releasesFirst e scope)

/-- An acquire that reads no memory: the thread's earlier releases come before it. -/
def acquireOwn (scope : Nat) : Act Unit := do
  let e := eyeOf (← get).cur
  modMem (fun m => m.releasesFirst e scope)

/-- The eye of a core's service thread. -/
def serviceEye (p : Pos) : Eye := ⟨p.die, coreOf p, serviceId p⟩

/-- An atomic reads the write that precedes its own (08 R256): its agent sees every write to its bytes.  DEDUCED: notes/assumptions/7.md. -/
def settleBytes (e : Eye) (k size : Nat) : Act Unit :=
  modMem (fun m => m.applyWhere (some (.agent e.who)) (fun w => w.toDie == e.die && w.within k size))

/-- The clock that a message of the thread carries: all that its die has applied, and its own earlier writes. -/
def messageClock : Act (List Nat) := do
  let s ← get
  return s.mem.clockAt (eyeOf s.cur)

/-- The thread follows a message's clock. -/
def followClock (c : List Nat) : Act Unit := do
  let e := eyeOf (← get).cur
  modMem (·.applyClock e.die (some (.agent e.who)) c)

/-- Some agents come to see a write, and what comes before it (08 R256). -/
def showWrite (id : Nat) (viewer : Viewer) (s : State) : State := { s with mem := s.mem.applyWhere (some viewer) (fun w => w.id == id) }

/-- Every earlier store and atomic of the thread to another device is acknowledged or has failed (05 R145, R158, 08 R258). -/
def awaitRemote : Act Unit := do
  let t := (← get).cur
  waitIf (t.remoteStores.any (fun x => !x.failed) || t.inFlight.any (fun r => r.away.isSome))

/-- FENCE, STL and FENCEX at sys scope report a failed store, one at a time (05 R142). -/
def reportRemote : Act Unit := do
  match (← get).cur.remoteStores.find? (·.failed) with
  | some r =>
    reportTrap 0x10 r.address (fun s =>
      { s with cur := { s.cur with remoteStores := s.cur.remoteStores.filter (fun x => x.id != r.id) } })
  | none => pure ()

/-- A release at a scope: every earlier access is performed there (R258); at sys scope earlier stores to other devices are
acknowledged (05 R145).  DEDUCED: notes/assumptions/7.md. -/
def releaseAt (scope : Nat) : Act Unit := do
  performOwn scope
  if 4 ≤ scope then awaitRemote

/-- The release of a fence and of STL: at sys scope it also reports a failed store (05 R142, R158). -/
def fenceAt (scope : Nat) : Act Unit := do
  releaseAt scope
  if 4 ≤ scope then reportRemote

/-! ## Loads and stores of the current thread -/

/-- Deref, then alignment on the access size (05 R141).  DEDUCED: notes/assumptions/13.md. -/
def derefAligned (c : TCap) (addr size : Nat) (perms : List Nat) : Act Unit := do
  deref c addr size perms
  trapIf (addr % size != 0) 0x08 (w64 addr)

/-- A checked load of an agent (05 R141). -/
def loadAs (a : Agent) (c : TCap) (addr size : Nat) (kind : Kind) (perms : List Nat) : Act (List Byte × Bool) := do
  derefAligned c addr size perms
  let at' := a.carried c.val addr
  let p ← reach a at' size kind false false
  readPlace a p at' size

/-- A checked load of `size` bytes at an address. -/
def loadBytes (c : TCap) (addr size : Nat) (perms : List Nat) : Act (List Byte × Bool) := do
  loadAs (← curAgent) c addr size .read perms

/-- A load that is an acquire at a scope (05 R145): it returns a write only once that write is performed there. -/
def loadAcquire (c : TCap) (addr size scope : Nat) (perms : List Nat) : Act (List Byte × Bool) := do
  derefAligned c addr size perms
  let a ← curAgent
  let p ← reach a addr size .read false false
  acquireAt scope p size
  readPlace a p addr size

/-- A checked store (05 R141), a release at a scope where one is given. -/
def storeBytes (c : TCap) (addr : Nat) (bs : List Byte) (perms : List Nat) (tag : Bool) (release : Option Nat) :
    Act Unit := do
  derefAligned c addr bs.length perms
  let a ← curAgent
  let p ← reach a addr bs.length .write true (capHas c.val permFMTW)
  match release with
  | some scope => fenceAt scope
  | none => pure ()
  writePlace a p addr bs tag release

/-! ## Store forms of an address (08 R242, 07 R227) -/

/-- The absolute form of a gang-form or core-form target (07 R227, 08 R242): the capability moved with its bounds, or the
absolute cursor alone when its bounds reach beyond the allotment of its cursor. -/
def moveTarget (c : QWord) (cursor : Nat) (allotLo allotHi : Nat) : TCap :=
  let b := capBounds c
  let d : Int := (cursor : Int) - (capAddr c : Int)
  let lo := (b.1 : Int) + d
  let hi := (b.2 : Int) + d
  if (allotLo : Int) ≤ lo ∧ hi ≤ (allotHi : Int) then
    ⟨capWithBounds (capWithCursor c (w64 cursor)) (capExp c) lo.toNat hi.toNat, true⟩
  else ⟨dataVal (w64 cursor), false⟩

/-- First byte and end of the allotment that holds a store key, as absolute addresses. -/
def allotmentOf (s : State) (k : Nat) : Nat × Nat :=
  let device := s.dev.number * 2 ^ 50
  let found := s.bands.filterMap (fun b =>
    b.places.findSome? (fun p =>
      let lo := clusterKey b.die p.cluster p.storeBase
      if keyIsCluster k && decide (lo ≤ k) && decide (k < lo + b.packet.clusterBytes) then some (lo, lo + b.packet.clusterBytes)
      else
        (p.cores.find? (fun c =>
          keyIsCore k && decide (coreKey b.die p.cluster c 0 ≤ k) && decide (k < coreKey b.die p.cluster c 0 + b.packet.coreBytes))).map
          (fun c => (coreKey b.die p.cluster c 0, coreKey b.die p.cluster c 0 + b.packet.coreBytes))))
  match found with
  | (lo, hi) :: _ => (device + lo, device + hi)
  | [] => (0, 0)

/-! ## Messages to the host (14 R366, R367) -/

/-- A reply or message whose payload is words. -/
def wordsMessage (opcode context status seq : Nat) (payload : List DWord) : HostMsg :=
  ⟨opcode, context, status, seq, 8 * payload.length, payload⟩

/-- A device message of the open session, with its own sequence.  DESIGN CHOICE: notes/assumptions/34.md. -/
def hostMessage (opcode ctx : Nat) (payload : List DWord) (d : Device) : Device :=
  match d.session with
  | some x =>
    { d with
      sent := d.sent ++ [wordsMessage opcode ctx 0 x.messageSeq payload]
      session := some { x with messageSeq := x.messageSeq + 1 } }
  | none => d

/-- The last 64 CTXFAULT and DEVFAULT records (14 R378).  DEDUCED: notes/assumptions/39.md. -/
def crashAdd (m : HostMsg) (d : Device) : Device := { d with crash := (d.crash ++ [m]).drop ((d.crash.length + 1) - 64) }

/-- Kinds of a context fault record (13 R347). -/
def kindUnhandled : Nat := 1
def kindDouble : Nat := 2
def kindAbandoned : Nat := 3
def kindNodefail : Nat := 4
def kindSpill : Nat := 5
def kindSavefail : Nat := 6
def kindPreempted : Nat := 7
def kindKilled : Nat := 8
def kindLostwrite : Nat := 9
def kindAmoqarea : Nat := 10

/-- Send a context fault record (R347).  DESIGN CHOICE: notes/assumptions/34.md; DEDUCED: notes/assumptions/39.md. -/
def ctxFault (ctx kind cause : Nat) (path tid tpc tinfo : DWord) (s : State) : State :=
  let payload := [w64 (kind * 256 + cause), path, tid, tpc, tinfo, w64 s.dev.cycle, 0#64, 0#64]
  let d := hostMessage 0x80 ctx payload s.dev
  let d := crashAdd (wordsMessage 0x80 ctx 0 0 payload) d
  { s with dev := { d with faultCount := if d.session.isSome then d.faultCount + 1 else d.faultCount } }

/-! ## Taking a trap -/

/-- Words of a fault or timeout record (07 R230). -/
def recordWords (kind cause stage hops : Nat) (serial : Word) (pc info owner : DWord) : List DWord :=
  [w64 (kind * 2 ^ 56 + cause * 2 ^ 48 + stage * 2 ^ 40 + hops * 2 ^ 32 + serial.toNat), pc, info, owner]

/-- What goes back to a caller of this device, with its owner's clock: values or a record for a reply call, completion for
another.  DESIGN CHOICE: notes/assumptions/27.md. -/
def answerCall (caller : FiringId) (callerDevice : Nat) (serial : Word × Nat) (reply : Bool) (values : List TCap) (mark : Mark)
    (record : Option DWord) (clock : List Nat) (s : State) : State :=
  if callerDevice ≠ s.dev.number then s
  else if reply then
    { s with net := { s.net with replies := s.net.replies ++ [⟨caller, callerDevice, serial.1, serial.2, values, mark, clock⟩] } }
  else { s with net := { s.net with dones := s.net.dones ++ [⟨caller, callerDevice, serial.1, serial.2, record, clock⟩] } }

/-- The service thread with no duty (13 R351). -/
def idleService (t : Thread) : Thread := { Thread.idle with pos := t.pos }

/-- A handler is aborted: the record goes to its caller (07 R230, 11 R317). -/
def abortHandler (h : HandlerDuty) (cause : Nat) (info : DWord) (pc : DWord) (s : State) : State :=
  let hops := if cause = 0x0F ∧ h.hops = 7 ∧ info = 0#64 then 7 else h.hops
  let ws := recordWords 1 cause 1 hops h.serial pc info h.target
  let clock := s.mem.clockAt (eyeOf s.cur)
  let s := { s with cur := idleService s.cur }
  answerCall h.caller h.callerDevice (h.serial, h.thread) h.reply (ws.map (fun w => ⟨dataVal w, false⟩))
    (.fault (ws.getD 0 0#64)) (some (ws.getD 0 0#64)) clock s

/-- A transfer faults: it retires; the channel keeps the first unreported record (05 R167). -/
def faultTransfer (core : Pos) (channel id position inner : Nat) (s : State) : State :=
  { s with cores := s.cores.map (fun c =>
      if c.pos = coreOf core then
        { c with channels := c.channels.modify channel (fun ch =>
            match ch.live.find? (·.id == id) with
            | none => ch
            | some x =>
              { ch with
                live := ch.live.filter (·.id != id)
                faulted := ch.faulted ++ [(id, inner)]
                record :=
                  match ch.record with
                  | some r => some { r with overflow := true }
                  | none => some ⟨id, position, inner, false, x.issuer⟩ }) }
      else c) }

/-- Drop the places that a thread holds in queues.  DEDUCED: notes/assumptions/11.md. -/
def dropWaits (who : FiringId) (s : State) : State :=
  { s with
    mem := { s.mem with waiters := s.mem.waiters.filter (fun w => w.who != who) }
    units := s.units.map (fun u => { u with waiters := u.waiters.filter (fun w => w.who != who) }) }

/-- What a waiting instruction has asked for is withdrawn: its place at a full/empty word and an AMOQ request not yet
accepted (05 R140).  DEDUCED: notes/assumptions/11.md. -/
def withdrawWaits (f : FiringId) (s : State) : State :=
  let s := dropWaits f s
  { s with
    net := { s.net with amoqs := s.net.amoqs.filter (fun m => m.issuer != f) }
    ctxs := s.ctxs.map (fun c =>
      if c.number = f.ctx then
        { c with windows := c.windows.map (fun w => { w with held := w.held.filter (fun m => m.issuer != f) }) }
      else c) }

/-- A firing of a band, or of one of its loops. -/
def firesFor (s : State) (b : Band) (t : Thread) : Bool :=
  match t.duty with
  | .firing => t.fid.ctx == b.ctx && t.fid.band == b.entry
  | .loop d => s.loops.any (fun l => l.id == d.loop && l.band == b.entry)
  | _ => false

/-- The clocks of 13 R352 stop: until they run again they hold what had passed.  The waiting instruction is abandoned.
DEDUCED: notes/assumptions/24.md. -/
def stopClocks (now : Nat) (t : Thread) : Thread :=
  { t with runFrom := now - t.runFrom, waitFrom := t.waitFrom.map (now - ·), awaitsFabric := none }

/-- A band begins pre-emption: no firing of it starts or issues, every waiting instruction is abandoned, and the clocks of its
firings stop (13 R352, R354).  Its context has made no progress from then on (14 R369). -/
def beginPreempt (entry : Nat) (evict : Bool) (s : State) : State :=
  match s.bands.find? (fun b => b.entry == entry && (b.state == .running || b.state == .draining)) with
  | none => s
  | some b =>
    let stopped := (s.cur :: s.threads).filter (firesFor s b)
    let s := stopped.foldl (fun s t => withdrawWaits t.fid s) s
    let stop (t : Thread) : Thread := if firesFor s b t then stopClocks s.dev.cycle t else t
    { s with
      cur := stop s.cur
      threads := s.threads.map stop
      bands := s.bands.map (fun x =>
        if x.entry = entry then { x with state := .preempting, wasDraining := x.state == .draining, evict := evict } else x)
      ctxs := s.ctxs.map (fun c => if c.number = b.ctx then { c with lastProgress := s.dev.cycle } else c) }

/-- A code capability that JMPC and trap delivery install: unsealed (04 R131, 13 R343).  DEDUCED: notes/assumptions/12.md. -/
def unsealCap (c : QWord) : QWord := capWithType c 0

/-- Writing TCAUSE, TPC and TINFO replaces their poison; a poisoned pc goes to TPC. -/
def trapBad (bad : List Nat) : List Nat :=
  let rest := bad.filter (fun k => k != badTcause && k != badTpc && k != badTinfo)
  if bad.contains badPc then setAdd rest badTpc else rest

/-- The trap entry's pc and code capability are good; a poisoned code capability goes to the saved one. -/
def deliverBad (bad : List Nat) : List Nat :=
  let rest := bad.filter (fun k => k != badPc && k != badCode && k != badSaved)
  if bad.contains badCode then setAdd rest badSaved else rest

/-- A synchronous trap on the current thread at an address (13 R343 to R346): delivery, or one of the cases without delivery,
which leave the pc at the instruction's start.  DEDUCED: notes/assumptions/12.md, notes/assumptions/39.md. -/
def takeTrapAt (tpc : DWord) (cause : Nat) (info : DWord) (s : State) : State :=
  let t := s.cur
  match t.duty with
  | .idle => s
  | .handler h => abortHandler h cause info tpc s
  | .landing l => { faultTransfer l.core l.channel l.id l.packet cause s with cur := idleService t }
  | _ =>
    let t := { t with waitFrom := none, awaitsFabric := none, waitPassed := false }
    let stop (kind : Nat) (t' : Thread) : State :=
      let s := ctxFault (ctxOf t) kind cause t.pathw t.tidw t'.tpc t'.tinfo { s with cur := { t' with stopped := true } }
      match bandOf s t with
      | some b => beginPreempt b.entry false s
      | none => s
    if t.trapped then stop kindDouble t
    else
      let entry : TCap := match findCtx s (ctxOf t) with
        | some c => c.trapEntry
        | none => ⟨0#128, false⟩
      let t' := { t with tcause := w64 cause, tpc := tpc, tinfo := info, bad := trapBad t.bad }
      if entry.tag && capHas entry.val permEXE then
        { s with cur := { t' with
            savedCode := t.code
            trapped := true
            bad := deliverBad t'.bad
            code := unsealCap entry.val
            pc := capCursor entry.val } }
      else stop kindUnhandled t'

/-- A synchronous trap of the instruction at the pc. -/
def takeTrap (cause : Nat) (info : DWord) (s : State) : State := takeTrapAt s.cur.pc cause info s

/-- Return from a trap (04 R135).  DESIGN CHOICE: notes/assumptions/10.md. -/
def eret : Act Unit := do
  let t := (← get).cur
  trapIf (!(capHas t.code permSYS)) 0x06 (capCursor t.code)
  trapIf (!t.trapped) 0x06 (capCursor t.code)
  readGood [badTpc, badSaved]
  modCur (fun t => { t with code := t.savedCode, pc := t.tpc, trapped := false })

/-- The compute clocks run (14 R372, R374): what the threads, engines and pool do, they do only then. -/
def clocked (s : State) : Bool := s.dev.power == .d0 && !s.dev.minimalMode

/-- What the compute dies do, which happens only while their clocks run. -/
def whileClocked (m : State → Out) (s : State) : Out := if clocked s then m s else .next s

/-- The instruction waits: the watchdog's clock starts (13 R352).  DEDUCED: notes/assumptions/11.md. -/
def noteWait (s : State) : State :=
  match s.cur.waitFrom with
  | some _ => s
  | none => { s with cur := { s.cur with waitFrom := some s.dev.cycle } }

/-- Run an instruction's effect as one step.  DEDUCED: notes/assumptions/11.md. -/
def run (m : Act Unit) (s : State) : Out :=
  match m s with
  | .ok (_, t) => .next t
  | .error (.trap c i) => .next (takeTrap c i (dropWaits (agentId s.cur) s))
  | .error (.report c i f) => .next (takeTrap c i (f (dropWaits (agentId s.cur) s)))
  | .error .wait => .next (noteWait s)
  | .error (.hold keep) => .next (noteWait (keep s))
  | .error (.fault f) => .fault f

/-! ## Fetch (01 R32, 02 R56) -/

/-- Fetch the word at an address: checked like a 4-byte Deref with EXE through the code capability.  An address that is no
multiple of 4 is fetched as it stands.  DESIGN CHOICE: notes/assumptions/8.md. -/
def fetchWord (addr : Nat) : Act Word := do
  let t := (← get).cur
  readGood [badPc, badCode]
  deref ⟨t.code, true⟩ addr 4 [permEXE]
  let a ← threadAgent
  let p ← translateFor a addr 4 .fetch
  match p with
  | .bytes k _ => waitIf (copyOwned (← get) (some a.pos) k 4)
  | _ => pure ()
  let r ← readPlace a p addr 4
  return BitVec.ofNat 32 (bytesNat r.1)

end Sys2Proof.Machine
end

