-- ==== Sys2Proof/Machine/Flags.lean ====
section
/-!
DEFINITION. Machine/Flags.lean: FSTAT (01 R48) and the draws of stochastic rounding (03 R96).
-/

namespace Sys2Proof.Machine

/-- Flags combine by OR and are never cleared by an instruction that sets them (01 R48). -/
def orFlags (fs : Flags) : Act Unit := modCur (fun t => { t with fstat := t.fstat ||| fs.setWidth 64 })

/-- The bits of FSTAT that are not reserved. -/
def fstatMask : DWord := 0x1F#64

/-- Mix of R96. -/
def mix (x : DWord) : DWord :=
  let a := (x ^^^ (x >>> 30)) * 0xBF58476D1CE4E5B9#64
  let b := (a ^^^ (a >>> 27)) * 0x94D049BB133111EB#64
  b ^^^ (b >>> 31)

/-- sto_state at firing entry. -/
def stoSeed (path tid : DWord) : DWord := path ^^^ mix tid

def stoNext (x : DWord) : DWord := x + 0x9E3779B97F4A7C15#64

/-- The draw after a step of the generator. -/
def stoDraw (x : DWord) : Nat := (mix x).toNat / 2 ^ 32

/-- n draws from a state, and the state after them. -/
def drawList (x : DWord) (n : Nat) : List Nat × DWord :=
  match n with
  | 0 => ([], x)
  | k + 1 =>
    let y := stoNext x
    let r := drawList y k
    (stoDraw y :: r.1, r.2)

/-- The n draws of an instruction; every form but those with RM = STO takes none.  DEDUCED: notes/assumptions/20.md. -/
def takeDraws (rm : BitVec 3) (n : Nat) : Act (List Nat) := do
  if rm = 5#3 then
    if n ≠ 0 then readGood [badSto]
    let r := drawList (← get).cur.sto n
    modCur (fun t => { t with sto := r.2 })
    return r.1
  else return List.replicate n 0

/-- The one draw of a scalar form. -/
def takeDraw (rm : BitVec 3) : Act Nat := do return (← takeDraws rm 1).getD 0 0

/-- A rounded result and its flags go to a g register (03 R87). -/
def writeRounded (d : BitVec 6) (r : Nat × Flags) : Act Unit := do
  orFlags r.2
  writeData d (w64 r.1)

end Sys2Proof.Machine
end

