-- ==== Sys2Proof/Machine/Operands.lean ====
section
/-!
DEFINITION. Machine/Operands.lean: the operand forms of chapter 02 and the common steps of every instruction: the refusals of
a handler (11 R316, R317), check 10 (07 R208), the allotment (01 R47), the governing predicate (R29) and the pc.
-/

namespace Sys2Proof.Machine

/-! ## Operands -/

/-- B as a register, or the literal (02 R54). -/
def readB (f : Ext) : Act DWord := if f.hasLit then pure f.lit else readData f.b f.tb

/-- B as a register with its tag, or the literal untagged. -/
def readBCap (f : Ext) : Act TCap := if f.hasLit then pure ⟨dataVal f.lit, false⟩ else readG f.b f.tb

/-- B as a signed 6-bit immediate (02 R52). -/
def imm6 (f : Ext) : DWord := f.b.signExtend 64

/-- The offset of a memory form in bytes: I6 in units of `unit`, or IMM32 (02 R69). -/
def memOffset (f : Ext) (unit : Nat) : Int := if f.hasExt then f.imm.toInt else f.b.toInt * (unit : Int)

/-- The address of a memory form. -/
def memAddr (c : TCap) (f : Ext) (unit : Nat) : Nat := addOffset (capAddr c.val) (memOffset f unit)

/-- The governing predicate after PNEG (01 R28). -/
def governing (t : Thread) (f : Ext) : Word :=
  let p := pRead t f.pred.toNat
  if f.pneg then ~~~p else p

/-- The bit of a predicate that governs element j of elements of w bits (01 R28). -/
def predBit (p : Word) (w j : Nat) : Bool := p.getLsbD (if w = 64 then 2 * j else if w = 32 then j else if w = 16 then j / 2
  else if w = 8 then j / 4 else j / 8)

/-- TINFO of cause 0x01 (02 R72). -/
def illegalInfo (check : Nat) (word : Word) : DWord := word ++ 0#28 ++ BitVec.ofNat 4 check

/-! ## Allotment (01 R47) -/

def regInfo (file number : Nat) : DWord := w64 (file * 0x100 + number)

/-- The port behind a channel number is declared by the actor (01 R27). -/
def channelDeclared (s : State) (port : Nat) : Bool :=
  match s.cur.duty, findBand s s.cur.fid.band with
  | .firing, some b => ((b.actor.ins.getD port (0, 0)).2 != 0)
  | _, _ => false

/-- TINFO when a field names a register outside the allotment. -/
def fieldOutside (s : State) (u : FieldUse) (x : BitVec 6) : Option DWord :=
  let n := x.toNat
  let a := s.cur.allotw
  match u with
  | .g | .reg0 | .query => if n < allotG a then none else some (regInfo 0 n)
  | .v | .queryV =>
    if n < 28 then (if n < allotV a then none else some (regInfo 1 n))
    else if channelDeclared s (n - 28) then none else some (regInfo 1 n)
  | .vdest => if n < allotV a then none else some (regInfo 1 n)
  | .acc => if n < allotTiles a then none else some (regInfo 2 n)
  | _ => none

/-- The first register of a block outside the allotment. -/
def blockOutside (s : State) (first count : Nat) : Option DWord :=
  if first + count ≤ allotG s.cur.allotw then none else some (regInfo 0 (max first (allotG s.cur.allotw)))

/-- The registers that a form names, in the order A, B, C, D.  DEDUCED: notes/assumptions/9.md. -/
def outside (s : State) (r : Form) (f : Ext) : Option DWord :=
  (fieldOutside s r.a f.a).orElse (fun _ =>
  ((if f.hasLit then none else fieldOutside s r.b f.b).orElse (fun _ =>
  ((fieldOutside s r.c f.c).orElse (fun _ =>
  ((fieldOutside s r.d f.d).orElse (fun _ =>
    let n := (f.imm.extractLsb' 12 4).toNat
    match r.imm with
    | .rcall => (blockOutside s f.b.toNat n).orElse (fun _ => blockOutside s f.d.toNat (f.imm.extractLsb' 16 3).toNat)
    | .rcalln => blockOutside s f.b.toNat n
    | .rreply => blockOutside s f.a.toNat f.imm.toNat
    | _ => none)))))))

/-! ## Handlers (11 R316, R317) -/

def inHandler (t : Thread) : Bool :=
  match t.duty with
  | .handler _ | .landing _ => true
  | _ => false

/-- Instructions a handler has executed. -/
def executedOf (t : Thread) : Nat :=
  match t.duty with
  | .handler h => h.executed
  | .landing l => l.executed
  | _ => 0

/-- The forms R316 permits in a handler. -/
def handlerPermits (op fn : Nat) : Bool :=
  decide (1 ≤ op ∧ op ≤ 5) || op == 0x08 || op == 0x0B || op == 0x0C || op == 0x0E || op == 0x0F ||
  decide (0x10 ≤ op ∧ op ≤ 0x12) || op == 0x14 || (op == 0x15 && fn == 3) || (op == 0x16 && decide (fn ≤ 3)) ||
  (op == 0x17 && fn == 0) || decide (0x20 ≤ op ∧ op ≤ 0x29) || (op == 0x32 && (fn == 2 || fn == 3)) || op == 0x33

/-- The refusals of a handler; every instruction counts toward its limit.  DEDUCED: notes/assumptions/9.md. -/
def handlerGate (op fn : Nat) (word : Word) : Act Unit := do
  let t := (← get).cur
  if inHandler t then
    trapIf (decide (4096 ≤ executedOf t)) 0x0F 4096#64
    trapIf (!(handlerPermits op fn)) 0x0F (word.setWidth 64)

def countExecuted (t : Thread) : Thread :=
  match t.duty with
  | .handler h => { t with duty := .handler { h with executed := h.executed + 1 } }
  | .landing l => { t with duty := .landing { l with executed := l.executed + 1 } }
  | _ => t

/-- An instruction that has passed the common checks: it counts toward a handler's limit and waits no longer. -/
def beginInstr (t : Thread) : Thread := { countExecuted t with waitFrom := none, awaitsFabric := none }

/-- Check 10: a form on a kind of core or thread that does not carry its unit (07 R208).  DEDUCED: notes/assumptions/9.md. -/
def unitMissing (t : Thread) (op fn : Nat) : Bool :=
  (op == 0x33 && !t.pos.lupin) || ((op == 0x19 || op == 0x31) && t.pos.lupin) ||
  (op == 0x32 && (fn == 2 || fn == 3) && !(inHandler t))

/-! ## The common steps -/

/-- Forms whose predicate governs elements, not the instruction (06 R175, 05 R171). -/
def elementwise (op fn : Nat) : Bool := decide (0x20 ≤ op ∧ op ≤ 0x29) || (op == 0x1A && decide (fn ≤ 1))

/-- Draws of a form that its predicate turns off (01 R29, 03 R96). -/
def drawsOff (op : Nat) (r : Form) : Nat := if r.rm == .none then 0 else if op = 0x2A then 4096 else 1

/-- The address after the instruction's last word. -/
def nextPc (t : Thread) (f : Ext) : DWord := t.pc + w64 (4 * lenWords f.len)

def advance (f : Ext) : Act Unit := modCur (fun t => { t with pc := nextPc t f })

/-- Every instruction: refusals, check 10, allotment and predicate in this order, then its effect.  A form that `jumps`
sets the pc itself; any other goes on at the next address.  DEDUCED: notes/assumptions/9.md. -/
def instrWith (jumps : Bool) (op : BitVec 6) (fn : BitVec 4) (f : Ext) (body : Act Unit) (s : State) : Out :=
  run (do
    let word := baseWord op fn f
    handlerGate op.toNat fn.toNat word
    let s ← get
    trapIf (unitMissing s.cur op.toNat fn.toNat) 0x01 (illegalInfo 10 word)
    let form := formFor op fn f.len
    match form.bind (fun r => outside s r f) with
    | some info => trap 0x02 info
    | none => pure ()
    modCur beginInstr
    readGood (predItems f.pred.toNat)
    if elementwise op.toNat fn.toNat || (governing s.cur f).getLsbD 0 then do
      body
      if jumps then pure () else advance f
    else do
      let _ ← takeDraws f.rm (match form with | some r => drawsOff op.toNat r | none => 0)
      advance f) s

/-- An instruction that goes on at the next address. -/
def instr (op : BitVec 6) (fn : BitVec 4) (f : Ext) (body : Act Unit) (s : State) : Out := instrWith false op fn f body s

/-- An instruction that sets the pc, or ends its thread's duty. -/
def jumpInstr (op : BitVec 6) (fn : BitVec 4) (f : Ext) (body : Act Unit) (s : State) : Out := instrWith true op fn f body s

/-- Check 9: a mismatch against a record, descriptor or slot (05 R146, 07 R208). -/
def check9If (b : Bool) (op : BitVec 6) (fn : BitVec 4) (f : Ext) : Act Unit :=
  trapIf b 0x01 (illegalInfo 9 (baseWord op fn f))

end Sys2Proof.Machine
end

