-- ==== Sys2Proof/Machine/Float.lean ====
section
/-!
DEFINITION. Machine/Float.lean: scalar floating-point instructions (04 R120 to R123).
-/

namespace Sys2Proof.Machine

/-! ## Operations on codes -/

/-- Sign bit of a code. -/
def Fp.isNeg (f : Fp) (a : Nat) : Bool := a.testBit (f.exp + f.frac)

/-- Smaller of two codes that are not NaN, with −0 below +0 (R120). -/
def Fp.less (f : Fp) (a b : Nat) : Bool :=
  match f.cmp a b with
  | .lt => true
  | .gt => false
  | .eq => f.isNeg a && !f.isNeg b

/-- FMIN and FMAX: exact, NaN sources as R103. -/
def Fp.minMax (f : Fp) (max : Bool) (a b : Nat) : Nat × Flags :=
  match f.firstNan [a, b] with
  | some r => r
  | none => (if (f.less a b) != max then a else b, Flags.none)

/-- The relation of a compare code (02 R71), and its flag (R121). -/
def Fp.relation (f : Fp) (cc a b : Nat) : Bool × Flags :=
  if (f.decode a).isNan || (f.decode b).isNan then
    (cc == 1, if decide (2 ≤ cc) || f.signalling a || f.signalling b then Flags.invalid else Flags.none)
  else
    let o := f.cmp a b
    (match cc with
     | 0 => o == .eq
     | 1 => o != .eq
     | 2 => o == .lt
     | 3 => o != .gt
     | 4 => o == .gt
     | _ => o != .lt, Flags.none)

/-- The class bit of a code (R123). -/
def Fp.classBit (f : Fp) (a : Nat) : Nat :=
  let neg := f.isNeg a
  match f.decode a with
  | .inf _ => if neg then 0 else 7
  | .nan _ _ => if f.signalling a then 8 else 9
  | .fin _ m _ =>
    if m = 0 then (if neg then 3 else 4)
    else if m < 2 ^ f.frac then (if neg then 2 else 5)
    else if neg then 1 else 6

/-- A converted code as it stands in a g register (R122). -/
def extendCode (fmt code : Nat) : DWord :=
  if 7 ≤ fmt ∧ fmt < 14 ∧ fmtSigned fmt then BitVec.ofInt 64 (toSigned (intWidth fmt) code) else w64 code

/-- TINFO of cause 0x0C (13 R348). -/
def rangeInfo (nan : Bool) (dst src index : Nat) : DWord :=
  w64 ((if nan then 2 ^ 28 else 0) + dst * 2 ^ 24 + src * 2 ^ 16 + index)

/-! ## Shapes -/

def fpFmt (f : Ext) : Fp := Fp.ofFmt f.fmt.toNat

/-- The low bits of a register that a format holds (03 R87). -/
def codeOf (fmt : Nat) (x : DWord) : Nat := x.toNat % 2 ^ fmtBits fmt

def readCode (f : Ext) (n : BitVec 6) (tb : Bool) : Act Nat := do return codeOf f.fmt.toNat (← readData n tb)

/-- D := RoundTo(op(a, b)). -/
def fpRR (op : Fp → Rm → Nat → Nat → Nat → Nat × Flags) (f : Ext) : Act Unit := do
  let a ← readCode f f.a f.ta
  let b ← readCode f f.b f.tb
  let d ← takeDraw f.rm
  writeRounded f.d (op (fpFmt f) (Rm.ofCode f.rm.toNat) d a b)

def fpR (op : Fp → Rm → Nat → Nat → Nat × Flags) (f : Ext) : Act Unit := do
  let a ← readCode f f.a f.ta
  let d ← takeDraw f.rm
  writeRounded f.d (op (fpFmt f) (Rm.ofCode f.rm.toNat) d a)

/-- FFMA: one rounding of a · b + c (R120). -/
def ffmaBody (f : Ext) : Act Unit := do
  let a ← readCode f f.a f.ta
  let b ← readCode f f.b f.tb
  let c ← readCode f f.c f.tc
  let d ← takeDraw f.rm
  writeRounded f.d ((fpFmt f).fma (Rm.ofCode f.rm.toNat) d false false a b c)

def fcmpBody (f : Ext) : Act Unit := do
  let a ← readCode f f.a f.ta
  let b ← readCode f f.b f.tb
  let r := (fpFmt f).relation f.sub.toNat a b
  orFlags r.2
  writeP f.d (allOnes r.1)

/-- FCVT from SUB[3:0] to FMT, without a saturate bit (R122). -/
def fcvtBody (f : Ext) : Act Unit := do
  let src := (f.sub.extractLsb' 0 4).toNat
  let dst := f.fmt.toNat
  let a ← readData f.a f.ta
  let d ← takeDraw f.rm
  let code := codeOf src a
  match convert src dst (Rm.ofCode f.rm.toNat) false d code with
  | some r => do
    orFlags r.2
    writeData f.d (extendCode dst r.1)
  | none => trap 0x0C (rangeInfo (numValue src code).isNan dst src 0)

def fclassBody (f : Ext) : Act Unit := do
  let a ← readCode f f.a f.ta
  writeData f.d (w64 (2 ^ (fpFmt f).classBit a))

/-! ## Meanings -/

/-- FADD (R120). -/
def execFadd (f : Ext) (s : State) : Out :=
  instr 0x0C#6 0x0#4 f (fpRR Fp.add f) s

/-- FSUB (R120). -/
def execFsub (f : Ext) (s : State) : Out :=
  instr 0x0C#6 0x1#4 f (fpRR Fp.sub f) s

/-- FMUL (R120). -/
def execFmul (f : Ext) (s : State) : Out :=
  instr 0x0C#6 0x2#4 f (fpRR Fp.mul f) s

/-- FFMA (R120). -/
def execFfma (f : Ext) (s : State) : Out :=
  instr 0x0C#6 0x3#4 f (ffmaBody f) s

/-- FDIV (R120). -/
def execFdiv (f : Ext) (s : State) : Out :=
  instr 0x0C#6 0x4#4 f (fpRR Fp.div f) s

/-- FSQRT (R120). -/
def execFsqrt (f : Ext) (s : State) : Out :=
  instr 0x0C#6 0x5#4 f (fpR Fp.sqrt f) s

/-- FMIN (R120). -/
def execFmin (f : Ext) (s : State) : Out :=
  instr 0x0C#6 0x6#4 f (fpRR (fun p _ _ a b => p.minMax false a b) f) s

/-- FMAX (R120). -/
def execFmax (f : Ext) (s : State) : Out :=
  instr 0x0C#6 0x7#4 f (fpRR (fun p _ _ a b => p.minMax true a b) f) s

/-- FCMP (R121). -/
def execFcmp (f : Ext) (s : State) : Out :=
  instr 0x0C#6 0x8#4 f (fcmpBody f) s

/-- FCVT (R122). -/
def execFcvt (f : Ext) (s : State) : Out :=
  instr 0x0C#6 0x9#4 f (fcvtBody f) s

/-- FCLASS (R123). -/
def execFclass (f : Ext) (s : State) : Out :=
  instr 0x0C#6 0xA#4 f (fclassBody f) s

end Sys2Proof.Machine
end

