-- ==== Sys2Proof/Machine/Engines.lean ====
section
/-!
DEFINITION. Machine/Engines.lean: threads entering and leaving their duties (01 R19, 04 R133, 09 R261 to R265, 12 R327), barrier
words (05 R160, R161), packets and the retirement of transfers (05 R165), writes of engines, and band records.
-/

namespace Sys2Proof.Machine

/-! ## Threads in place -/

/-- The thread record on a hardware thread. -/
def threadAt (s : State) (p : Pos) : Option Thread :=
  if s.cur.pos = p ∧ s.cur.hold = .running then some s.cur
  else s.threads.find? (fun t => t.pos == p && t.hold == .running)

/-- A hardware thread that holds nothing. -/
def threadFree (s : State) (p : Pos) : Bool :=
  match threadAt s p with
  | some t => t.duty == .idle
  | none => true

/-- Put a thread record on its hardware thread. -/
def placeThread (t : Thread) (s : State) : State :=
  if s.cur.pos = t.pos ∧ s.cur.hold = .running then { s with cur := t }
  else { s with threads := s.threads.filter (fun x => x.pos != t.pos || x.hold != .running) ++ [t] }

/-- Every thread record. -/
def allThreads (s : State) : List Thread := s.cur :: s.threads

/-- Apply a function to the records that satisfy a test. -/
def mapThreads (want : Thread → Bool) (f : Thread → Thread) (s : State) : State :=
  { s with
    cur := if want s.cur then f s.cur else s.cur
    threads := s.threads.map (fun t => if want t then f t else t) }

/-- The record of a firing, wherever it is held. -/
def threadOf (s : State) (f : FiringId) : Option Thread :=
  (allThreads s).find? (fun t => t.fid == f && (t.duty != .idle) && !(inHandler t))

/-- Apply a function to the record of a firing. -/
def modFiring (f : FiringId) (g : Thread → Thread) (s : State) : State :=
  mapThreads (fun t => t.fid == f && (t.duty != .idle) && !(inHandler t)) g s

/-! ## Firing entry (01 R19, R36, R37) -/

/-- TID (01 R36). -/
def tidWord (firing inst gang : Nat) (p : Pos) : DWord :=
  w64 (firing % 2 ^ 32 * 2 ^ 26 + inst % 64 * 2 ^ 20 + gang % 64 * 2 ^ 14 + p.die % 4 * 2 ^ 12 + p.cluster % 64 * 2 ^ 6 +
    p.core % 8 * 2 ^ 3 + p.thread % 8)

/-- ALLOT of a handler and of a landing handler (01 R37).  DEDUCED: notes/assumptions/26.md. -/
def handlerAllot : DWord := 11#64

/-- ALLOT of a loop firing (01 R37). -/
def loopAllot (w : DWord) : DWord := w &&& 0x3F#64

/-- Registers g1 on, in order, the rest as at entry. -/
def entryRegs (xs : List TCap) : Vector GReg 64 :=
  (List.range xs.length).foldl
    (fun g i => match xs[i]? with
      | some x => if i + 1 < 64 then g.setIfInBounds (i + 1) ⟨x.val, x.tag, .full, .clear, []⟩ else g
      | none => g)
    (Vector.replicate 64 GReg.zero)

/-- A thread at the entry of a duty. -/
def entryThread (pos : Pos) (duty : Duty) (fid : FiringId) (ctxw pathw tidw allotw : DWord) (code : QWord)
    (regs : List TCap) (now : Nat) : Thread :=
  { Thread.idle with
    pos := pos
    duty := duty
    fid := fid
    ctxw := ctxw
    pathw := pathw
    tidw := tidw
    allotw := allotw
    code := code
    pc := capCursor code
    sto := stoSeed pathw tidw
    g := entryRegs regs
    runFrom := now }

/-- CTX of a node (01 R34). -/
def ctxWord (device : Nat) (p : Packet) (number : Nat) : DWord :=
  w64 (device * 2 ^ 50 + (if p.lupin then 2 ^ 20 else 0) + p.prio * 2 ^ 17 + (if p.det then 2 ^ 16 else 0) + number)

/-! ## Bands and instances -/

def modInstance (band gang inst : Nat) (f : Instance → Instance) (s : State) : State :=
  { s with bands := s.bands.map (fun b =>
      if b.entry = band then
        { b with instances := b.instances.map (fun i => if i.gang = gang ∧ i.index = inst then f i else i) }
      else b) }

def findInstance (b : Band) (gang inst : Nat) : Option Instance :=
  b.instances.find? (fun i => i.gang == gang && i.index == inst)

/-- RATE of input port k and of output port k; 0 when the port is not declared. -/
def inRate (b : Band) (k : Nat) : Nat := (b.actor.ins.getD k (0, 0)).2
def outRate (b : Band) (k : Nat) : Nat := (b.actor.outs.getD k (0, 0)).2
def inEsize (b : Band) (k : Nat) : Nat := (b.actor.ins.getD k (0, 0)).1
def outEsize (b : Band) (k : Nat) : Nat := (b.actor.outs.getD k (0, 0)).1

/-- Gang, instance and port of a route word (07 R209). -/
def routeGang (w : DWord) : Nat := (w.extractLsb' 8 6).toNat
def routeInst (w : DWord) : Nat := (w.extractLsb' 2 6).toNat
def routePort (w : DWord) : Nat := (w.extractLsb' 0 2).toNat

/-- Slots of a FIFO that no element and no reservation takes (09 R262). -/
def roomOf (b : Band) (i : Instance) (port : Nat) : Nat :=
  b.packet.depths.getD port 0 - (i.fifos.getD port []).length - i.reserved.getD port 0

/-- Set one entry of a list. -/
def setAt {α : Type} (xs : List α) (k : Nat) (f : α → α) : List α := xs.modify k f

/-! ## Barrier words (05 R160, R161) -/

/-- The fields of a barrier word. -/
structure BarrierWord where
  phase : Nat
  expected : Nat
  arrived : Nat
  pending : Nat
  /-- [127:79], reserved: only BINIT writes them -/
  reserved : Nat
  deriving DecidableEq, Repr

def barrierOf (n : Nat) : BarrierWord :=
  ⟨n % 2, n / 2 % 2 ^ 15, n / 2 ^ 16 % 2 ^ 15, n / 2 ^ 31 % 2 ^ 48, n / 2 ^ 79⟩

def barrierNat (b : BarrierWord) : Nat := b.phase + b.expected * 2 + b.arrived * 2 ^ 16 + b.pending * 2 ^ 31 + b.reserved * 2 ^ 79

/-- Complete. -/
def BarrierWord.complete (b : BarrierWord) : BarrierWord :=
  if b.arrived = b.expected ∧ b.pending = 0 then { b with phase := 1 - b.phase, arrived := 0 } else b

/-- Add to PENDING modulo 2^48, and test completion. -/
def BarrierWord.addBytes (b : BarrierWord) (bytes : Int) : BarrierWord :=
  ({ b with pending := (((b.pending : Int) + bytes) % ((2 ^ 48 : Nat) : Int)).toNat } : BarrierWord).complete

/-- One arrival with its bytes. -/
def BarrierWord.arrive (b : BarrierWord) (bytes : Int) : BarrierWord := ({ b with arrived := b.arrived + 1 } : BarrierWord).addBytes bytes

/-! ## Writes of the engines: performed at dev scope at once -/

/-- The eye of an engine that acts for a firing. -/
def engineEye (die : Nat) (issuer : FiringId) : Eye := ⟨die, ⟨false, die, 2 ^ 16, 0, 0⟩, issuer⟩

/-- Write bytes for a die (4 is the hub) and make them visible everywhere.  DEDUCED: notes/assumptions/7.md. -/
def performWrite (die k : Nat) (bs : List Byte) (tag : Bool) (issuer : FiringId) (s : State) : State :=
  let id := s.nextId
  { s with
    mem := (s.mem.write (engineEye die issuer) [] id none k bs tag).applyWhere none (fun w => w.id == id)
    nextId := id + 1 }

/-- The same at every part of a place; a split one takes no tag. -/
def performPlace (die : Nat) (p : Place) (bs : List Byte) (tag : Bool) (issuer : FiringId) (s : State) : State :=
  match p with
  | .bytes k _ => performWrite die k bs tag issuer s
  | .split ps => (placeParts ps bs).foldl (fun s x => performWrite die x.1 x.2 false issuer s) s
  | .word _ | .remote _ => s

/-- Subtract landed bytes from PENDING (05 R161). -/
def landAt (die k count : Nat) (issuer : FiringId) (s : State) : State :=
  let b := barrierOf (bytesNat (s.mem.bytes k 16))
  performWrite die k (natBytes 16 (barrierNat (b.addBytes (-(count : Int))))) false issuer s

/-! ## Transfers (05 R165) -/

def modChannel (core : Pos) (channel : Nat) (f : Channel → Channel) (s : State) : State :=
  { s with cores := s.cores.map (fun c =>
      if c.pos = coreOf core then { c with channels := c.channels.modify channel f } else c) }

def findXfer (s : State) (core : Pos) (channel id : Nat) : Option Xfer :=
  match findCore s core with
  | some c => (c.channels.getD channel ⟨2, none, [], [], none⟩).live.find? (·.id == id)
  | none => none

/-- XDONE: the lowest identifier that has not retired (05 R167). -/
def Channel.done (c : Channel) : Nat := c.live.foldl (fun n x => min n x.id) c.nextId

/-- A packet is done: it is counted off the barrier, and the last one retires the transfer (R165).  DEDUCED: notes/assumptions/18.md. -/
def packetDone (core : Pos) (channel id packet : Nat) (s : State) : State :=
  match findXfer s core channel id with
  | none => s
  | some x =>
    let s := match x.barrier with
      | some k => landAt core.die k (x.packetRange packet).2 x.issuer s
      | none => s
    let x := { x with done := setAdd x.done packet, landing := setDrop x.landing packet }
    modChannel core channel (fun c =>
      if x.done.length ≥ x.packets ∨ (x.cancelled ∧ x.landing = []) then { c with live := c.live.filter (·.id != id) }
      else { c with live := c.live.map (fun y => if y.id = id then x else y) }) s

/-! ## Loop firings (12 R327) -/

/-- The position of the loop firing for window position q. -/
def loopPos (l : Loop) (q : Nat) : Pos :=
  let core := l.set.getD (q % l.set.length) ⟨false, 0, 0, 0, 0⟩
  { core with thread := q / l.set.length % 4 }

/-- The number that stands for a loop where a firing's name holds a pool entry, which is below 2^14. -/
def loopBand (id : Nat) : Nat := 2 ^ 14 + id

/-- The firing of window position q of the round in progress.  DEDUCED: notes/assumptions/31.md. -/
def loopThread (l : Loop) (q : Nat) (commit : Bool) (now : Nat) : Thread :=
  let i := l.window.getD q 0
  let pos := loopPos l q
  let tid := tidWord (l.windowNo % 2 ^ 16 * 2 ^ 16 + q) (if commit then 1 else 0) 0 pos
  let inst : TCap := ⟨0x0000#16 ++ 5#4 ++ 0#44 ++ BitVec.ofNat 64 l.id, true⟩
  entryThread pos (.loop ⟨l.id, i, q, commit, false, q % l.set.length⟩) ⟨l.ctx, loopBand l.id, if commit then 1 else 0, q, l.windowNo⟩ l.ctxw l.pathw
    tid (loopAllot l.allotw) (if commit then l.commitCode else l.reserveCode)
    [inst, ⟨dataVal (w64 i), false⟩, l.cells, l.guard, l.operand] now

/-- Where a started loop firing returns: to the core that took the place of the one it left, on the thread of its number
(12 R339).  DEDUCED: notes/assumptions/31.md. -/
def loopBack (l : Loop) (d : LoopDuty) (t : Thread) : Pos :=
  { l.set.getD (d.core % l.set.length) ⟨false, 0, 0, 0, 0⟩ with thread := t.pos.thread }

/-- A loop firing that waits for the thread at a position (12 R339). -/
def loopReturns (s : State) (l : Loop) (p : Pos) : Bool :=
  (allThreads s).any (fun t => t.hold != .running &&
    (match t.duty with
     | .loop d => d.loop == l.id && loopBack l d t == p
     | _ => false))

/-- The band that issued a loop is running or draining. -/
def loopBandRuns (s : State) (l : Loop) : Bool :=
  match findBand s l.band with
  | some b => b.state == .running || b.state == .draining
  | none => false

/-- Start the lowest position not yet fired on each free thread of the loop's cores; it follows what the round follows
(R335).  DEDUCED: notes/assumptions/31.md. -/
def startLoopFirings (id : Nat) (s : State) : State :=
  match findLoop s id with
  | none => s
  | some l0 =>
    (List.range l0.window.length).foldl
      (fun s q =>
        match findLoop s id with
        | none => s
        | some l =>
          if (l.state == .reserve || l.state == .commit) && loopBandRuns s l && l.set != [] && !(l.fired.contains q) &&
              threadFree s (loopPos l q) && !(loopReturns s l (loopPos l q)) then
            let s := placeThread (loopThread l q (l.state == .commit) s.dev.cycle) s
            let s := { s with mem := s.mem.applyClock (loopPos l q).die (some (.band l.ctx (loopBand id))) l.clock }
            { s with loops := s.loops.map (fun x => if x.id = id then { x with fired := setAdd x.fired q } else x) }
          else s)
      s

/-! ## Closing a firing (04 R133) -/

/-- A register of the thread has a pending producer; an atomic that another device answers to g0 counts too (05 R154).  DEDUCED:
notes/assumptions/14.md. -/
def anyPending (t : Thread) : Bool :=
  t.g.toList.any (·.st == .pending) || t.v.toList.any (·.st == .pending) || t.inFlight.any (·.away.isSome)

/-- The cause that reports a record: 0x10 for a timeout, 0x0F for a fault (07 R230, R231). -/
def recordCause (w : DWord) : Nat := if (w.extractLsb' 56 8).toNat = 2 then 0x10 else 0x0F

/-- The report clears the RCALLN records (07 R231). -/
def clearRcalln (t : Thread) : Thread := { t with rcallRecord := none, rcallUnreported := 0 }

/-- Failed stores that nothing reported are reported to the host; the band keeps the others (05 R143). -/
def settleStores (b : Band) : Act Unit := do
  let t := (← get).cur
  modify (fun s => (t.remoteStores.filter (·.failed)).foldl
    (fun s r => ctxFault b.ctx kindLostwrite 0x10 t.pathw t.tidw 0#64 r.address s) s)
  modBand b.entry (fun b => { b with stores := b.stores ++ (t.remoteStores.filter (fun r => !r.failed)).map (fun r =>
    ⟨r.id, r.issued, t.fid, t.pathw, t.tidw, r.address⟩) })

/-- Steps 4 and 5 of END, and the instance's next state (R133, R264).  DEDUCED: notes/assumptions/24.md. -/
def closeInstance (b : Band) (t : Thread) (s : State) : State :=
  let s := modInstance b.entry t.fid.gang t.fid.inst (fun i =>
    { i with
      state := .idle
      count := i.count + 1
      fifos := (List.range 4).map (fun k => (i.fifos.getD k []).drop (inRate b k - t.popped.getD k 0)) }) s
  match findInstance b t.fid.gang t.fid.inst with
  | none => s
  | some i =>
    (List.range 4).foldl
      (fun s j =>
        if t.boundAtStart.getD j false then
          match i.outs.getD j none with
          | some route =>
            modInstance b.entry (routeGang route) (routeInst route) (fun d =>
              { d with reserved := setAt d.reserved (routePort route) (· - (outRate b j - t.sent.getD j 0)) }) s
          | none => s
        else s)
      s

/-- A loop firing's END: the position has ended; it committed, failed or faulted (12 R332, R338).  What follows the round follows
its accesses (R335). -/
def closeLoopFiring (l : LoopDuty) (cause : Option Nat) (clock : List Nat) (s : State) : State :=
  { s with loops := s.loops.map (fun x =>
      if x.id = l.loop then
        { x with
          ended := setAdd x.ended l.position
          endClock := clockMerge x.endClock clock
          failed := if l.failed then setAdd x.failed l.position else x.failed
          faults := match cause with | some c => x.faults ++ [(l.position, c)] | none => x.faults
          committed := if l.commit && !l.failed && cause.isNone then x.committed + 1 else x.committed }
      else x) }

/-- END of an actor firing or a loop firing (R133, 13 R345). -/
def closeFiring : Act Unit := do
  let t := (← get).cur
  let b ← getBand
  waitIf (anyPending t || t.rcalln != 0)
  match t.rcallRecord with
  | some w => reportTrap (recordCause w) w (fun s => { s with cur := clearRcalln s.cur })
  | none => pure ()
  settleStores b
  let cause := (t.tcause.extractLsb' 0 8).toNat
  if t.trapped then modify (ctxFault b.ctx kindAbandoned cause t.pathw t.tidw t.tpc t.tinfo)
  modCur (fun t => { Thread.idle with pos := t.pos })
  match t.duty with
  | .loop l => modify (fun s => startLoopFirings l.loop
      (closeLoopFiring l (if t.trapped then some cause else none) (s.mem.clockAt (eyeOf t)) s))
  | _ => do
    modify (fun s => { s with bands := s.bands.map (fun x =>
      if x.entry = b.entry then { x with endClock := clockMerge x.endClock (s.mem.clockAt (eyeOf t)) } else x) })
    modify (closeInstance b t)

/-- END of a handler, with the values of its reply (07 R228). -/
def closeHandler (h : HandlerDuty) (values : List TCap) : Act Unit := do
  let t := (← get).cur
  waitIf (anyPending t)
  modCur idleService
  modify (fun s => answerCall h.caller h.callerDevice (h.serial, h.thread) h.reply values .clear none (s.mem.clockAt (eyeOf t)) s)

/-- END of a landing handler: its stores are performed at dev scope, then its packet completes (05 R165, R166). -/
def closeLanding (l : LandingDuty) : Act Unit := do
  waitIf (anyPending (← get).cur)
  performOwn 3
  modCur idleService
  modify (packetDone l.core l.channel l.id l.packet)

/-- END of any duty. -/
def endDuty : Act Unit := do
  match (← get).cur.duty with
  | .handler h => closeHandler h []
  | .landing l => closeLanding l
  | _ => closeFiring

/-! ## Events of a context (01 R45, 09 R273) -/

/-- A wait mask is satisfied. -/
def maskMet (wait events : BitVec 256) : Bool := wait &&& events == wait

/-- Event bits of a mask. -/
def eventBits (m : BitVec 256) : List Nat := (List.range 256).filter m.getLsbD

/-- The clocks of the changes made to the event bits of a mask. -/
def Ctx.eventClock (c : Ctx) (m : BitVec 256) : List Nat :=
  (c.evClocks.filter (fun x => m.getLsbD x.1)).foldl (fun k x => clockMerge k x.2) []

/-- Nodes of a context whose wait mask is satisfied become ready; nothing withdraws readiness.  Their firings follow the
changes that set those bits (07 R214). -/
def refreshReady (ctx : Nat) (s : State) : State :=
  match findCtx s ctx with
  | none => s
  | some c =>
    { s with nodes := s.nodes.map (fun n =>
        if n.ctx = ctx ∧ n.ready = false ∧ maskMet n.packet.wait c.events then
          { n with ready := true, readyAt := s.dev.cycle, clock := clockMerge n.clock (c.eventClock n.packet.wait) }
        else n) }

/-- Event bits are set or cleared as one change, made with a vector clock; the context makes progress if the vector changes (14 R369). -/
def changeEvents (ctx : Nat) (bits : BitVec 256) (on : Bool) (clock : List Nat) (s : State) : State :=
  refreshReady ctx { s with ctxs := s.ctxs.map (fun c =>
    if c.number = ctx then
      let events := if on then c.events ||| bits else c.events &&& ~~~bits
      { c with
        events := events
        evClocks := (eventBits bits).foldl
          (fun xs k => xs.filter (fun x => x.1 != k) ++
            [(k, clockMerge ((xs.find? (fun x => x.1 == k)).map (·.2) |>.getD []) clock)]) c.evClocks
        lastProgress := if events = c.events then c.lastProgress else s.dev.cycle }
    else c) }

/-! ## Inboxes (09 R283 to R285) -/

/-- The queues of an owner. -/
def ownerAt (s : State) (p : Pos) : Owner := (s.owners.find? (fun o => o.pos == p)).getD ⟨p, [], [], []⟩

def putOwner (o : Owner) (s : State) : State := { s with owners := s.owners.filter (fun x => x.pos != o.pos) ++ [o] }

/-- Held arrivals enter an inbox that has room while nothing is spilled.  DEDUCED: notes/assumptions/26.md. -/
def settleInbox : Nat → Owner → Owner
  | 0, o => o
  | n + 1, o =>
    match o.held with
    | [] => o
    | m :: rest =>
      if o.spill = [] ∧ o.inbox.length < 64 then settleInbox n { o with inbox := o.inbox ++ [m], held := rest } else o

/-- A message arrives: it enters the inbox or is held; none while 16 arrivals are held.  DEDUCED: notes/assumptions/26.md. -/
def deliver (p : Pos) (m : InMsg) (s : State) : Option State :=
  let o := ownerAt s p
  if 16 ≤ o.held.length then none else some (putOwner (settleInbox 17 { o with held := o.held ++ [m] }) s)

/-! ## Queues of waiters (05 R149, 11 R312) -/

/-- Another waiter for the same word and state came first.  DEDUCED: notes/assumptions/11.md. -/
def waitsAhead (ws : List Waiter) (me : FiringId) (word : Nat) (full : Bool) : Bool :=
  (ws.takeWhile (fun w => !(w.who == me && w.word == word))).any (fun w => w.word == word && w.full == full)

/-- DEDUCED: notes/assumptions/11.md. -/
def joinQueue (ws : List Waiter) (me : FiringId) (word : Nat) (full : Bool) : List Waiter :=
  if ws.any (fun w => w.who == me && w.word == word) then ws else ws ++ [⟨word, full, me⟩]

/-- DEDUCED: notes/assumptions/11.md. -/
def leaveQueue (ws : List Waiter) (me : FiringId) (word : Nat) : List Waiter :=
  ws.filter (fun w => !(w.who == me && w.word == word))

/-! ## Traps on other threads -/

/-- An operation on the current thread, carried out on another one; it keeps the threads in their places. -/
def onThread (want : Thread → Bool) (m : State → State) (s : State) : State :=
  match s.threads.findIdx? want with
  | none => s
  | some i =>
    let s' := m { s with cur := s.threads.getD i s.cur, threads := s.threads.set i s.cur }
    { s' with cur := s'.threads.getD i s.cur, threads := s'.threads.set i s'.cur }

/-- A trap on a firing that need not be the issuing thread (13 R352, 05 R157). -/
def trapFiring (f : FiringId) (cause : Nat) (info : DWord) (s : State) : State :=
  let s := withdrawWaits f s
  let mine (t : Thread) : Bool := t.fid == f && t.duty != .idle && !(inHandler t)
  if mine s.cur then takeTrap cause info s else onThread mine (takeTrap cause info) s

end Sys2Proof.Machine
end

