-- ==== Sys2Proof/Machine/Streams.lean ====
section
/-!
DEFINITION. Machine/Streams.lean: stream slots (01 R31, 02 R65 to R67, 05 R146 to R148).
-/

namespace Sys2Proof.Machine

/-! ## Elements -/

def Slot.size (x : Slot) : Nat := 2 ^ x.record.esize.toNat

/-- Iterations of the four-dimension nest. -/
def StreamRecord.nest (r : StreamRecord) : Nat := r.count0.toNat * r.count1.toNat * r.count2.toNat * r.count3.toNat

/-- The address of the element at the counters (02 R66). -/
def Slot.address (x : Slot) : Nat :=
  let r := x.record
  addOffset (capAddr x.base) (r.start.toInt + (x.index.getD 0#64).toInt * r.istride.toInt +
    (x.i0 : Int) * r.stride0.toInt + (x.i1 : Int) * r.stride1.toInt + (x.i2 : Int) * r.stride2.toInt +
    (x.i3 : Int) * r.stride3.toInt)

/-- An index value (02 R65). -/
def indexValue (isize : BitVec 2) (bs : List Byte) : DWord :=
  if isize = 0#2 then BitVec.ofInt 64 (toSigned 32 (bytesNat bs)) else w64 (bytesNat bs)

/-- Dimension 0 varies fastest (R66).  `more` says whether the index stream goes on; the slot becomes inactive after its
last element. -/
def Slot.advance (x : Slot) (more : Bool) : Slot :=
  let r := x.record
  let x := { x with visited := x.visited + 1 }
  if x.i0 + 1 < r.count0.toNat then { x with i0 := x.i0 + 1 }
  else if x.i1 + 1 < r.count1.toNat then { x with i0 := 0, i1 := x.i1 + 1 }
  else if x.i2 + 1 < r.count2.toNat then { x with i0 := 0, i1 := 0, i2 := x.i2 + 1 }
  else if x.i3 + 1 < r.count3.toNat then { x with i0 := 0, i1 := 0, i2 := 0, i3 := x.i3 + 1 }
  else { x with i0 := 0, i1 := 0, i2 := 0, i3 := 0, index := none, active := r.ind && more }

/-- The next element of a stream given with its index stream, that one with its own, and so on: its address, and the
slots afterwards.  Index values are loads through their slot's base capability.  DEDUCED: notes/assumptions/15.md. -/
def streamNext (a : Agent) : List Slot → Act (Nat × List Slot)
  | [] => dangling
  | x :: rest => do
    let (x, rest) ←
      if x.record.ind && x.index.isNone then do
        let (addr, rest') ← streamNext a rest
        match rest with
        | [] => dangling
        | i :: _ => do
          let r ← loadAs a ⟨i.base, true⟩ addr i.size .read [permLD]
          pure ({ x with index := some (indexValue x.record.isize r.1) }, rest')
      else pure (x, rest)
    let more := match rest with
      | i :: _ => i.active
      | [] => false
    return (x.address, x.advance more :: rest)

/-- The slots of a stream, then of its index stream, and so on. -/
def slotChain (t : Thread) : Nat → Nat → List Nat
  | 0, _ => []
  | fuel + 1, n =>
    let x := t.slots.getD n Slot.inactive
    n :: (if x.record.ind && x.active then slotChain t fuel x.record.islot.toNat else [])

def slotAt (t : Thread) (n : Nat) : Slot := t.slots.getD n Slot.inactive

def setSlot (n : Nat) (x : Slot) (t : Thread) : Thread := { t with slots := t.slots.setIfInBounds n x }

/-- Put slots back; a stream that has ended frees its index slot (R146). -/
def putChain (t : Thread) : List Nat → List Slot → Thread
  | n :: i :: ns, x :: y :: xs =>
    putChain (setSlot n x t) (i :: ns) ((if x.active then y else { y with servesSlot := none }) :: xs)
  | n :: _, x :: _ => setSlot n x t
  | _, _ => t

/-- A slot that SLD, SST and SLOAD may name as their own (R146, 07 R234). -/
def slotBound (x : Slot) : Bool := x.servesSlot.isSome || x.pipeline

/-- The common checks of SLD and SST: a bound slot, an inactive slot, a mismatch (R147). -/
def slotFor (f : Ext) (op : BitVec 6) (fn : BitVec 4) (n : Nat) (write : Bool) (accepts : Nat → Bool) : Act Slot := do
  let x := slotAt (← get).cur n
  readGood [badSlot n]
  check9If (slotBound x) op fn f
  trapIf (!x.active) 0x03 (emptyInfo false 3 n)
  check9If (x.record.write != write || !(accepts x.record.esize.toNat)) op fn f
  return x

/-- Take the next element of slot n.  DEDUCED: notes/assumptions/15.md. -/
def nextElement (n : Nat) : Act Nat := do
  let t := (← get).cur
  let ns := slotChain t 8 n
  readGood (ns.map badSlot)
  let (addr, xs) ← streamNext (← curAgent) (ns.map (slotAt t))
  modCur (fun t => putChain t ns xs)
  return addr

/-- Bytes of a v register on the thread's kind of core (01 R26, R50). -/
def vBytes (t : Thread) : Nat := if t.pos.lupin then 32 else 128

/-- ESIZE that the v forms accept. -/
def vectorEsize (t : Thread) (e : Nat) : Bool := e == (if t.pos.lupin then 5 else 7)

def sldGBody (f : Ext) : Act Unit := do
  let n := f.a.toNat
  let x ← slotFor f 0x14#6 1#4 n false (fun e => decide (e ≤ 3))
  let addr ← nextElement n
  let r ← loadBytes ⟨x.base, true⟩ addr x.size [permLD]
  writeData f.d (w64 (bytesNat r.1))

/-- Write a whole v register (01 R25). -/
def writeVAs (n : Nat) (r : VReg) : Act Unit := do
  waitIf ((vAt (← get).cur n).st == .pending)
  modCur (fun t => { t with v := t.v.setIfInBounds n r })

def writeV (n : Nat) (x : VWord) : Act Unit := writeVAs n ⟨x, .full⟩

/-- ReadV of a v register: the rule of R23. -/
def readVReg (n : Nat) (tb : Bool) : Act VWord := do
  let r := vAt (← get).cur n
  match r.st with
  | .full => return r.val
  | .pending => if tb then trap 0x03 (emptyInfo true 1 n) else throw .wait
  | .empty => trap 0x03 (emptyInfo false 1 n)
  | .poisoned => trap 0x12 0#64

/-- The read of a channel pops the head of the instance's FIFO (01 R27); after the firing's RATE-th pop it reads as empty with no
producer (04 R133), before that as R23 reads a register whose producer is pending.  DEDUCED: notes/assumptions/10.md. -/
def popChannel (port : Nat) (tb : Bool) : Act VWord := do
  let s ← get
  let t := s.cur
  let b ← getBand
  trapIf (decide (inRate b port ≤ t.popped.getD port 0)) 0x03 (emptyInfo false 2 port)
  match findInstance b t.fid.gang t.fid.inst with
  | none => dangling
  | some i =>
    match i.fifos.getD port [] with
    | x :: rest =>
      modify (modInstance b.entry t.fid.gang t.fid.inst (fun i => { i with fifos := i.fifos.set port rest }))
      modCur (fun t => { t with popped := setAt t.popped port (· + 1) })
      acquireOwn 2
      followClock x.clock
      return x.data
    | [] => if tb then trap 0x03 (emptyInfo true 2 port) else throw .wait

/-- ReadV of a source field (00 R13). -/
def readV (n : BitVec 6) (tb : Bool) : Act VWord := if n.toNat < 28 then readVReg n.toNat tb else popChannel (n.toNat - 28) tb

def sldVBody (f : Ext) : Act Unit := do
  let n := f.a.toNat
  let t := (← get).cur
  let x ← slotFor f 0x14#6 2#4 n false (vectorEsize t)
  let addr ← nextElement n
  let r ← loadBytes ⟨x.base, true⟩ addr x.size [permLD]
  writeV f.d.toNat (BitVec.ofNat 1024 (bytesNat r.1))

/-- SST performs its store when it executes; the forms that R148 lets hold elements never show that. -/
def sstGBody (f : Ext) : Act Unit := do
  let n := f.a.toNat
  let x ← slotFor f 0x14#6 3#4 n true (fun e => decide (e ≤ 3))
  let y ← readData f.d f.tb
  let addr ← nextElement n
  storeBytes ⟨x.base, true⟩ addr (natBytes x.size y.toNat) [permST] false none

def sstVBody (f : Ext) : Act Unit := do
  let n := f.a.toNat
  let t := (← get).cur
  let x ← slotFor f 0x14#6 4#4 n true (vectorEsize t)
  let y ← readV f.d f.tb
  let addr ← nextElement n
  storeBytes ⟨x.base, true⟩ addr (natBytes x.size y.toNat) [permST] false none

/-! ## SLOAD -/

/-- The record in 64 bytes (02 R65). -/
def recordOf (ws : List DWord) : StreamRecord :=
  let w (i : Nat) : DWord := ws.getD i 0#64
  { start := w 0
    count0 := (w 1).extractLsb' 0 32
    count1 := (w 1).extractLsb' 32 32
    count2 := (w 2).extractLsb' 0 32
    count3 := (w 2).extractLsb' 32 32
    stride0 := (w 3).extractLsb' 0 32
    stride1 := (w 3).extractLsb' 32 32
    stride2 := (w 4).extractLsb' 0 32
    stride3 := (w 4).extractLsb' 32 32
    istride := (w 5).extractLsb' 32 32
    ind := (w 5).getLsbD 15
    islot := (w 5).extractLsb' 12 3
    isize := (w 5).extractLsb' 10 2
    write := (w 5).getLsbD 7
    esize := (w 5).extractLsb' 4 3 }

/-- Reserved fields of the record are zero.  DEDUCED: notes/assumptions/15.md. -/
def recordClean (ws : List DWord) : Bool :=
  let w5 := ws.getD 5 0#64
  w5.extractLsb' 16 16 == 0#16 && w5.extractLsb' 8 2 == 0#2 && w5.extractLsb' 0 4 == 0#4 && ws.getD 6 0#64 == 0#64 &&
    ws.getD 7 0#64 == 0#64

/-- The 64-bit words of bytes. -/
def wordsOf (n : Nat) (bs : List Byte) : List DWord := (List.range n).map (fun i => w64 (bytesNat ((bs.drop (8 * i)).take 8)))

/-- The index slot of an indirect record fits (R146). -/
def indexFits (i : Slot) (isize : BitVec 2) : Bool :=
  i.active && !i.record.write && !(slotBound i) && i.record.esize == (if isize = 2#2 then 3#3 else 2#3)

/-- DEDUCED: notes/assumptions/15.md. -/
def sloadBody (f : Ext) : Act Unit := do
  let a ← readG f.a f.ta
  let b ← readG f.b f.tb
  let t := (← get).cur
  let n := f.d.toNat
  let old := slotAt t n
  check9If (slotBound old) 0x14#6 0#4 f
  let addr := capAddr b.val
  deref b addr 64 [permLD]
  trapIf (addr % 8 != 0) 0x08 (w64 addr)
  trapIf (!a.tag) 0x04 (capCursor a.val)
  trapIf (capSealed a.val) 0x07 (capCursor a.val)
  -- the record may lie in two pages
  let ws ← (List.range 8).mapM (fun i => do
    let g ← curAgent
    let p ← reach g (addr + 8 * i) 8 .read false false
    let r ← readPlace g p (addr + 8 * i) 8
    return w64 (bytesNat r.1))
  let r := recordOf ws
  let i := r.islot.toNat
  check9If (!(recordClean ws) || r.isize == 3#2 || (r.ind && decide (i = n))) 0x14#6 0#4 f
  if r.ind then readGood [badSlot i]
  check9If (r.ind && !(indexFits (slotAt t i) r.isize)) 0x14#6 0#4 f
  let live := r.nest != 0
  modCur (fun t =>
    let t := if old.active && old.record.ind then
        setSlot old.record.islot.toNat { slotAt t old.record.islot.toNat with servesSlot := none } t
      else t
    let t := if r.ind && live then setSlot i { slotAt t i with servesSlot := some (BitVec.ofNat 3 n) } t else t
    setSlot n { Slot.inactive with active := live, record := r, base := a.val } { t with bad := setDrop t.bad (badSlot n) })

/-! ## Meanings -/

/-- SLOAD (R146). -/
def execSload (f : Base) (s : State) : Out :=
  instr 0x14#6 0x0#4 f.ext (sloadBody f.ext) s

/-- SLOAD_EXT (R146). -/
def execSloadExt (f : Ext) (s : State) : Out :=
  instr 0x14#6 0x0#4 f (sloadBody f) s

/-- SLD_G (R147). -/
def execSldG (f : Base) (s : State) : Out :=
  instr 0x14#6 0x1#4 f.ext (sldGBody f.ext) s

/-- SLD_G_EXT (R147). -/
def execSldGExt (f : Ext) (s : State) : Out :=
  instr 0x14#6 0x1#4 f (sldGBody f) s

/-- SLD_V (R147). -/
def execSldV (f : Base) (s : State) : Out :=
  instr 0x14#6 0x2#4 f.ext (sldVBody f.ext) s

/-- SLD_V_EXT (R147). -/
def execSldVExt (f : Ext) (s : State) : Out :=
  instr 0x14#6 0x2#4 f (sldVBody f) s

/-- SST_G (R147). -/
def execSstG (f : Base) (s : State) : Out :=
  instr 0x14#6 0x3#4 f.ext (sstGBody f.ext) s

/-- SST_G_EXT (R147). -/
def execSstGExt (f : Ext) (s : State) : Out :=
  instr 0x14#6 0x3#4 f (sstGBody f) s

/-- SST_V (R147). -/
def execSstV (f : Base) (s : State) : Out :=
  instr 0x14#6 0x4#4 f.ext (sstVBody f.ext) s

/-- SST_V_EXT (R147). -/
def execSstVExt (f : Ext) (s : State) : Out :=
  instr 0x14#6 0x4#4 f (sstVBody f) s

end Sys2Proof.Machine
end

