-- ==== Sys2Proof/Machine/Actor.lean ====
section
/-!
DEFINITION. Machine/Actor.lean: ports and elements (07 R209 to R211), launch packets and the pool's entries (02 R81, R84, 07
R212), JOINC (R213) and events (R214).
-/

namespace Sys2Proof.Machine

/-! ## Ports -/

def portInfo (n : Nat) : DWord := regInfo 3 n

/-- The instance of a firing of an actor; no other duty has ports. -/
def ownInstance (b : Band) (t : Thread) : Option Instance :=
  match t.duty with
  | .firing => findInstance b t.fid.gang t.fid.inst
  | _ => none

/-- The input port that a route word names, when the band declares it (R209). -/
def routeTarget (b : Band) (route : DWord) : Option Instance :=
  if route.toNat / 2 ^ 14 ≠ 0 ∨ inRate b (routePort route) = 0 then none
  else findInstance b (routeGang route) (routeInst route)

/-- Append an element to an input FIFO. -/
def pushElement (port : Nat) (x : Sent) (i : Instance) : Instance := { i with fifos := setAt i.fifos port (· ++ [x]) }

/-- An element that an output port holds in flight (09 R263). -/
def Element.fromPort (e : Element) (band gang inst port : Nat) : Bool :=
  e.band == band && e.srcGang == gang && e.srcInst == inst && e.srcPort == port

/-- Where a sent element goes: into room reserved at the firing's start, into free room, or into flight (R210, 09 R263).
Elements of a port enter in the order sent, so an older one in flight takes the reserved room first. -/
def sendElement (b : Band) (t : Thread) (port : Nat) (route : DWord) (x : Sent) (s : State) : State :=
  let g := routeGang route
  let i := routeInst route
  let k := routePort route
  let mine (e : Element) : Bool := e.fromPort b.entry t.fid.gang t.fid.inst port
  let fly (s : State) : State :=
    { s with net := { s.net with elements := s.net.elements ++ [⟨b.entry, t.fid.gang, t.fid.inst, port, g, i, k, x⟩] } }
  if t.boundAtStart.getD port false then
    let enter (y : Sent) : State → State :=
      modInstance b.entry g i (fun d => { pushElement k y d with reserved := setAt d.reserved k (· - 1) })
    match s.net.elements.find? mine with
    | none => enter x s
    | some old => fly (enter old.sent { s with net := { s.net with elements := s.net.elements.eraseP mine } })
  else
    let room := match findInstance b g i with
      | some d => decide (0 < roomOf b d k)
      | none => false
    if room && !(s.net.elements.any mine) then modInstance b.entry g i (pushElement k x) s else fly s

/-- The common part of SEND and SENDV: the largest ESIZE that the form accepts, and its data (R210). -/
def sendWith (maxEsize : Nat) (fn : BitVec 4) (f : Ext) (data : Act Nat) : Act Unit := do
  let route ← readData f.a f.ta
  let x ← data
  let port := (f.imm.extractLsb' 0 2).toNat
  let t := (← get).cur
  let b ← getBand
  match ownInstance b t with
  | none => trap 0x02 (portInfo (4 + port))
  | some me => do
    trapIf (outRate b port == 0) 0x02 (portInfo (4 + port))
    let e := outEsize b port
    check9If (decide (maxEsize < e)) 0x30#6 fn f
    match routeTarget b route with
    | none => trap 0x05 route
    | some dst => do
      let k := routePort route
      trapIf (inEsize b k != e) 0x05 route
      let bound := me.outs.getD port none
      trapIf (bound.isSome && bound != some route) 0x05 route
      let producer := dst.producers.getD k none
      let self := (t.fid.gang, t.fid.inst, port)
      trapIf ((← getCtx).det && producer.isSome && producer != some self) 0x05 route
      trapIf (decide (outRate b port ≤ t.sent.getD port 0)) 0x05 (w64 port)
      releaseAt 2
      let clock ← messageClock
      modify (modInstance b.entry t.fid.gang t.fid.inst (fun i => { i with outs := i.outs.set port (some route) }))
      modify (modInstance b.entry dst.gang dst.index (fun i => { i with producers := i.producers.set k (some self) }))
      modCur (fun t => { t with sent := setAt t.sent port (· + 1) })
      match findBand (← get) b.entry with
      | none => dangling
      | some b => modify (sendElement b t port route ⟨BitVec.ofNat 1024 (x % 2 ^ (8 * 2 ^ e)), clock⟩)

def sendBody (f : Ext) : Act Unit := sendWith 3 0#4 f (do return (← readData f.d f.tb).toNat)

def sendvBody (f : Ext) : Act Unit := sendWith 7 1#4 f (do return (← readV f.d f.tb).toNat)

/-- PCOUNT (R211). -/
def pcountBody (f : Ext) : Act Unit := do
  let n := f.a.toNat
  let t := (← get).cur
  let b ← getBand
  match ownInstance b t with
  | none => trap 0x02 (portInfo n)
  | some me =>
    if n < 4 then do
      trapIf (inRate b n == 0) 0x02 (portInfo n)
      writeData f.d (w64 (me.fifos.getD n []).length)
    else do
      trapIf (outRate b (n - 4) == 0) 0x02 (portInfo n)
      writeData f.d (w64 (outRate b (n - 4) - t.sent.getD (n - 4) 0))

/-! ## Actor descriptors (02 R81) -/

/-- The eight 64-bit words before an entry address, read by the device through the entry's code capability; none when they
do not lie within its bounds or have no translation. -/
def descriptorWords (s : State) (c : Ctx) (band : Option Band) (entry : QWord) : Option (List DWord) :=
  let a := capAddr entry
  if a < 64 ∨ !(inBounds entry (a - 64) 64) then none
  else ((pageCuts (a - 64) 64).mapM (fun r => (keyOf s c band r.1 r.2).map (fun k => s.mem.bytes k r.2))).map
    (fun parts => wordsOf 8 parts.flatten)

/-- Entry k of a descriptor: a 32-bit word. -/
def portEntry (ws : List DWord) (k : Nat) : Nat := (ws.getD (1 + k / 2) 0#64).toNat / 2 ^ (32 * (k % 2)) % 2 ^ 32

def actorOf (ws : List DWord) : Actor :=
  let entry (k : Nat) : Nat × Nat := (portEntry ws k / 2 ^ 16 % 2 ^ 8, portEntry ws k % 2 ^ 16)
  ⟨(List.range 4).map entry, (List.range 4).map (fun k => entry (4 + k))⟩

/-- Reserved fields of the descriptor are zero. -/
def descriptorClean (ws : List DWord) : Bool :=
  (ws.getD 0 0#64).toNat / 2 ^ 48 == 0 && (List.range 8).all (fun k => portEntry ws k / 2 ^ 24 == 0) &&
    ws.getD 5 0#64 == 0#64 && ws.getD 6 0#64 == 0#64 && ws.getD 7 0#64 == 0#64

/-! ## Launch packets (02 R84) -/

def bitsOf (x : DWord) (lo n : Nat) : Nat := x.toNat / 2 ^ lo % 2 ^ n

/-- A register of the packet: a capability, or its 64-bit data.  DEDUCED: notes/assumptions/12.md. -/
def packetCap (ws : List DWord) (tags : List Bool) (i : Nat) : TCap :=
  let lo := ws.getD (2 * i) 0#64
  if tags.getD i false then ⟨ws.getD (2 * i + 1) 0#64 ++ lo, true⟩ else ⟨dataVal lo, false⟩

/-- The packet in 32 words; `tags` are those of ENTRY and the operands as they are delivered. -/
def packetOf (ws : List DWord) (tags : List Bool) : Packet :=
  let shape := ws.getD 27 0#64
  let stores := ws.getD 28 0#64
  let fifos := ws.getD 29 0#64
  { entry := packetCap ws tags 0
    operands := (List.range 8).map (fun i => packetCap ws tags (i + 1))
    wait := ws.getD 21 0#64 ++ ws.getD 20 0#64 ++ ws.getD 19 0#64 ++ ws.getD 18 0#64
    set := ws.getD 25 0#64 ++ ws.getD 24 0#64 ++ ws.getD 23 0#64 ++ ws.getD 22 0#64
    path := ws.getD 26 0#64
    weight := bitsOf shape 27 4
    tiles := bitsOf shape 23 4
    vcount := bitsOf shape 20 3
    gcount := bitsOf shape 17 3
    instances := bitsOf shape 11 6 + 1
    gangs := bitsOf shape 5 6 + 1
    det := shape.getLsbD 4
    prio := bitsOf shape 1 3
    lupin := shape.getLsbD 0
    coreKib := bitsOf stores 0 8
    clusterKib := bitsOf stores 8 10
    depths := (List.range 4).map (fun k => bitsOf fifos (8 * k) 8) }

/-- A depth for an input port that the actor does not declare; a descriptor that cannot be read is found at dispatch. -/
def undeclaredDepth (p : Packet) (descriptor : Option (List DWord)) : Bool :=
  match descriptor with
  | none => false
  | some ws => (List.range 4).any (fun k => p.depths.getD k 0 != 0 && ((actorOf ws).ins.getD k (0, 0)).2 == 0)

/-- The checks of R212 in the order of its table: cause and offset of the first that fails. -/
def packetFault (ws : List DWord) (p : Packet) (det : Bool) (descriptor : Option (List DWord)) : Option (Nat × Nat) :=
  let w (i : Nat) : DWord := ws.getD i 0#64
  if !p.entry.tag then some (0x04, 0x00)
  else if capType p.entry.val ≠ 1 then some (0x07, 0x00)
  else if bitsOf (w 27) 31 33 ≠ 0 then some (0x05, 0xD8)
  else if bitsOf (w 28) 18 46 ≠ 0 then some (0x05, 0xE0)
  else if bitsOf (w 29) 32 32 ≠ 0 then some (0x05, 0xE8)
  else if w 30 ≠ 0#64 ∨ w 31 ≠ 0#64 then some (0x05, 0xF0)
  else if 6 < p.vcount ∨ 8 < p.tiles ∨ p.weight = 0 then some (0x05, 0xD8)
  else if 192 < p.coreKib ∨ 768 < p.clusterKib then some (0x05, 0xE0)
  else if p.lupin ∧ p.tiles ≠ 0 then some (0x05, 0xD8)
  else if p.det ≠ det then some (0x05, 0xD8)
  else if p.gcount = 0 ∧ (p.operands.getD 7 ⟨0#128, false⟩).tag then some (0x05, 0x80)
  else if undeclaredDepth p descriptor then some (0x05, 0xE8)
  else none

/-- n times 16 bytes from an address, with the tags of whole granules.  DEDUCED: notes/assumptions/12.md. -/
def readGranules (addr n : Nat) : Act (List (List Byte × Bool)) := do
  let a ← curAgent
  (List.range n).mapM (fun i => do
    let p ← reach a (addr + 16 * i) 16 .read false false
    let r ← readPlace a p (addr + 16 * i) 16
    return (r.1, r.2 && addr % 16 == 0))

/-! ## Entries of the pool (09 R273 to R275) -/

/-- Whether a pool entry is in use. -/
def entryTaken (s : State) (e : Nat) : Bool := s.nodes.any (fun n => n.entry == e) || s.bands.any (fun b => b.entry == e)

/-- Entries in use; a saved band that waits to be placed again has one entry.  DEDUCED: notes/assumptions/23.md. -/
def poolUsed (s : State) : Nat := (s.nodes.filter (fun n => !n.resumed)).length + s.bands.length

/-- The lowest free entry of the 16,384. -/
def freeEntry (s : State) : Option Nat :=
  if 16384 ≤ poolUsed s then none else (List.range (poolUsed s + 1)).find? (fun e => !(entryTaken s e))

/-- A node enters the pool.  DEDUCED: notes/assumptions/23.md. -/
def addNode (ctx : Nat) (p : Packet) (parent : Option Nat) (child : Nat) (spawned : Bool) (loop : Option Nat) (clock : List Nat) (s : State) :
    Option State :=
  match freeEntry s with
  | none => none
  | some e =>
    let n : Node :=
      { entry := e
        ctx := ctx
        packet := p
        ready := false
        entered := s.dev.cycle
        sequence := s.nextId
        readyAt := s.dev.cycle
        passed := 0
        parent := parent
        child := child
        spawned := spawned
        loop := loop
        resumed := false
        clock := clock }
    some (refreshReady ctx { s with nodes := s.nodes ++ [n], nextId := s.nextId + 1 })

/-- The fork path of a child (01 R35): the index in the first zero field; none when the path is full. -/
def childPath (path : DWord) (c : Nat) : Option DWord :=
  ((List.range 16).find? (fun k => bitsOf path (60 - 4 * k) 4 == 0)).map (fun k => path + w64 (c * 2 ^ (60 - 4 * k)))

/-- The packet that A names, and its 32 words. -/
def readPacket (f : Ext) : Act (List DWord × Packet) := do
  let a ← readG f.a f.ta
  let addr := capAddr a.val
  deref a addr 256 [permLD]
  trapIf (addr % 64 != 0) 0x08 (w64 addr)
  let gs ← readGranules addr 16
  let ws := wordsOf 32 (gs.flatMap (·.1))
  let keep := capHas a.val permLDCAP
  let tags := gs.mapIdx (fun i g => g.2 && (i == 0 || keep))
  return (ws, packetOf ws tags)

/-- The checks of a packet in the issuing context. -/
def checkPacket (ws : List DWord) (p : Packet) : Act Unit := do
  let s ← get
  let c ← getCtx
  match packetFault ws p c.det (descriptorWords s c (formBand s s.cur) p.entry.val) with
  | some (cause, off) => trap cause (w64 off)
  | none => pure ()

/-- Enter the pool, or wait while it is full; a release at dev scope. -/
def enterPool (p : Packet) (parent : Option Nat) (child : Nat) (loop : Option Nat) : Act Unit := do
  releaseAt 3
  let clock ← messageClock
  let s ← get
  match addNode (ctxOf s.cur) p parent child parent.isSome loop clock s with
  | none => throw .wait
  | some s => set s

def launchBody (f : Ext) : Act Unit := do
  let (ws, p) ← readPacket f
  checkPacket ws p
  enterPool p none 0 none

def spawnBody (f : Ext) : Act Unit := do
  let (ws, p) ← readPacket f
  checkPacket ws p
  let t := (← get).cur
  let b ← getBand
  let c := (f.imm.extractLsb' 0 4).toNat
  match childPath t.pathw c with
  | none => trap 0x05 (w64 (0xD0 + c * 2 ^ 16))
  | some path => do
    trapIf (b.spawned.contains c) 0x05 (w64 (0xD0 + c * 2 ^ 16 + 2 ^ 20))
    enterPool { p with path := path } (some b.sequence) c none
    modBand b.entry (fun b => { b with spawned := setAdd b.spawned c })
    writeData f.d path

/-! ## JOINC (R213) -/

def jointOp (f : Ext) (a b : Nat) : Nat × Flags :=
  if f.fmt = 0#4 then (Fp.ofFmt 0).add (Rm.ofCode f.rm.toNat) 0 a b
  else if f.fmt = 14#4 then (rnsAdd a b, Flags.none)
  else ((a + b) % 2 ^ 64, Flags.none)

/-- DESIGN CHOICE: notes/assumptions/10.md. -/
def joincBody (f : Ext) : Act Unit := do
  let a ← readData f.a f.ta
  let c ← readG f.b f.tb
  trapIf (a.getLsbD 0 || decide (2 ^ 16 ≤ a.toNat)) 0x05 (capCursor c.val)
  let b ← getBand
  let children := (List.range 16).filter a.getLsbD
  let ended := b.exited.filter (fun x => children.contains x.1)
  waitIf (!(children.all (fun k => b.spawned.contains k && ended.any (·.1 == k))))
  acquireOwn 3
  followClock (ended.foldl (fun k x => clockMerge k x.2) [])
  let words ← children.mapM (fun k => loadBytes c (addOffset (capAddr c.val) (8 * k : Nat)) 8 [permLD])
  let r := words.foldl
    (fun (r : Nat × Flags) w =>
      let x := jointOp f r.1 (bytesNat w.1)
      (x.1, r.2 ||| x.2))
    (0, Flags.none)
  writeRounded f.d r

/-! ## Events (R214) -/

/-- A word of the event vector as a mask over all of it. -/
def eventMask (word : Nat) (x : DWord) : BitVec 256 := x.setWidth 256 <<< (64 * word)

/-- Change event bits: a release at dev scope. -/
def changeBody (f : Ext) (on : Bool) : Act Unit := do
  let a ← readData f.a f.ta
  releaseAt 3
  let clock ← messageClock
  modify (fun s => changeEvents (ctxOf s.cur) (eventMask (f.imm.toNat % 4) a) on clock s)

def evsetBody (f : Ext) : Act Unit := changeBody f true

def evclrBody (f : Ext) : Act Unit := changeBody f false

/-- All ones is an acquire at dev scope for the changes that set the bits. -/
def evtestBody (f : Ext) : Act Unit := do
  let a ← readData f.a f.ta
  let c ← getCtx
  let m := eventMask f.b.toNat a
  let met := maskMet m c.events
  if met then
    acquireOwn 3
    followClock (c.eventClock m)
  writeP f.d (allOnes met)

/-! ## Meanings -/

/-- SEND (R210). -/
def execSend (f : Ext) (s : State) : Out :=
  instr 0x30#6 0x0#4 f (sendBody f) s

/-- SENDV (R210). -/
def execSendv (f : Ext) (s : State) : Out :=
  instr 0x30#6 0x1#4 f (sendvBody f) s

/-- PCOUNT (R211). -/
def execPcount (f : Base) (s : State) : Out :=
  instr 0x30#6 0x2#4 f.ext (pcountBody f.ext) s

/-- PCOUNT_EXT (R211). -/
def execPcountExt (f : Ext) (s : State) : Out :=
  instr 0x30#6 0x2#4 f (pcountBody f) s

/-- LAUNCH (R212). -/
def execLaunch (f : Ext) (s : State) : Out :=
  instr 0x30#6 0x3#4 f (launchBody f) s

/-- SPAWN (R212). -/
def execSpawn (f : Ext) (s : State) : Out :=
  instr 0x30#6 0x4#4 f (spawnBody f) s

/-- JOINC (R213). -/
def execJoinc (f : Ext) (s : State) : Out :=
  instr 0x30#6 0x5#4 f (joincBody f) s

/-- EVSET (R214). -/
def execEvset (f : Ext) (s : State) : Out :=
  instr 0x30#6 0x6#4 f (evsetBody f) s

/-- EVCLR (R214). -/
def execEvclr (f : Ext) (s : State) : Out :=
  instr 0x30#6 0x7#4 f (evclrBody f) s

/-- EVTEST (R214). -/
def execEvtest (f : Base) (s : State) : Out :=
  instr 0x30#6 0x8#4 f.ext (evtestBody f.ext) s

/-- EVTEST_EXT (R214). -/
def execEvtestExt (f : Ext) (s : State) : Out :=
  instr 0x30#6 0x8#4 f (evtestBody f) s

end Sys2Proof.Machine
end

