-- ==== Sys2Proof/Machine/MemOps.lean ====
section
/-!
DEFINITION. Machine/MemOps.lean: loads and stores (05 R141 to R145) and full/empty words (05 R149).
-/

namespace Sys2Proof.Machine

/-! ## Loads and stores -/

/-- A loaded value, sign- or zero-extended from `size` bytes. -/
def extendBytes (signed : Bool) (size : Nat) (bs : List Byte) : DWord :=
  if signed then BitVec.ofInt 64 (toSigned (8 * size) (bytesNat bs)) else w64 (bytesNat bs)

/-- LD (R141); LD.64 alone reads a placement word (08 R243). -/
def loadBody (signed : Bool) (size : Nat) (f : Ext) : Act Unit := do
  let c ← readG f.a f.ta
  let r ← loadAs (← curAgent) c (memAddr c f size) size (if size = 8 then .word else .read) [permLD]
  writeData f.d (extendBytes signed size r.1)

/-- LDA: an acquire at SCOPE (R145). -/
def loadAcquireBody (size : Nat) (f : Ext) : Act Unit := do
  let c ← readG f.a f.ta
  let r ← loadAcquire c (memAddr c f size) size f.scope.toNat [permLD]
  writeData f.d (extendBytes false size r.1)

/-- LDC (R144). -/
def ldcBody (f : Ext) : Act Unit := do
  let c ← readG f.a f.ta
  let r ← loadBytes c (memAddr c f 16) 16 [permLD]
  if r.2 && capHas c.val permLDCAP then writeG f.d ⟨BitVec.ofNat 128 (bytesNat r.1), true⟩
  else writeData f.d (w64 (bytesNat (r.1.take 8)))

/-- ST (R141). -/
def storeBody (size : Nat) (f : Ext) : Act Unit := do
  let c ← readG f.a f.ta
  let x ← readData f.d f.tb
  storeBytes c (memAddr c f size) (natBytes size x.toNat) [permST] false none

/-- STL: a release at SCOPE (R145). -/
def storeReleaseBody (size : Nat) (f : Ext) : Act Unit := do
  let c ← readG f.a f.ta
  let x ← readData f.d f.tb
  storeBytes c (memAddr c f size) (natBytes size x.toNat) [permST] false (some f.scope.toNat)

/-- The bytes that STC writes: the capability, or the data and eight zero bytes (R144). -/
def stcBytes (x : TCap) : List Byte := if x.tag then natBytes 16 x.val.toNat else natBytes 16 (capCursor x.val).toNat

/-- STC (R144). -/
def stcBody (f : Ext) : Act Unit := do
  let c ← readG f.a f.ta
  let x ← readG f.d f.tb
  storeBytes c (memAddr c f 16) (stcBytes x) (if x.tag then [permST, permSTCAP] else [permST]) x.tag none

/-! ## Full/empty words -/

/-- The word that a full/empty form names, after its checks: a word of a cluster store (R149). -/
def fullWord (c : TCap) (addr : Nat) (perms : List Nat) (kind : Kind) (checked : Bool) : Act Place := do
  derefAligned c addr 4 perms
  let a ← curAgent
  let p ← reach a addr 4 kind checked false
  match p with
  | .bytes k _ => trapIf (!(keyIsCluster k)) 0x06 (w64 addr)
  | .remote _ => trapIf (addr % 2 ^ 50 / 2 ^ 38 != 0xFFE) 0x06 (w64 addr)
  | .word _ | .split _ => trap 0x06 (w64 addr)
  return p

/-- Wait in turn until a word is full, or empty: waiters are served in the order in which they reached it (R149).  DEDUCED: notes/assumptions/11.md. -/
def awaitWord (k : Nat) (full : Bool) : Act Unit := do
  let s ← get
  let me := agentId s.cur
  if s.mem.isFull k == full && !(waitsAhead s.mem.waiters me k full) then
    modMem (fun m => { m with waiters := leaveQueue m.waiters me k })
  else throw (.hold (fun s => { s with mem := { s.mem with waiters := joinQueue s.mem.waiters me k full } }))

/-- The word as it stands at its store (08 R254). -/
def wordAtStore (k addr : Nat) : Act Nat := do
  let e := eyeOf (← get).cur
  modMem (·.readied e k 4)
  checkPoison k 4 addr
  return bytesNat ((← get).mem.bytes k 4)

/-- LDF and LDFK: acquires at SCOPE. -/
def ldfBody (empties : Bool) (f : Ext) : Act Unit := do
  let c ← readG f.a f.ta
  let addr := memAddr c f 4
  let p ← fullWord c addr (if empties then [permLD, permST] else [permLD]) .read false
  match p with
  | .bytes k _ => do
    awaitWord k true
    acquireAt f.scope.toNat p 4
    let x ← wordAtStore k addr
    if empties then modMem (fun m => m.setFull k false)
    writeData f.d (w64 x)
  | _ => do
    let x ← fabricAnswer addr false
    writeData f.d (w64 (x.data.toNat % 2 ^ 32))

/-- STE and STFX: releases at SCOPE.  Another device answers an STE once it has found the word empty and filled it; an STFX is
posted. -/
def steBody (waits : Bool) (f : Ext) : Act Unit := do
  let c ← readG f.a f.ta
  let x ← readData f.d f.tb
  let addr := memAddr c f 4
  let p ← fullWord c addr [permST] .write true
  match p with
  | .bytes k _ => do
    if waits then awaitWord k false
    releaseAt f.scope.toNat
    writePlace (← curAgent) p addr (natBytes 4 x.toNat) false (some f.scope.toNat)
    modMem (fun m => m.setFull k true)
  | _ => do
    releaseAt f.scope.toNat
    if waits then
      let _ ← fabricAnswer addr false
    else writePlace (← curAgent) p addr (natBytes 4 x.toNat) false (some f.scope.toNat)

/-- FEQ: never waits. -/
def feqBody (f : Ext) : Act Unit := do
  let c ← readG f.a f.ta
  let p ← fullWord c (memAddr c f 4) [permLD] .read false
  match p with
  | .bytes k _ => writeP f.d (allOnes ((← get).mem.isFull k))
  | _ => do
    let x ← fabricAnswer (memAddr c f 4) true
    writeP f.d (allOnes (x.data.getLsbD 0))

/-! ## Meanings -/

/-- LD_I8 (R141). -/
def execLdI8 (f : Base) (s : State) : Out :=
  instr 0x10#6 0x0#4 f.ext (loadBody true 1 f.ext) s

/-- LD_I8_EXT (R141). -/
def execLdI8Ext (f : Ext) (s : State) : Out :=
  instr 0x10#6 0x0#4 f (loadBody true 1 f) s

/-- LD_N8 (R141). -/
def execLdN8 (f : Base) (s : State) : Out :=
  instr 0x10#6 0x1#4 f.ext (loadBody false 1 f.ext) s

/-- LD_N8_EXT (R141). -/
def execLdN8Ext (f : Ext) (s : State) : Out :=
  instr 0x10#6 0x1#4 f (loadBody false 1 f) s

/-- LD_I16 (R141). -/
def execLdI16 (f : Base) (s : State) : Out :=
  instr 0x10#6 0x2#4 f.ext (loadBody true 2 f.ext) s

/-- LD_I16_EXT (R141). -/
def execLdI16Ext (f : Ext) (s : State) : Out :=
  instr 0x10#6 0x2#4 f (loadBody true 2 f) s

/-- LD_N16 (R141). -/
def execLdN16 (f : Base) (s : State) : Out :=
  instr 0x10#6 0x3#4 f.ext (loadBody false 2 f.ext) s

/-- LD_N16_EXT (R141). -/
def execLdN16Ext (f : Ext) (s : State) : Out :=
  instr 0x10#6 0x3#4 f (loadBody false 2 f) s

/-- LD_I32 (R141). -/
def execLdI32 (f : Base) (s : State) : Out :=
  instr 0x10#6 0x4#4 f.ext (loadBody true 4 f.ext) s

/-- LD_I32_EXT (R141). -/
def execLdI32Ext (f : Ext) (s : State) : Out :=
  instr 0x10#6 0x4#4 f (loadBody true 4 f) s

/-- LD_N32 (R141). -/
def execLdN32 (f : Base) (s : State) : Out :=
  instr 0x10#6 0x5#4 f.ext (loadBody false 4 f.ext) s

/-- LD_N32_EXT (R141). -/
def execLdN32Ext (f : Ext) (s : State) : Out :=
  instr 0x10#6 0x5#4 f (loadBody false 4 f) s

/-- LD_64 (R141). -/
def execLd64 (f : Base) (s : State) : Out :=
  instr 0x10#6 0x6#4 f.ext (loadBody false 8 f.ext) s

/-- LD_64_EXT (R141). -/
def execLd64Ext (f : Ext) (s : State) : Out :=
  instr 0x10#6 0x6#4 f (loadBody false 8 f) s

/-- LDC (R144). -/
def execLdc (f : Base) (s : State) : Out :=
  instr 0x10#6 0x7#4 f.ext (ldcBody f.ext) s

/-- LDC_EXT (R144). -/
def execLdcExt (f : Ext) (s : State) : Out :=
  instr 0x10#6 0x7#4 f (ldcBody f) s

/-- LDA_32 (R145). -/
def execLda32 (f : Base) (s : State) : Out :=
  instr 0x10#6 0x8#4 f.ext (loadAcquireBody 4 f.ext) s

/-- LDA_32_EXT (R145). -/
def execLda32Ext (f : Ext) (s : State) : Out :=
  instr 0x10#6 0x8#4 f (loadAcquireBody 4 f) s

/-- LDA_64 (R145). -/
def execLda64 (f : Base) (s : State) : Out :=
  instr 0x10#6 0x9#4 f.ext (loadAcquireBody 8 f.ext) s

/-- LDA_64_EXT (R145). -/
def execLda64Ext (f : Ext) (s : State) : Out :=
  instr 0x10#6 0x9#4 f (loadAcquireBody 8 f) s

/-- ST_8 (R141). -/
def execSt8 (f : Base) (s : State) : Out :=
  instr 0x11#6 0x0#4 f.ext (storeBody 1 f.ext) s

/-- ST_8_EXT (R141). -/
def execSt8Ext (f : Ext) (s : State) : Out :=
  instr 0x11#6 0x0#4 f (storeBody 1 f) s

/-- ST_16 (R141). -/
def execSt16 (f : Base) (s : State) : Out :=
  instr 0x11#6 0x1#4 f.ext (storeBody 2 f.ext) s

/-- ST_16_EXT (R141). -/
def execSt16Ext (f : Ext) (s : State) : Out :=
  instr 0x11#6 0x1#4 f (storeBody 2 f) s

/-- ST_32 (R141). -/
def execSt32 (f : Base) (s : State) : Out :=
  instr 0x11#6 0x2#4 f.ext (storeBody 4 f.ext) s

/-- ST_32_EXT (R141). -/
def execSt32Ext (f : Ext) (s : State) : Out :=
  instr 0x11#6 0x2#4 f (storeBody 4 f) s

/-- ST_64 (R141). -/
def execSt64 (f : Base) (s : State) : Out :=
  instr 0x11#6 0x3#4 f.ext (storeBody 8 f.ext) s

/-- ST_64_EXT (R141). -/
def execSt64Ext (f : Ext) (s : State) : Out :=
  instr 0x11#6 0x3#4 f (storeBody 8 f) s

/-- STC (R144). -/
def execStc (f : Base) (s : State) : Out :=
  instr 0x11#6 0x4#4 f.ext (stcBody f.ext) s

/-- STC_EXT (R144). -/
def execStcExt (f : Ext) (s : State) : Out :=
  instr 0x11#6 0x4#4 f (stcBody f) s

/-- STL_32 (R145). -/
def execStl32 (f : Base) (s : State) : Out :=
  instr 0x11#6 0x5#4 f.ext (storeReleaseBody 4 f.ext) s

/-- STL_32_EXT (R145). -/
def execStl32Ext (f : Ext) (s : State) : Out :=
  instr 0x11#6 0x5#4 f (storeReleaseBody 4 f) s

/-- STL_64 (R145). -/
def execStl64 (f : Base) (s : State) : Out :=
  instr 0x11#6 0x6#4 f.ext (storeReleaseBody 8 f.ext) s

/-- STL_64_EXT (R145). -/
def execStl64Ext (f : Ext) (s : State) : Out :=
  instr 0x11#6 0x6#4 f (storeReleaseBody 8 f) s

/-- LDF (R149). -/
def execLdf (f : Base) (s : State) : Out :=
  instr 0x12#6 0x0#4 f.ext (ldfBody true f.ext) s

/-- LDF_EXT (R149). -/
def execLdfExt (f : Ext) (s : State) : Out :=
  instr 0x12#6 0x0#4 f (ldfBody true f) s

/-- LDFK (R149). -/
def execLdfk (f : Base) (s : State) : Out :=
  instr 0x12#6 0x1#4 f.ext (ldfBody false f.ext) s

/-- LDFK_EXT (R149). -/
def execLdfkExt (f : Ext) (s : State) : Out :=
  instr 0x12#6 0x1#4 f (ldfBody false f) s

/-- STE (R149). -/
def execSte (f : Base) (s : State) : Out :=
  instr 0x12#6 0x2#4 f.ext (steBody true f.ext) s

/-- STE_EXT (R149). -/
def execSteExt (f : Ext) (s : State) : Out :=
  instr 0x12#6 0x2#4 f (steBody true f) s

/-- STFX (R149). -/
def execStfx (f : Base) (s : State) : Out :=
  instr 0x12#6 0x3#4 f.ext (steBody false f.ext) s

/-- STFX_EXT (R149). -/
def execStfxExt (f : Ext) (s : State) : Out :=
  instr 0x12#6 0x3#4 f (steBody false f) s

/-- FEQ (R149). -/
def execFeq (f : Base) (s : State) : Out :=
  instr 0x12#6 0x4#4 f.ext (feqBody f.ext) s

/-- FEQ_EXT (R149). -/
def execFeqExt (f : Ext) (s : State) : Out :=
  instr 0x12#6 0x4#4 f (feqBody f) s

end Sys2Proof.Machine
end

