-- ==== Sys2Proof/Machine/Atomics.lean ====
section
/-!
DEFINITION. Machine/Atomics.lean: atomics and ordered atomics (05 R153 to R157) and barriers (05 R160 to R162).
-/

namespace Sys2Proof.Machine

/-! ## Atomics -/

/-- Combine of R153, by the operation codes of 02 R71. -/
def combine (op w old operand : Nat) : Nat :=
  let s (x : Nat) : Int := toSigned w x
  match op with
  | 0 => (old + operand) % 2 ^ w
  | 1 => if s operand < s old then operand else old
  | 2 => if s old < s operand then operand else old
  | 3 => min old operand
  | 4 => max old operand
  | 5 => old &&& operand
  | 6 => old ||| operand
  | 7 => old ^^^ operand
  | _ => operand

/-- Width in bits of an atomic's format: I32, N32 and FP32 are 4 bytes, I64 and FP64 are 8. -/
def atomicWidth (fmt : Nat) : Nat := if fmt = 13 ∨ fmt = 0 then 64 else 32

/-- An old value as D receives it. -/
def extendOld (fmt old : Nat) : DWord := if fmt = 11 then BitVec.ofInt 64 (toSigned 32 old) else w64 old

def acquires (ord : BitVec 3) : Bool := ord.getLsbD 0
def releases (ord : BitVec 3) : Bool := ord.getLsbD 1

/-- What an atomic at n bytes of a key does first: their newest contents are at hand, and its agent sees every write to them. -/
def readyAt (a : Agent) (k n : Nat) : Act Unit := do
  modMem (fun m =>
    if keyIsStore k then m.pullStore a.die (.agent a.issuer) k n
    else if keyIsView k then m.openView a.die (k / 128) else m.recallViews k n true)
  settleBytes a.eye k n

/-- Read and replace bytes indivisibly at their location; none when a poisoned old value left everything as it was
(R154).  DEDUCED: notes/assumptions/14.md. -/
def updateAt (a : Agent) (p : Place) (addr size : Nat) (release : Option Nat) (f : Nat → Nat) : Act (Option Nat) := do
  let ps := p.parts size
  if ps = [] then trap 0x06 (w64 addr)
  let _ ← ps.mapM (fun x => readyAt a x.1 x.2)
  let m := (← get).mem
  if ps.any (fun x => (m.firstPoison x.1 x.2).isSome) then return none
  let old := bytesNat (ps.flatMap (fun x => (List.range x.2).map (fun i => m.newest (x.1 + i))))
  writePlace a p addr (natBytes size (f old)) false release
  return some old

/-- Trap 0x12 of a returning atomic, at its own address (R154). -/
def poisonTrap {α : Type} (p : Place) (addr size : Nat) : Act α := do
  let m := (← get).mem
  match (p.parts size).findSome? (fun x => (m.firstPoison x.1 x.2).map (fun g => (x.1, g))) with
  | some (k, g) => trap 0x12 (w64 (addr + g - k))
  | none => trap 0x12 (w64 addr)

/-- A return-free atomic goes to another device: the thread's next access waits until it is performed (R154). -/
def awayAtomic (addr : Nat) : Act Unit := do
  let id ← freshId
  let now := (← get).dev.cycle
  modCur (fun t => { t with remoteStores := t.remoteStores ++ [⟨id, w64 addr, false, true, now⟩] })

/-- An atomic of R153: `checked` forms fall under the writer rule, `returns` forms write D (R154, R156).  DEDUCED: notes/assumptions/14.md. -/
def atomicBody (returns : Bool) (f : Ext) (c : TCap) (op : Nat → Nat) : Act Unit := do
  let fmt := f.fmt.toNat
  let size := atomicWidth fmt / 8
  let addr := memAddr c f 1
  derefAligned c addr size (if returns then [permLD, permST] else [permST])
  let a ← curAgent
  let p ← reach a addr size .write returns (capHas c.val permFMTW)
  let scope := f.scope.toNat
  if releases f.ord then releaseAt scope
  let release := if releases f.ord then some scope else none
  match p with
  | .remote _ => do
    if acquires f.ord then acquireOwn scope
    if returns then sendResult f.d 0#64 (some (size, fmt == 11)) addr
    else do
      awayAtomic addr
  | _ => do
    let _ ← (p.parts size).mapM (fun x => settleBytes a.eye x.1 x.2)
    if acquires f.ord then acquireAt scope p size
    match ← updateAt a p addr size release op with
    | some old => if returns then sendResult f.d (extendOld fmt old) none addr
    | none => if returns then poisonTrap p addr size

/-- Returning atomics trap in a deterministic context before any other check (R156). -/
def noDeterminism : Act Unit := do
  let c ← getCtx
  trapIf c.det 0x0B 0#64

/-- The operand of an atomic at its width. -/
def atomicOperand (f : Ext) (x : DWord) : Nat := x.toNat % 2 ^ atomicWidth f.fmt.toNat

def amoBody (f : Ext) : Act Unit := do
  noDeterminism
  let c ← readG f.a f.ta
  let b ← readData f.b f.tb
  atomicBody true f c (fun old => combine f.sub.toNat (atomicWidth f.fmt.toNat) old (atomicOperand f b))

def amocasBody (f : Ext) : Act Unit := do
  noDeterminism
  let c ← readG f.a f.ta
  let b ← readData f.b f.tb
  let x ← readData f.c f.tc
  atomicBody true f c (fun old => if old = atomicOperand f b then atomicOperand f x else old)

def amonBody (f : Ext) : Act Unit := do
  let c ← readG f.a f.ta
  let b ← readData f.b f.tb
  atomicBody false f c (fun old => combine f.sub.toNat (atomicWidth f.fmt.toNat) old (atomicOperand f b))

/-- DEDUCED: notes/assumptions/14.md. -/
def amofBody (f : Ext) : Act Unit := do
  let returns := f.sub == 1#8
  if returns then noDeterminism
  let c ← readG f.a f.ta
  let b ← readData f.b f.tb
  let fp := Fp.ofFmt f.fmt.toNat
  atomicBody returns f c (fun old => (fp.add (Rm.ofCode f.rm.toNat) 0 old (atomicOperand f b)).1)

/-! ## Ordered atomics (R157) -/

/-- AMOQ: the request goes to its window, and the instruction waits until the window has answered (AMOQ_ARRIVAL). -/
def amoqBody (f : Ext) : Act Unit := do
  let a ← readData f.a f.ta
  let b ← readData f.b f.tb
  let s ← get
  let t := s.cur
  waitIf (f.d != 0#6 && (gAt t f.d).st == .pending)
  if releases f.ord then releaseAt f.scope.toNat
  let clock ← messageClock
  let c ← getCtx
  let mine (m : AmoqMsg) : Bool := m.issuer == t.fid && m.resume == nextPc t f
  waitIf (s.net.amoqs.any mine || c.windows.toList.any (fun w => w.held.any mine))
  let id ← freshId
  modNet (fun n => { n with amoqs := n.amoqs ++
    [⟨t.fid, coreOf t.pos, t.pathw, f.imm.toNat % 64, a.toNat % 2 ^ 32, b, f.d.toNat, id, nextPc t f, f.ord, f.scope.toNat,
      if releases f.ord then clock else []⟩] })
  let t' ← get
  throw (.hold (fun s => { s with mem := t'.mem, net := t'.net, nextId := t'.nextId }))

/-! ## Barriers -/

/-- The word that a barrier form names, after its checks: 16 bytes of a cluster store (R160). -/
def barrierWord (c : TCap) (kind : Kind) : Act Place := do
  let addr := capAddr c.val
  derefAligned c addr 16 [permLD, permST]
  let a ← curAgent
  let p ← reach a addr 16 kind false false
  match p with
  | .bytes k _ => trapIf (!(keyIsCluster k)) 0x06 (w64 addr)
  | .remote _ => trapIf (addr % 2 ^ 50 / 2 ^ 38 != 0xFFE) 0x06 (w64 addr)
  | .word _ | .split _ => trap 0x06 (w64 addr)
  return p

/-- The scope of arrivals and waits: the wider of SCOPE and band (R162). -/
def barrierScope (f : Ext) : Nat := max f.scope.toNat 2

/-- The barrier word as it stands at its store. -/
def barrierAtStore (e : Eye) (k addr : Nat) : Act BarrierWord := do
  modMem (·.readied e k 16)
  checkPoison k 16 addr
  return barrierOf (bytesNat ((← get).mem.bytes k 16))

def putBarrier (p : Place) (addr : Nat) (b : BarrierWord) (release : Option Nat) : Act Unit := do
  writePlace (← curAgent) p addr (natBytes 16 (barrierNat b)) false release

/-- DESIGN CHOICE: notes/assumptions/28.md. -/
def binitBody (f : Ext) : Act Unit := do
  let c ← readG f.a f.ta
  let b ← readData f.b f.tb
  let p ← barrierWord c .write
  trapIf (b.toNat = 0 || decide (32767 < b.toNat)) 0x05 (capCursor c.val)
  putBarrier p (capAddr c.val) ⟨0, b.toNat, 0, 0, 0⟩ none

/-- BARR and BARRX: Arrive (R161), a release (R162). -/
def arriveBody (bytes : Int) (c : TCap) (f : Ext) : Act Unit := do
  let addr := capAddr c.val
  let p ← barrierWord c .write
  match p with
  | .bytes k _ => do
    let b ← barrierAtStore (eyeOf (← get).cur) k addr
    waitIf (!(decide (b.arrived < b.expected)))
    releaseAt (barrierScope f)
    putBarrier p addr (b.arrive bytes) (some (barrierScope f))
    writeData f.d (w64 b.phase)
  | _ => do
    releaseAt (barrierScope f)
    let x ← fabricAnswer addr false
    writeData f.d (w64 (x.data.toNat % 2))

def barrBody (f : Ext) : Act Unit := do
  let c ← readG f.a f.ta
  arriveBody 0 c f

def barrxBody (f : Ext) : Act Unit := do
  let c ← readG f.a f.ta
  let b ← readData f.b f.tb
  arriveBody b.toInt c f

/-- The phase differs from a token's bit 0; an acquire when it does (R162).  Another device answers a wait only once it has
passed. -/
def phasePassed (waits : Bool) (c : TCap) (token : DWord) (f : Ext) : Act Bool := do
  let addr := capAddr c.val
  let p ← barrierWord c .read
  match p with
  | .bytes k _ => do
    let b ← barrierAtStore (eyeOf (← get).cur) k addr
    let passed := decide (b.phase ≠ token.toNat % 2)
    if passed then acquireAt (barrierScope f) p 16
    return passed
  | _ => do
    let x ← fabricAnswer addr (!waits)
    return waits || decide (x.data.toNat % 2 ≠ token.toNat % 2)

def bwaitBody (f : Ext) : Act Unit := do
  let c ← readG f.a f.ta
  let b ← readData f.b f.tb
  let passed ← phasePassed true c b f
  waitIf (!passed)

def btestBody (f : Ext) : Act Unit := do
  let c ← readG f.a f.ta
  let b ← readData f.b f.tb
  let passed ← phasePassed false c b f
  writeP f.d (allOnes passed)

/-- DESIGN CHOICE: notes/assumptions/28.md. -/
def bbytesBody (f : Ext) : Act Unit := do
  let c ← readG f.a f.ta
  let b ← readData f.b f.tb
  let addr := capAddr c.val
  let p ← barrierWord c .write
  match p with
  | .bytes k _ => do
    let w ← barrierAtStore (eyeOf (← get).cur) k addr
    putBarrier p addr (w.addBytes b.toInt) none
  | _ => writePlace (← curAgent) p addr (natBytes 16 0) false none

/-! ## Meanings -/

/-- AMO (R153). -/
def execAmo (f : Ext) (s : State) : Out :=
  instr 0x16#6 0x0#4 f (amoBody f) s

/-- AMOCAS (R153). -/
def execAmocas (f : Ext) (s : State) : Out :=
  instr 0x16#6 0x1#4 f (amocasBody f) s

/-- AMON (R153). -/
def execAmon (f : Ext) (s : State) : Out :=
  instr 0x16#6 0x2#4 f (amonBody f) s

/-- AMOF (R153). -/
def execAmof (f : Ext) (s : State) : Out :=
  instr 0x16#6 0x3#4 f (amofBody f) s

/-- AMOQ (R157). -/
def execAmoq (f : Ext) (s : State) : Out :=
  instr 0x16#6 0x4#4 f (amoqBody f) s

/-- BINIT (R161). -/
def execBinit (f : Base) (s : State) : Out :=
  instr 0x18#6 0x0#4 f.ext (binitBody f.ext) s

/-- BINIT_EXT (R161). -/
def execBinitExt (f : Ext) (s : State) : Out :=
  instr 0x18#6 0x0#4 f (binitBody f) s

/-- BARR (R161). -/
def execBarr (f : Base) (s : State) : Out :=
  instr 0x18#6 0x1#4 f.ext (barrBody f.ext) s

/-- BARR_EXT (R161). -/
def execBarrExt (f : Ext) (s : State) : Out :=
  instr 0x18#6 0x1#4 f (barrBody f) s

/-- BARRX (R161). -/
def execBarrx (f : Base) (s : State) : Out :=
  instr 0x18#6 0x2#4 f.ext (barrxBody f.ext) s

/-- BARRX_EXT (R161). -/
def execBarrxExt (f : Ext) (s : State) : Out :=
  instr 0x18#6 0x2#4 f (barrxBody f) s

/-- BWAIT (R161). -/
def execBwait (f : Base) (s : State) : Out :=
  instr 0x18#6 0x3#4 f.ext (bwaitBody f.ext) s

/-- BWAIT_EXT (R161). -/
def execBwaitExt (f : Ext) (s : State) : Out :=
  instr 0x18#6 0x3#4 f (bwaitBody f) s

/-- BTEST (R161). -/
def execBtest (f : Base) (s : State) : Out :=
  instr 0x18#6 0x4#4 f.ext (btestBody f.ext) s

/-- BTEST_EXT (R161). -/
def execBtestExt (f : Ext) (s : State) : Out :=
  instr 0x18#6 0x4#4 f (btestBody f) s

/-- BBYTES (R161). -/
def execBbytes (f : Base) (s : State) : Out :=
  instr 0x18#6 0x5#4 f.ext (bbytesBody f.ext) s

/-- BBYTES_EXT (R161). -/
def execBbytesExt (f : Ext) (s : State) : Out :=
  instr 0x18#6 0x5#4 f (bbytesBody f) s

end Sys2Proof.Machine
end

