-- ==== Sys2Proof/Machine/Calls.lean ====
section
/-!
DEFINITION. Machine/Calls.lean: remote calls (07 R225 to R232, 11 R313 to R315, R322).
-/

namespace Sys2Proof.Machine

/-! ## Where a call goes -/

/-- A call's destination: device, owner and target as the handler receives it. -/
structure CallRoute where
  device : Nat
  owner : Pos
  target : TCap
  deriving DecidableEq, Repr

/-- HomeOf at issue (08 R246, 11 R313). -/
def routeCall (c : TCap) : Act CallRoute := do
  let addr := capAddr c.val
  deref c addr 1 [permRCALL]
  let a ← threadAgent
  let p ← translateIn a.ctx a.band none a.die [] addr 1 .fetch
  let s ← get
  match p with
  | .remote d => return ⟨d, ⟨false, 0, 0, 0, 4⟩, ⟨c.val, c.tag && capSealed c.val && capHas c.val permGLOBAL⟩⟩
  | .word _ | .split _ => dangling
  | .bytes k _ =>
    let relative := addr % 2 ^ 50 / 2 ^ 40 = 0x3FF ∧ addr % 2 ^ 50 / 2 ^ 38 % 4 < 2
    let r := allotmentOf s k
    return ⟨s.dev.number, ownerOfKey s.mem k,
      if relative then moveTarget c.val (s.dev.number * 2 ^ 50 + k) r.1 r.2 else c⟩

/-- A tag crosses to another device only on a sealed capability with GLOBAL (01 R43). -/
def crossing (remote : Bool) (x : TCap) : TCap :=
  if !remote || (x.tag && capSealed x.val && capHas x.val permGLOBAL) then x
  else if x.tag then ⟨dataVal (capCursor x.val), false⟩ else x

/-- n registers from one on. -/
def readBlock (first : BitVec 6) (n : Nat) (tb : Bool) : Act (List TCap) :=
  (List.range n).mapM (fun i => readG (first + BitVec.ofNat 6 i) tb)

/-! ## The handler table (R225) -/

/-- A handler-table entry: HANDLER and the flag word. -/
structure HandlerEntry where
  handler : TCap
  flags : DWord
  deriving DecidableEq, Repr

/-- Entry i of a context's handler table, as the device reads it; none without a translation that allows loads. -/
def handlerEntry (s : State) (c : Ctx) (i : Nat) : Option HandlerEntry :=
  let addr := c.handlerTable.toNat + 32 * i
  if (walk s.mem c (addr % 2 ^ 50)).any (fun l => !(entryRead l.word)) then none
  else (keyOf s c none addr 32).map (fun k =>
    ⟨⟨BitVec.ofNat 128 (bytesNat (s.mem.bytes k 16)), setHas s.mem.tags (k / 16)⟩, s.mem.word64 (k + 16)⟩)

def entryIdem (s : State) (c : Ctx) (i : Nat) : Bool :=
  match handlerEntry s c i with
  | some e => e.flags.getLsbD 1
  | none => false

/-! ## RCALL, RCALLN -/

def handlerOf (f : Ext) : Nat := f.imm.toNat % 2 ^ 12
def payloadOf (f : Ext) : Nat := f.imm.toNat / 2 ^ 12 % 16
def repliesOf (f : Ext) : Nat := f.imm.toNat / 2 ^ 16 % 8

/-- Calls that expect a reply. -/
def replyCalls (t : Thread) : Nat := (t.calls.filter (fun c => decide (0 < c.count))).length

/-- The next serial of the thread (11 R322). -/
def takeSerial : Act Word := do
  let t := (← get).cur
  let c ← getCore
  modCore t.pos (fun c => { c with serials := setAt c.serials t.pos.thread (· + 1#32) })
  return c.serials.getD t.pos.thread 0#32

/-- A call to another device leaves only after the thread's earlier stores and atomics to it are acknowledged (11 R315). -/
def awaitDevice (device : Nat) : Act Unit := do
  let t := (← get).cur
  waitIf (t.remoteStores.any (fun r => !r.failed && r.address.toNat / 2 ^ 50 == device) ||
    t.inFlight.any (fun r => r.away.isSome && r.address.toNat / 2 ^ 50 == device))

/-- Send a call, and note it as outstanding. -/
def sendCall (f : Ext) (r : CallRoute) (payload : List TCap) (count : Nat) : Act Unit := do
  let serial ← takeSerial
  let s ← get
  let t := s.cur
  let c ← getCtx
  let remote := r.device ≠ s.dev.number
  let xs := payload.map (crossing remote)
  let idem := remote && entryIdem s c (handlerOf f)
  modCur (fun t => { t with calls := t.calls ++
    [⟨serial, t.pos.thread, f.d.toNat, count, r.device, r.owner, capCursor r.target.val, handlerOf f, idem, xs, s.dev.cycle, 0, 0⟩] })
  modNet (fun n => { n with calls := n.calls ++
    [{ ctx := ctxOf t, ctxw := t.ctxw, pathw := t.pathw, caller := t.fid, callerDevice := s.dev.number, serial := serial, thread := t.pos.thread,
       target := r.target, handler := handlerOf f, payload := xs, count := count, reply := count != 0, forwarded := false,
       hops := 0, device := r.device, owner := r.owner, writer := writerOf t, clock := s.mem.clockAt (eyeOf t) }] })

def rcallBody (f : Ext) : Act Unit := do
  let c ← readG f.a f.ta
  let r ← routeCall c
  let xs ← readBlock f.b (payloadOf f) f.tb
  waitIf (decide (32 ≤ replyCalls (← get).cur))
  awaitDevice r.device
  let m := repliesOf f
  let _ ← (List.range m).mapM (fun i => markPending (f.d + BitVec.ofNat 6 i))
  sendCall f r xs m

def rcallnBody (f : Ext) : Act Unit := do
  let c ← readG f.a f.ta
  let r ← routeCall c
  let xs ← readBlock f.b (payloadOf f) f.tb
  waitIf ((← get).cur.rcalln == 65535)
  awaitDevice r.device
  modCur (fun t => { t with rcalln := t.rcalln + 1 })
  sendCall f r xs 0

/-! ## RREPLY, RFWD -/

/-- DEDUCED: notes/assumptions/25.md. -/
def rreplyBody (f : Ext) : Act Unit := do
  let n := f.imm.toNat
  let xs ← readBlock f.a n f.ta
  let s ← get
  match s.cur.duty with
  | .handler h => closeHandler h (xs.map (crossing (decide (h.callerDevice ≠ s.dev.number))))
  | _ => endDuty

/-- The caller's record of a call that a handler of this device forwards: it is outstanding at the next hop's owner, whose device
and transport its timeout and reissues follow (11 R320, R321). -/
def forwardCall (h : HandlerDuty) (r : CallRoute) (handler : Nat) (idem : Bool) (payload : List TCap) : State → State :=
  modFiring h.caller (fun t => { t with calls := t.calls.map (fun c =>
    if c.serial = h.serial ∧ c.thread = h.thread then
      { c with
        device := r.device, owner := r.owner, target := capCursor r.target.val, handler := handler, idem := idem,
        payload := payload, hops := h.hops + 1 }
    else c) })

/-- RFWD (R229): hop 8 may not forward; a landing handler has no call to forward (notes/assumptions/25.md). -/
def rfwdBody (f : Ext) : Act Unit := do
  let c ← readG f.a f.ta
  let r ← routeCall c
  let xs ← readBlock f.b (payloadOf f) f.tb
  let s ← get
  let t := s.cur
  match t.duty with
  | .handler h => do
    trapIf (decide (7 ≤ h.hops)) 0x0F 0#64
    waitIf (anyPending t)
    awaitDevice r.device
    let remote := r.device ≠ s.dev.number
    let idem := remote && entryIdem s (← getCtx) (handlerOf f)
    if h.callerDevice = s.dev.number then modify (forwardCall h r (handlerOf f) idem (xs.map (crossing remote)))
    modNet (fun n => { n with calls := n.calls ++
      [{ ctx := ctxOf t, ctxw := t.ctxw, pathw := t.pathw, caller := h.caller, callerDevice := h.callerDevice,
         serial := h.serial, thread := h.thread, target := r.target, handler := handlerOf f, payload := xs.map (crossing remote), count := h.count,
         reply := h.reply, forwarded := true, hops := h.hops + 1, device := r.device, owner := r.owner, writer := h.writer,
         clock := s.mem.clockAt (eyeOf t) }] })
    modCur idleService
  | _ => trap 0x0F 0#64

/-! ## RFENCE, RCSTAT (R231) -/

/-- A passing RFENCE is an acquire at dev scope of what the handlers did. -/
def rfenceBody : Act Unit := do
  let t := (← get).cur
  waitIf (t.rcalln != 0)
  match t.rcallRecord with
  | some w => reportTrap (recordCause w) w (fun s => { s with cur := clearRcalln s.cur })
  | none => pure ()
  acquireOwn 3
  followClock t.rcallClock
  modCur (fun t => { t with rcallClock := [] })

def rcstatWord (t : Thread) : DWord :=
  let first := match t.rcallRecord with
    | some w => (w.extractLsb' 48 8).toNat
    | none => 0
  w64 (first * 2 ^ 32 + min t.rcallUnreported 255 * 2 ^ 24 + replyCalls t * 2 ^ 16 + t.rcalln)

def rcstatBody (f : Ext) : Act Unit := do writeData f.d (rcstatWord (← get).cur)

/-! ## Meanings -/

/-- RCALL (R226). -/
def execRcall (f : Ext) (s : State) : Out :=
  instr 0x32#6 0x0#4 f (rcallBody f) s

/-- RCALLN (R226). -/
def execRcalln (f : Ext) (s : State) : Out :=
  instr 0x32#6 0x1#4 f (rcallnBody f) s

/-- RREPLY (R228). -/
def execRreply (f : Ext) (s : State) : Out :=
  jumpInstr 0x32#6 0x2#4 f (rreplyBody f) s

/-- RFWD (R229). -/
def execRfwd (f : Ext) (s : State) : Out :=
  jumpInstr 0x32#6 0x3#4 f (rfwdBody f) s

/-- RFENCE (R231). -/
def execRfence (f : Base) (s : State) : Out :=
  instr 0x32#6 0x4#4 f.ext (rfenceBody) s

/-- RFENCE_EXT (R231). -/
def execRfenceExt (f : Ext) (s : State) : Out :=
  instr 0x32#6 0x4#4 f (rfenceBody) s

/-- RCSTAT (R231). -/
def execRcstat (f : Base) (s : State) : Out :=
  instr 0x32#6 0x5#4 f.ext (rcstatBody f.ext) s

/-- RCSTAT_EXT (R231). -/
def execRcstatExt (f : Ext) (s : State) : Out :=
  instr 0x32#6 0x5#4 f (rcstatBody f) s

end Sys2Proof.Machine
end

