-- ==== Sys2Proof/Machine/CapOps.lean ====
section
/-!
DEFINITION. Machine/CapOps.lean: capability instructions (04 R124 to R129).
-/

namespace Sys2Proof.Machine

/-- TINFO of a capability check that forms no address: the cursor (13 R348).  DESIGN CHOICE: notes/assumptions/10.md. -/
def cursorInfo (c : TCap) : DWord := capCursor c.val

def needsTag (c : TCap) : Act Unit := trapIf (!c.tag) 0x04 (cursorInfo c)

/-- A sealed A traps; an untagged A is data and is not sealed (R125). -/
def needsUnsealed (c : TCap) : Act Unit := trapIf (c.tag && capSealed c.val) 0x07 (cursorInfo c)

/-- A capability with a new cursor: data when A is untagged or the cursor leaves the window (R125). -/
def moveCursor (c : TCap) (x : DWord) : TCap :=
  if c.tag && capRepresentable c.val x.toNat then ⟨capWithCursor c.val x, true⟩ else ⟨dataVal x, false⟩

/-- CADD and CSETA (R124, R125). -/
def cursorBody (op : DWord → DWord → DWord) (f : Ext) : Act Unit := do
  let a ← readG f.a f.ta
  let b ← readB f
  needsUnsealed a
  writeG f.d (moveCursor a (op (capCursor a.val) b))

/-- CBOUND and CBOUNDX (R126). -/
def cboundBody (exact : Bool) (f : Ext) : Act Unit := do
  let a ← readG f.a f.ta
  let b ← readB f
  needsTag a
  needsUnsealed a
  let base := capAddr a.val
  let r := roundBounds base b.toNat
  let old := capBounds a.val
  trapIf (decide (46 < r.1) || decide (2 ^ 64 < base + b.toNat) || decide (r.2.1 < old.1) || decide (old.2 < r.2.2))
    0x05 (cursorInfo a)
  trapIf (exact && (r.2.1 != base || r.2.2 != base + b.toNat)) 0x05 (cursorInfo a)
  writeG f.d ⟨capWithBounds a.val r.1 r.2.1 r.2.2, true⟩

def candpBody (f : Ext) : Act Unit := do
  let a ← readG f.a f.ta
  let b ← readB f
  needsTag a
  needsUnsealed a
  writeG f.d ⟨capWithPerms a.val (capPerms a.val &&& b.extractLsb' 0 16), true⟩

/-- CSEAL: the checks on A precede those on B (R127). -/
def csealBody (f : Ext) : Act Unit := do
  let a ← readG f.a f.ta
  let b ← readG f.b f.tb
  needsTag a
  needsUnsealed a
  let t := capAddr b.val
  deref b t 1 [permSEAL]
  trapIf (t == 0 || decide (15 < t) || t == 3 || t == 4 || t == 5) 0x07 (cursorInfo b)
  writeG f.d ⟨capWithType a.val t, true⟩

/-- DEDUCED: notes/assumptions/12.md. -/
def cunsealBody (f : Ext) : Act Unit := do
  let a ← readG f.a f.ta
  let b ← readG f.b f.tb
  needsTag a
  trapIf (!(capSealed a.val)) 0x07 (cursorInfo a)
  let o := capType a.val
  trapIf (o == 3 || o == 4 || o == 5) 0x07 (cursorInfo a)
  let t := capAddr b.val
  deref b t 1 [permUNSEAL]
  trapIf (t != o) 0x07 (cursorInfo b)
  writeG f.d ⟨unsealCap a.val, true⟩

/-- A field of a register as it decodes, whatever the tag (R128, 07 R217). -/
def capField (s : State) (c : TCap) (code : Nat) : DWord :=
  let b := boundsOf s c.val
  match code with
  | 0 => capCursor c.val
  | 1 => w64 b.1
  | 2 => w64 (min (b.2 - b.1) (2 ^ 64 - 1))
  | 3 => w64 (capPerms c.val).toNat
  | 4 => w64 (capType c.val)
  | 5 => if capType c.val = 3 ∨ capType c.val = 4 then 0#64 else w64 (capExp c.val)
  | 6 => w64 (if c.tag then 1 else 0)
  | _ => capCursor c.val - w64 b.1

def cgetBody (f : Ext) : Act Unit := do
  let a ← readG f.a f.ta
  writeData f.d (capField (← get) a f.b.toNat)

def cclearBody (f : Ext) : Act Unit := do
  let a ← readG f.a f.ta
  writeData f.d (capCursor a.val)

/-- The relations of B to A (R129). -/
def capRelations (s : State) (a b : TCap) : Word :=
  let x := boundsOf s a.val
  let y := boundsOf s b.val
  let r : Nat :=
    (if a.tag && b.tag then 1 else 0) + (if decide (x.1 ≤ y.1) && decide (y.2 ≤ x.2) then 2 else 0) +
    (if capPerms b.val &&& ~~~(capPerms a.val) = 0#16 then 4 else 0) + (if capSealed a.val then 0 else 8)
  if r = 15 then 0xFFFFFFFF#32 else BitVec.ofNat 32 r

def ctestBody (f : Ext) : Act Unit := do
  let a ← readG f.a f.ta
  let b ← readG f.b f.tb
  writeP f.d (capRelations (← get) a b)

def csubBody (f : Ext) : Act Unit := do
  let a ← readData f.a f.ta
  let b ← readData f.b f.tb
  writeData f.d (a - b)

/-! ## Meanings -/

/-- CADD (R125). -/
def execCadd (f : Base) (s : State) : Out :=
  instr 0x08#6 0x0#4 f.ext (cursorBody (fun a b => a + b) f.ext) s

/-- CADD_EXT (R125). -/
def execCaddExt (f : Ext) (s : State) : Out :=
  instr 0x08#6 0x0#4 f (cursorBody (fun a b => a + b) f) s

/-- CSETA (R125). -/
def execCseta (f : Base) (s : State) : Out :=
  instr 0x08#6 0x1#4 f.ext (cursorBody (fun _ b => b) f.ext) s

/-- CSETA_EXT (R125). -/
def execCsetaExt (f : Ext) (s : State) : Out :=
  instr 0x08#6 0x1#4 f (cursorBody (fun _ b => b) f) s

/-- CBOUND (R126). -/
def execCbound (f : Base) (s : State) : Out :=
  instr 0x08#6 0x2#4 f.ext (cboundBody false f.ext) s

/-- CBOUND_EXT (R126). -/
def execCboundExt (f : Ext) (s : State) : Out :=
  instr 0x08#6 0x2#4 f (cboundBody false f) s

/-- CBOUNDX (R126). -/
def execCboundx (f : Base) (s : State) : Out :=
  instr 0x08#6 0x3#4 f.ext (cboundBody true f.ext) s

/-- CBOUNDX_EXT (R126). -/
def execCboundxExt (f : Ext) (s : State) : Out :=
  instr 0x08#6 0x3#4 f (cboundBody true f) s

/-- CANDP (R124). -/
def execCandp (f : Base) (s : State) : Out :=
  instr 0x08#6 0x4#4 f.ext (candpBody f.ext) s

/-- CANDP_EXT (R124). -/
def execCandpExt (f : Ext) (s : State) : Out :=
  instr 0x08#6 0x4#4 f (candpBody f) s

/-- CSEAL (R127). -/
def execCseal (f : Base) (s : State) : Out :=
  instr 0x08#6 0x5#4 f.ext (csealBody f.ext) s

/-- CSEAL_EXT (R127). -/
def execCsealExt (f : Ext) (s : State) : Out :=
  instr 0x08#6 0x5#4 f (csealBody f) s

/-- CUNSEAL (R127). -/
def execCunseal (f : Base) (s : State) : Out :=
  instr 0x08#6 0x6#4 f.ext (cunsealBody f.ext) s

/-- CUNSEAL_EXT (R127). -/
def execCunsealExt (f : Ext) (s : State) : Out :=
  instr 0x08#6 0x6#4 f (cunsealBody f) s

/-- CGET (R128). -/
def execCget (f : Base) (s : State) : Out :=
  instr 0x08#6 0x7#4 f.ext (cgetBody f.ext) s

/-- CGET_EXT (R128). -/
def execCgetExt (f : Ext) (s : State) : Out :=
  instr 0x08#6 0x7#4 f (cgetBody f) s

/-- CCLEAR (R124). -/
def execCclear (f : Base) (s : State) : Out :=
  instr 0x08#6 0x8#4 f.ext (cclearBody f.ext) s

/-- CCLEAR_EXT (R124). -/
def execCclearExt (f : Ext) (s : State) : Out :=
  instr 0x08#6 0x8#4 f (cclearBody f) s

/-- CTEST (R129). -/
def execCtest (f : Base) (s : State) : Out :=
  instr 0x08#6 0x9#4 f.ext (ctestBody f.ext) s

/-- CTEST_EXT (R129). -/
def execCtestExt (f : Ext) (s : State) : Out :=
  instr 0x08#6 0x9#4 f (ctestBody f) s

/-- CSUB (R124). -/
def execCsub (f : Base) (s : State) : Out :=
  instr 0x08#6 0xA#4 f.ext (csubBody f.ext) s

/-- CSUB_EXT (R124). -/
def execCsubExt (f : Ext) (s : State) : Out :=
  instr 0x08#6 0xA#4 f (csubBody f) s

end Sys2Proof.Machine
end

