-- ==== Sys2Proof/Machine/Lines.lean ====
section
/-!
DEFINITION. Machine/Lines.lean: stashes and cache lines (05 R150 to R152) and writer capabilities (05 R172, R173).
-/

namespace Sys2Proof.Machine

/-! ## Stashes -/

/-- The core-store key of a range of the issuing core's allotment. -/
def ownCoreKey (s : State) (addr size : Nat) : Option Nat :=
  if addr / 2 ^ 50 = s.dev.number ∧ addr % 2 ^ 50 / 2 ^ 40 = 0x3FF then
    match resolveAperture s (ctxOf s.cur) (formBand s s.cur) (some s.cur.pos) addr size with
    | .ok (.bytes k _) => if keyIsCore k && coreOf (ownerOfKey s.mem k) == coreOf s.cur.pos then some k else none
    | _ => none
  else none

/-- Write back a mapping's lines: their writes are performed at dev scope and HBM holds the lines (R151).  DEDUCED: notes/assumptions/17.md. -/
def stashClean (x : StashMap) (s : State) : State :=
  (x.valid.flatMap (stashPieces s x)).foldl (fun s y =>
    { s with mem := (s.mem.applyWhere none (fun w => w.within (128 * (y.1 / 128)) 128)).cleanLine (y.1 / 128) }) s

/-- A mapping's line holds bytes of the line of a key. -/
def stashHolds (k : Nat) (_ : Pos) (_ : Nat) (s : State) (x : StashMap) (l : Nat) : Bool :=
  (stashPieces s x l).any (fun y => y.1 / 128 == k / 128)

/-- UNSTASH of mapping n of a core (R151). -/
def unstashAt (core : Pos) (n : Nat) (s : State) : State :=
  match (findCore s core).bind (fun c => c.stash.getD n none) with
  | none => s
  | some x =>
    let s := stashDrop core n (fun _ _ _ => true) (stashClean x s)
    { s with cores := s.cores.map (fun c => if c.pos = coreOf core then { c with stash := c.stash.set n none } else c) }

/-- STASH (R150): its alignment is asked of the local range alone, so that the global range may start at any byte.  DEDUCED:
notes/assumptions/17.md. -/
def stashBody (f : Ext) : Act Unit := do
  let a ← readG f.a f.ta
  let b ← readG f.b f.tb
  let n := f.d.toNat
  let p := (← get).cur.pos
  trapIf (!a.tag) 0x04 (capCursor a.val)
  trapIf (capSealed a.val) 0x07 (capCursor a.val)
  let bounds := capBounds a.val
  let length := bounds.2 - bounds.1
  match ownCoreKey (← get) bounds.1 length with
  | none => trap 0x06 (w64 bounds.1)
  | some k => do
    trapIf (decide (k % 128 ≠ 0 ∨ length % 128 ≠ 0 ∨ 65536 < length)) 0x05 (w64 bounds.1)
    let others := match findCore (← get) p with | some c => c.stash | none => []
    trapIf ((List.range 8).any (fun i => i != n &&
      (match others.getD i none with | some x => overlaps k length x.localAt x.length | none => false))) 0x05 (w64 bounds.1)
    let g := capAddr b.val
    deref b g length [permLD]
    let last := g + length - 1
    trapIf (decide (g / 2 ^ 50 ≠ (← get).dev.number ∨ last / 2 ^ 50 ≠ (← get).dev.number ∨
      g % 2 ^ 50 / 2 ^ 40 = 0x3FF ∨ last % 2 ^ 50 / 2 ^ 40 = 0x3FF)) 0x06 (w64 g)
    modify (unstashAt p n)
    let ctx := ctxOf (← get).cur
    modCore p (fun c => { c with stash := c.stash.set n (some ⟨k, length, w64 g, capHas b.val permST, capHas b.val permFMTW, ctx, []⟩) })

def unstashBody (f : Ext) : Act Unit := do
  let p := (← get).cur.pos
  modify (unstashAt p f.d.toNat)

/-- STASHWB (R151). -/
def stashwbBody (f : Ext) : Act Unit := do
  let s ← get
  match (findCore s s.cur.pos).bind (fun c => c.stash.getD f.d.toNat none) with
  | some x => modify (stashClean x)
  | none => pure ()

/-! ## Cache lines (R152) -/

/-- The address that a line form names, and the first byte of its line. -/
def lineAddr (c : TCap) (f : Ext) : Nat × Nat :=
  let addr := memAddr c f 128
  (addr, addr / 128 * 128)

/-- CLZERO: a store of 128 zero bytes. -/
def clzeroBody (f : Ext) : Act Unit := do
  let c ← readG f.a f.ta
  let (addr, line) := lineAddr c f
  deref c line 128 [permST]
  trapIf (addr != line) 0x08 (w64 addr)
  let a ← curAgent
  let p ← reach a line 128 .write true (capHas c.val permFMTW)
  writePlace a p line (List.replicate 128 0#8) false none

/-- Write a line to HBM: a dirty view line is encoded first. -/
def writeBackKey (m : Memory) (k : Nat) : Memory :=
  if keyIsView k then
    match m.views.find? (fun v => v.line == k / 128) with
    | some v =>
      let m' := m.viewWriteback v true
      match m'.windowOfKey k with
      | some w => (linesOf (w.storedKey (k / 128)) (128 / w.factor)).foldl Memory.cleanLine m'
      | none => m'
    | none => m
  else m.cleanLine (k / 128)

/-- CLWB and CLINV: no byte changes; CLINV also drops every cached copy of the line.  DEDUCED: notes/assumptions/17.md. -/
def clwbBody (invalidates : Bool) (f : Ext) : Act Unit := do
  let c ← readG f.a f.ta
  let line := (lineAddr c f).2
  deref c line 128 [if invalidates then permST else permLD]
  let a ← curAgent
  let p ← reach a line 128 .read false false
  let _ ← ((p.parts 128).flatMap (fun x => linesOf x.1 x.2)).mapM (fun l => do
    modMem (fun m => m.applyWhere none (fun w => w.within (128 * l) 128))
    modMem (fun m => writeBackKey m (128 * l))
    if invalidates then do
      modMem (fun m => { m with views := m.views.filter (fun v => v.line != l) })
      modify (stashDropAll (stashHolds (128 * l))))

/-! ## Writer capabilities (R173) -/

/-- HANDOVER: the region's entry names the new owner; a release at band scope.  DEDUCED: notes/assumptions/22.md.  The address
translates as a fetch does, so that its leaf needs READ.  DESIGN CHOICE: notes/assumptions/22.md. -/
def handoverBody (f : Ext) : Act Unit := do
  let a ← readG f.a f.ta
  let b ← readData f.b f.tb
  let addr := capAddr a.val
  let g ← curAgent
  let band ← getBand
  trapIf (decide (band.packet.gangs ≤ b.toNat)) 0x05 (capCursor a.val)
  deref a addr 1 [permST]
  if g.ctx.det ∧ addr % 2 ^ 50 / 2 ^ 40 ≠ 0x3FF then
    let p ← translateFor g addr 1 .fetch
    match p, g.writer with
    | .bytes _ (some e), .gang n _ => do
      trapIf (!(ownsRegion (← get) e g.writer)) 0x0A (w64 addr)
      releaseAt 2
      let clock ← messageClock
      modBand n (fun b => { b with handovers := b.handovers.filter (fun x => x.1 != e) ++ [(e, clock)] })
      putEntry e (entryWithOwner ((← get).mem.word64 e) (some (n, b.toNat)))
    | _, _ => trap 0x0A (w64 addr)
  else releaseAt 2

/-- The vector clock of the last handover of a region that a band holds. -/
def handoverClock (s : State) (band entryAt : Nat) : List Nat :=
  ((findBand s band).bind (fun b => (b.handovers.find? (·.1 == entryAt)).map (·.2))).getD []

/-- OWNQ: never waits.  DEDUCED: notes/assumptions/22.md.  In a deterministic context an address of this device without a leaf
entry traps 0x09.  DESIGN CHOICE: notes/assumptions/22.md. -/
def ownqBody (f : Ext) : Act Unit := do
  let a ← readData f.a f.ta
  let s ← get
  let c ← getCtx
  let addr := a.toNat
  if !c.det then writeData f.d 65#64
  else if addr % 2 ^ 50 / 2 ^ 40 = 0x3FF then writeData f.d 67#64
  else if addr / 2 ^ 50 ≠ s.dev.number then do
    trapIf (!(knownDevice s (addr / 2 ^ 50))) 0x09 a
    writeData f.d 64#64
  else
    match walk s.mem c (addr % 2 ^ 50) with
    | none => trap 0x09 a
    | some l =>
      let owner := if (regionLoop s l.entryAt).isSome then none else liveOwner s l.entryAt
      match owner, writerOf s.cur with
      | some (b, n), .gang b' n' =>
        if b = b' ∧ n = n' then do
          acquireOwn 2
          followClock (handoverClock s b l.entryAt)
      | _, _ => pure ()
      writeData f.d (w64 (if (regionLoop s l.entryAt).isSome then 66 else (owner.map (·.2)).getD 64))

/-! ## Meanings -/

/-- STASH (R150). -/
def execStash (f : Base) (s : State) : Out :=
  instr 0x15#6 0x0#4 f.ext (stashBody f.ext) s

/-- STASH_EXT (R150). -/
def execStashExt (f : Ext) (s : State) : Out :=
  instr 0x15#6 0x0#4 f (stashBody f) s

/-- UNSTASH (R151). -/
def execUnstash (f : Base) (s : State) : Out :=
  instr 0x15#6 0x1#4 f.ext (unstashBody f.ext) s

/-- UNSTASH_EXT (R151). -/
def execUnstashExt (f : Ext) (s : State) : Out :=
  instr 0x15#6 0x1#4 f (unstashBody f) s

/-- STASHWB (R151). -/
def execStashwb (f : Base) (s : State) : Out :=
  instr 0x15#6 0x2#4 f.ext (stashwbBody f.ext) s

/-- STASHWB_EXT (R151). -/
def execStashwbExt (f : Ext) (s : State) : Out :=
  instr 0x15#6 0x2#4 f (stashwbBody f) s

/-- PREF (R152). -/
def execPref (f : Base) (s : State) : Out :=
  instr 0x15#6 0x3#4 f.ext (pure ()) s

/-- PREF_EXT (R152). -/
def execPrefExt (f : Ext) (s : State) : Out :=
  instr 0x15#6 0x3#4 f (pure ()) s

/-- CLZERO (R152). -/
def execClzero (f : Base) (s : State) : Out :=
  instr 0x15#6 0x4#4 f.ext (clzeroBody f.ext) s

/-- CLZERO_EXT (R152). -/
def execClzeroExt (f : Ext) (s : State) : Out :=
  instr 0x15#6 0x4#4 f (clzeroBody f) s

/-- CLWB (R152). -/
def execClwb (f : Base) (s : State) : Out :=
  instr 0x15#6 0x5#4 f.ext (clwbBody false f.ext) s

/-- CLWB_EXT (R152). -/
def execClwbExt (f : Ext) (s : State) : Out :=
  instr 0x15#6 0x5#4 f (clwbBody false f) s

/-- CLINV (R152). -/
def execClinv (f : Base) (s : State) : Out :=
  instr 0x15#6 0x6#4 f.ext (clwbBody true f.ext) s

/-- CLINV_EXT (R152). -/
def execClinvExt (f : Ext) (s : State) : Out :=
  instr 0x15#6 0x6#4 f (clwbBody true f) s

/-- HANDOVER (R173). -/
def execHandover (f : Base) (s : State) : Out :=
  instr 0x1A#6 0x2#4 f.ext (handoverBody f.ext) s

/-- HANDOVER_EXT (R173). -/
def execHandoverExt (f : Ext) (s : State) : Out :=
  instr 0x1A#6 0x2#4 f (handoverBody f) s

/-- OWNQ (R173). -/
def execOwnq (f : Base) (s : State) : Out :=
  instr 0x1A#6 0x3#4 f.ext (ownqBody f.ext) s

/-- OWNQ_EXT (R173). -/
def execOwnqExt (f : Ext) (s : State) : Out :=
  instr 0x1A#6 0x3#4 f (ownqBody f) s

end Sys2Proof.Machine
end

