-- ==== Sys2Proof/Machine/Matrix.lean ====
section
/-!
DEFINITION. Machine/Matrix.lean: accumulator tiles, the matrix command queue and its grants, tile transfers, and the report of matrix
faults (06 R193 to R207, 03 R106 to R111, 09 R270, 01 R30).
-/

namespace Sys2Proof.Machine

/-! ## Tiles -/

/-- A tile of zeros in a mode with clear status (R196, R200). -/
def Tile.zeroed (mode : Bool) : Tile := ⟨mode, false, false, false, false, [], none⟩

/-- The tile behind a name. -/
def tileAt (c : CoreState) (n : Nat) : Tile := c.tiles.getD n (Tile.zeroed false)

/-- An accumulator.  DEDUCED: notes/assumptions/21.md. -/
def Tile.get (t : Tile) (i : Nat) : Nat := (t.acc.getD i 0#64).toNat

/-- The tile is zeroed with clear status; only a report clears its record (R205). -/
def Tile.cleared (mode : Bool) (t : Tile) : Tile := { Tile.zeroed mode with fault := t.fault }

/-- Zero a tile in a mode and clear its status.  A tile that enters mode 1 discards its partner, and one that leaves it frees
its partner, zeroed (01 R30). -/
def zeroTile (mode : Bool) (n : Nat) (c : CoreState) : CoreState :=
  let ts := c.tiles.modify n (Tile.cleared mode)
  { c with tiles := if mode || (tileAt c n).mode then ts.modify (n + 1) (Tile.cleared false) else ts }

/-- The mode that a tile will have after the commands already queued for it (R196). -/
def projectedMode (c : CoreState) (n : Nat) : Bool :=
  match (c.queue.filter (fun q => q.tile == n)).getLast? with
  | some q => q.mode
  | none => (tileAt c n).mode

/-- A name is joined to the even name below it (01 R30). -/
def joinedTo (mode : Nat → Bool) (n : Nat) : Bool := n % 2 == 1 && mode (n - 1)

/-- A name that cannot enter mode 1. -/
def unpaired (allotw : DWord) (n : Nat) : Bool := n % 2 == 1 || decide (allotTiles allotw ≤ n + 1)

/-- Status as MQSTAT shows it (01 R30). -/
def Tile.status (t : Tile) : Nat :=
  (if t.mode then 16 else 0) + (if t.poison then 8 else 0) + (if t.inexact then 4 else 0) + (if t.overflow then 2 else 0) +
    (if t.underflow then 1 else 0)

/-- The matrix record (13 R349). -/
def matrixRecord (kstep skipped tile code : Nat) (offset : Word) : DWord :=
  w64 (kstep % 2 ^ 18 * 2 ^ 46 + min skipped 255 * 2 ^ 38 + tile % 8 * 2 ^ 35 + code * 2 ^ 32 + offset.toNat)

/-- OFFSET of the current instruction. -/
def codeOffset (t : Thread) : Word := BitVec.ofNat 32 ((t.pc.toNat + 2 ^ 64 - (capBounds t.code).1) % 2 ^ 64)

def matrixTrap {α : Type} (tile code : Nat) : Act α := do
  trap 0x13 (matrixRecord 0 0 tile code (codeOffset (← get).cur))

/-! ## Descriptors (R194) -/

structure OperandDesc where
  rot : Nat
  tilePitch : Nat
  rowPitch : Nat
  base : Nat
  deriving DecidableEq, Repr

def operandDesc (w : DWord) : OperandDesc :=
  ⟨(w.extractLsb' 48 6).toNat, (w.extractLsb' 32 16).toNat, (w.extractLsb' 22 10).toNat, (w.extractLsb' 0 22).toNat⟩

/-- ChunkAddress. -/
def OperandDesc.chunk (d : OperandDesc) (p m : Nat) : Nat :=
  d.base + p * 16 * d.tilePitch + (m + p * d.rot) % 64 * 16 * d.rowPitch

/-- The scale byte of row m of panel p. -/
def OperandDesc.scale (d : OperandDesc) (p m : Nat) : Nat := d.base + p * 16 * d.tilePitch + 64 * 16 * d.rowPitch + m

/-- The byte after the last one that `panels` panels of chunks of n bytes read. -/
def OperandDesc.top (d : OperandDesc) (panels n : Nat) (scales : Bool) : Nat :=
  let last := (panels - 1) * 16 * d.tilePitch
  if panels = 0 then 0
  else max (d.base + last + 63 * 16 * d.rowPitch + n) (if scales then d.base + last + 64 * 16 * d.rowPitch + 64 else 0)

/-- Bits of an element of a matrix format. -/
def elementBits (fmt : Nat) : Nat := if fmt = 6 then 4 else if fmt = 2 ∨ fmt = 3 then 16 else 8

/-- Bytes before the elements of a sparse chunk (R198). -/
def sparseHead (fmt : Nat) : Nat := if fmt = 6 then 10 else 8

/-- The longest sparse chunk of a format: all 64 elements present. -/
def sparseLongest (fmt : Nat) : Nat := sparseHead fmt + 64 * elementBits fmt / 8

/-- Malformed: CODE 2. -/
def descBad (w : DWord) : Bool := w.extractLsb' 54 10 != 0#10 || w.extractLsb' 0 4 != 0#4 || w.extractLsb' 22 10 == 0#10

/-- K-step of a format (03 R106). -/
def kStep (fmt : Nat) : Nat := if fmt = 6 then 32 else if fmt = 2 ∨ fmt = 3 then 8 else 16

/-- The key at which a gang's cluster-store allotment begins, and its bytes. -/
def gangStore (b : Band) (gang : Nat) : Option (Nat × Nat) :=
  (b.places[gang]?).map (fun p => (clusterKey b.die p.cluster p.storeBase, b.packet.clusterBytes))

/-- The gang's allotment as the issuing thread sees it. -/
def ownStore : Act (Nat × Nat) := do
  let b ← getBand
  return (gangStore b (← get).cur.fid.gang).getD (0, 0)

/-! ## Issue (R196) -/

def enqueue (q : MatrixCmd) : Act Unit := do
  let c ← getCore
  waitIf (decide (16 ≤ c.queue.length))
  modCore (← get).cur.pos (fun c => { c with queue := c.queue ++ [q] })

/-- MMA, MMAS and MMAR. -/
def mmaBody (kind : MatrixKind) (f : Ext) : Act Unit := do
  let a ← readData f.a f.ta
  let b ← readData f.b f.tb
  let t := (← get).cur
  let c ← getCore
  let n := f.d.toNat
  let fmt := f.fmt.toNat
  let k := f.imm.toNat % 2 ^ 20
  let zero := f.imm.getLsbD 20
  let sparse := kind == .mmas
  let mode := kind == .mmar
  let group := if sparse then 64 else kStep fmt
  if k = 0 ∨ k % group ≠ 0 then matrixTrap n 1
  let store ← ownStore
  let check (w : DWord) (sp : Bool) : Act Unit := do
    let d := operandDesc w
    if descBad w then matrixTrap n 2
    let top := if sp then d.top (k / 64) (min (16 * d.rowPitch) (sparseLongest fmt)) false
      else d.top (k / kStep fmt) 16 (fmt == 6)
    if store.2 < top then matrixTrap n 3
  check a sparse
  check b false
  if joinedTo (projectedMode c) n ∨ (mode ∧ unpaired t.allotw n) then matrixTrap n 4
  if zero = false ∧ projectedMode c n ≠ mode then matrixTrap n 4
  enqueue ⟨kind, n, f.fmt, a, b, k, zero, mode, t.fid, codeOffset t, 0, []⟩

/-- MZERO (R200). -/
def mzeroBody (f : Ext) : Act Unit := do
  let t := (← get).cur
  let c ← getCore
  let n := f.d.toNat
  let mode := f.imm.getLsbD 0
  if joinedTo (projectedMode c) n ∨ (mode ∧ unpaired t.allotw n) then matrixTrap n 4
  enqueue ⟨.mzero, n, 0#4, 0#64, 0#64, 0, true, mode, t.fid, codeOffset t, 0, []⟩

/-! ## K-steps (03 R106 to R109, R111) -/

/-- An exact sum in the making: NaN, infinities, the finite part, and whether every addend so far is −0. -/
structure ExactSum where
  nan : Bool
  posInf : Bool
  negInf : Bool
  sum : Dyadic
  negZero : Bool
  deriving DecidableEq, Repr

def ExactSum.start : ExactSum := ⟨false, false, false, ⟨0, 0⟩, true⟩

def ExactSum.add (x : ExactSum) (v : FpVal) : ExactSum :=
  match v with
  | .nan _ _ => { x with nan := true }
  | .inf true => { x with negInf := true, negZero := false }
  | .inf false => { x with posInf := true, negZero := false }
  | .fin s m e => { x with sum := Dyadic.add x.sum (.ofFin s m e), negZero := x.negZero && m == 0 && s }

/-- The exact product of two values; 0 · ∞ is a NaN. -/
def exactMul (a b : FpVal) : FpVal :=
  match a, b with
  | .nan s f, _ => .nan s f
  | _, .nan s f => .nan s f
  | .inf s, .inf t => .inf (s != t)
  | .inf s, .fin t n _ => if n = 0 then .nan false 0 else .inf (s != t)
  | .fin s m _, .inf t => if m = 0 then .nan false 0 else .inf (s != t)
  | .fin s m e, .fin t n g => .fin (s != t) (m * n) (e + g)

/-- A rounding into an FP32 accumulator: the code, and INEXACT, OVERFLOW and UNDERFLOW (R108). -/
def ExactSum.round (x : ExactSum) : Nat × Bool × Bool × Bool :=
  let fp := Fp.ofFmt 1
  if x.nan || (x.posInf && x.negInf) then (0x7FC00000, false, false, false)
  else if x.posInf || x.negInf then (fp.signBit x.negInf + fp.infCode, false, false, false)
  else if x.sum.m = 0 then (fp.signBit x.negZero, false, false, false)
  else
    let neg := decide (x.sum.m < 0)
    let r := fp.roundArith .rne 0 neg x.sum.m.natAbs x.sum.e false
    let mag := r.1 % 2 ^ 31
    if mag ≠ 0 ∧ mag < 2 ^ 23 then (fp.signBit neg, true, false, true)
    else (r.1, r.2.getLsbD 4, r.2.getLsbD 2, false)

/-- The product of two I8 codes. -/
def i8Product (a b : Nat) : Int := intValue 7 a * intValue 7 b

/-- The exact product of two operand codes.  An integer product that is zero has no negative sign (R106, R108). -/
def matrixProduct (fmt a b : Nat) : FpVal :=
  if fmt = 7 then .fin (decide (i8Product a b < 0)) (i8Product a b).natAbs 0
  else exactMul (numValue fmt a) (numValue fmt b)

/-- One accumulator's K-step: the present products, scaled. -/
def accStep (acc : Nat) (terms : List FpVal) (scale : Int) (nan : Bool) : Nat × Bool × Bool × Bool :=
  let scaled (v : FpVal) : FpVal := match v with | .fin s m e => .fin s m (e + scale) | v => v
  let x := terms.foldl (fun x v => x.add (scaled v)) (ExactSum.start.add ((Fp.ofFmt 1).decode acc))
  ({ x with nan := x.nan || nan } : ExactSum).round

/-- One operand row of a K-step: the code at each K index that is present, its scale byte, and whether a byte of it is
poisoned. -/
structure OperandRow where
  codes : List (Option Nat)
  scale : Nat
  poisoned : Bool
  deriving DecidableEq, Repr

/-- Element i of w bits in packed bytes. -/
def packedElement (w i : Nat) (bs : List Byte) : Nat := bytesNat bs / 2 ^ (w * i) % 2 ^ w

def storePoison (m : Memory) (k n : Nat) : Bool := (m.firstPoison k n).isSome

/-- Row m of panel p of a dense operand. -/
def denseRow (s : Memory) (store : Nat) (d : OperandDesc) (fmt p m : Nat) : OperandRow :=
  let w := elementBits fmt
  let k := store + d.chunk p m
  let bs := s.bytes k 16
  let sk := store + d.scale p m
  { codes := (List.range (kStep fmt)).map (fun i => some (packedElement w i bs))
    scale := if fmt = 6 then bytesNat (s.bytes sk 1) else 127
    poisoned := storePoison s k 16 || (fmt == 6 && storePoison s sk 1) }

def popCount (n : Nat) : Nat := ((List.range (bitLen n)).filter (n.testBit ·)).length

/-- Length of a sparse chunk with a bitmap (R198). -/
def sparseLength (fmt bitmap : Nat) : Nat := sparseHead fmt + (popCount bitmap * elementBits fmt + 7) / 8

/-- Row m's chunk of the group of K-step p, and whether an element or scale of it is poisoned. -/
def sparseChunk (s : Memory) (store : Nat) (d : OperandDesc) (fmt p m : Nat) : List Byte × Bool :=
  let k := store + d.chunk (p * kStep fmt / 64) m
  let n := sparseLength fmt (bytesNat (s.bytes k 8))
  (s.bytes k n, storePoison s (k + 8) (n - 8))

/-- The row that a chunk gives to K-step p. -/
def sparseRow (chunk : List Byte × Bool) (fmt p : Nat) : OperandRow :=
  let w := elementBits fmt
  let per := kStep fmt
  let bitmap := bytesNat (chunk.1.take 8)
  let bs := chunk.1.drop (sparseHead fmt)
  let first := p * per % 64
  { codes := (List.range per).map (fun i =>
      if bitmap.testBit (first + i) then some (packedElement w (popCount (bitmap % 2 ^ (first + i))) bs) else none)
    scale := if fmt = 6 then (chunk.1.getD (8 + first / 32) 0#8).toNat else 127
    poisoned := chunk.2 }

/-- K-step p is the first of its group. -/
def startsGroup (fmt p : Nat) : Bool := p * kStep fmt % 64 == 0

/-- An MMAS reads a group's chunks once (R207). -/
def readGroup (s : Memory) (store : Nat) (q : MatrixCmd) : MatrixCmd :=
  if q.kind == .mmas && startsGroup q.fmt.toNat q.step then
    { q with chunks := (List.range 64).map (sparseChunk s store (operandDesc q.aDesc) q.fmt.toNat q.step) }
  else q

/-- The 64 rows of A in a K-step. -/
def rowsA (s : Memory) (store : Nat) (q : MatrixCmd) : List OperandRow :=
  (List.range 64).map (fun r =>
    if q.kind == .mmas then sparseRow (q.chunks.getD r ([], false)) q.fmt.toNat q.step
    else denseRow s store (operandDesc q.aDesc) q.fmt.toNat q.step r)

/-- The 64 columns of B in a K-step. -/
def rowsB (s : Memory) (store : Nat) (q : MatrixCmd) : List OperandRow :=
  (List.range 64).map (denseRow s store (operandDesc q.bDesc) q.fmt.toNat q.step)

/-- What stops an MMAS before the group of K-step p: a poisoned bitmap (0x12) or an overrun (0x11); of several rows, the lowest
tells.  DESIGN CHOICE: notes/assumptions/21.md. -/
def sparseFault (s : Memory) (store : Nat) (d : OperandDesc) (fmt p : Nat) : Option Nat :=
  if !(startsGroup fmt p) then none
  else
    let g := p * kStep fmt / 64
    let row (m : Nat) : Option Nat :=
      let k := store + d.chunk g m
      if storePoison s k 8 then some 0x12
      else if 16 * d.rowPitch < sparseLength fmt (bytesNat (s.bytes k 8)) then some 0x11 else none
    (List.range 64).findSome? row

/-- The pairs of a row and a column that are both present. -/
def presentPairs (a b : OperandRow) : List (Nat × Nat) :=
  (a.codes.zip b.codes).filterMap (fun p => match p with | (some x, some y) => some (x, y) | _ => none)

/-- One K-step on a tile.  A block scale 0xFF makes a NaN step (R109) also where every element that it scales faces an absent
one.  DESIGN CHOICE: notes/assumptions/21.md. -/
def tileStep (fmt : Nat) (t : Tile) (as bs : List OperandRow) : Tile :=
  let none' : OperandRow := ⟨[], 127, false⟩
  let cell (i : Nat) : Nat × Bool × Bool × Bool :=
    let a := as.getD (i / 64) none'
    let b := bs.getD (i % 64) none'
    let ps := presentPairs a b
    if t.mode then
      (rnsAdd (t.get i) (rnsOfInt (ps.foldl (fun x p => x + i8Product p.1 p.2) 0)), false, false, false)
    else
      accStep (t.get i) (ps.map (fun p => matrixProduct fmt p.1 p.2))
        ((a.scale : Int) - 127 + (b.scale : Int) - 127) (fmt == 6 && (a.scale == 0xFF || b.scale == 0xFF))
  let rs := (List.range 4096).map cell
  { t with
    acc := rs.map (fun r => BitVec.ofNat 64 r.1)
    poison := t.poison || as.any (·.poisoned) || bs.any (·.poisoned)
    inexact := t.inexact || rs.any (fun r => r.2.1)
    overflow := t.overflow || rs.any (fun r => r.2.2.1)
    underflow := t.underflow || rs.any (fun r => r.2.2.2) }

/-- Record a fault on a tile (R205). -/
def recordTileFault (q : MatrixCmd) (cause : Nat) (c : CoreState) : CoreState :=
  { c with
    queue := c.queue.drop 1
    tiles := c.tiles.modify q.tile (fun t => { t with fault := some ⟨cause, q.step, 0, q.offset, [q.issuer]⟩ }) }

/-- Skip a command that names a faulted tile. -/
def skipCommand (q : MatrixCmd) (r : TileFault) (c : CoreState) : CoreState :=
  { c with
    queue := c.queue.drop 1
    tiles := c.tiles.modify q.tile (fun t =>
      { t with fault := some { r with skipped := r.skipped + 1, issuers := r.issuers ++ [q.issuer] } }) }

/-- The bytes of the store that a K-step of a command reads: keys and sizes. -/
def stepReads (store : Nat) (q : MatrixCmd) : List (Nat × Nat) :=
  let fmt := q.fmt.toNat
  let dense (d : OperandDesc) : List (Nat × Nat) :=
    (List.range 64).map (fun r => (store + d.chunk q.step r, 16)) ++
      if fmt = 6 then [(store + d.scale q.step 0, 64)] else []
  let a := operandDesc q.aDesc
  (if q.kind == .mmas then
    if startsGroup fmt q.step then
      (List.range 64).map (fun r =>
        (store + a.chunk (q.step * kStep fmt / 64) r, min (16 * a.rowPitch) (sparseLongest fmt)))
    else []
  else dense a) ++ dense (operandDesc q.bDesc)

/-- Run up to n K-steps of the oldest command of a core; it leaves the queue when it is complete.  A K-step that would read a
line which a copy owns waits (05 R168).  DEDUCED: notes/assumptions/21.md. -/
def grantSteps (m : Memory) (owned : Nat → Nat → Bool) (store : Nat) : Nat → CoreState → CoreState
  | n, c =>
    match c.queue with
    | [] => c
    | q :: rest =>
      match (tileAt c q.tile).fault with
      | some r => skipCommand q r c
      | none =>
        let c := if q.step = 0 ∧ q.zero then zeroTile q.mode q.tile c else c
        let total := q.k / kStep q.fmt.toNat
        if total ≤ q.step then { c with queue := rest }
        else
          match n with
          | 0 => c
          | n' + 1 =>
            if (stepReads store q).any (fun r => owned r.1 r.2) then c else
            let fmt := q.fmt.toNat
            match if q.kind == .mmas then sparseFault m store (operandDesc q.aDesc) fmt q.step else none with
            | some cause => recordTileFault q cause c
            | none =>
              let q := readGroup m store q
              let c := { c with tiles := c.tiles.set q.tile (tileStep fmt (tileAt c q.tile) (rowsA m store q) (rowsB m store q)) }
              if q.step + 1 = total then { c with queue := rest }
              else grantSteps m owned store n' { c with queue := { q with step := q.step + 1 } :: rest }

/-- K-steps of its oldest command that took a core from c to c'; a command that is gone has done the rest. -/
def stepsDone (c c' : CoreState) : Nat :=
  match c.queue.head? with
  | none => 0
  | some q =>
    let stop := match c'.queue.head? with
      | some q' => if c'.queue.length = c.queue.length then q'.step else q.k / kStep q.fmt.toNat
      | none => q.k / kStep q.fmt.toNat
    stop - q.step

/-- What the K-steps that took a core from c to c' read, at most n of them. -/
def grantReads (store n : Nat) (c c' : CoreState) : List (Nat × Nat) :=
  match c.queue.head? with
  | none => []
  | some q =>
    if (tileAt c q.tile).fault.isSome then []
    else (List.range (min n (stepsDone c c'))).flatMap (fun i => stepReads store { q with step := q.step + i })

/-! ## Grants (09 R270) -/

/-- A core of a cluster whose queue holds a command, and whose band runs. -/
def grantable (s : State) (die cluster : Nat) (c : CoreState) : Bool :=
  !c.pos.lupin && c.pos.die == die && c.pos.cluster == cluster && c.queue != [] &&
    (match findBand s c.band with
     | some b => b.state == .running || b.state == .draining
     | none => false)

def weightOf (s : State) (c : CoreState) : Int :=
  match findBand s c.band with
  | some b => (b.packet.weight : Int)
  | none => 0

/-- The eligible core with the largest current value; ties go to the lower core number.  DEDUCED: notes/assumptions/21.md. -/
def pickCore (cs : List CoreState) : Option CoreState :=
  cs.foldl (fun best c =>
    match best with
    | none => some c
    | some x => if x.arbiter < c.arbiter ∨ (x.arbiter = c.arbiter ∧ c.pos.core < x.pos.core) then some c else some x) none

/-- The arbiter's choice: the eligible cores' values rise by their weights, and the chosen core's falls by their sum; it is
granted 16 K-steps. -/
def arbitrate (die cluster : Nat) (s : State) : Option CoreState × List CoreState :=
  let raised := s.cores.map (fun c => if grantable s die cluster c then { c with arbiter := c.arbiter + weightOf s c } else c)
  let eligible := raised.filter (grantable s die cluster)
  let total := (eligible.map (weightOf s)).foldl (· + ·) 0
  ((pickCore eligible).map (fun c => { c with arbiter := c.arbiter - total, grant := 16 }), raised)

/-- The grant of a cluster's unit that is in progress, or a new one. -/
def grantOf (die cluster : Nat) (s : State) : Option CoreState × List CoreState :=
  match s.cores.find? (fun c => grantable s die cluster c && c.grant != 0) with
  | some c => (some c, s.cores)
  | none => arbitrate die cluster s

/-- Run up to n K-steps of a core's grant: what is left of it, unless its command is over. -/
def runGrant (m : Memory) (owned : Nat → Nat → Bool) (store n : Nat) (c : CoreState) : CoreState :=
  let c' := grantSteps m owned store n c
  let c' := { c' with grant := if c'.queue.length = c.queue.length then c.grant - stepsDone c c' else 0 }
  if c'.queue = [] then { c' with arbiter := 0 } else c'

/-- MATRIX_GRANT (R270): the grant of a cluster's matrix unit goes on, or the arbiter makes the next one: up to 16 K-steps of one
command, of which some are done before anything else happens.  DEDUCED: notes/assumptions/21.md. -/
def execMatrixGrant (die cluster : Nat) : State → Out := whileClocked (fun s =>
  match grantOf die cluster s with
  | (none, _) => .next s
  | (some c, cores) =>
    match (findBand s c.band).bind (fun b => gangStore b c.gang) with
    | none => .fault .danglingRecord
    | some store =>
      let (k, s) := pick c.grant s
      let c' := runGrant s.mem (copyOwned s none) store.1 (k + 1) c
      .next { s with
        mem := (grantReads store.1 (k + 1) c c').foldl (fun m r => m.pullStore die (.core c.pos) r.1 r.2) s.mem
        cores := cores.map (fun x => if x.pos = c.pos then c' else x) })

/-! ## Reports (R204, R205) -/

/-- A joined name stands for the name it is joined to in MWAIT and MQSTAT (01 R30). -/
def actsOn (c : CoreState) (n : Nat) : Nat := if joinedTo (fun i => (tileAt c i).mode) n then n - 1 else n

def tileQueued (c : CoreState) (n : Nat) : Nat := (c.queue.filter (fun q => q.tile == n)).length

/-- Report the fault recorded on a tile; the report clears it. -/
def reportTile (n : Nat) : Act Unit := do
  let s ← get
  let c ← getCore
  match (tileAt c n).fault with
  | some r => reportTrap r.cause (matrixRecord r.kstep r.skipped n 0 r.offset) (fun s' =>
      { s' with cores := s'.cores.map (fun x =>
          if x.pos = coreOf s.cur.pos then { x with tiles := x.tiles.modify n (fun t => { t with fault := none }) } else x) })
  | none => pure ()

/-- The wait of R193, then the report of R205, then the refusal of a joined name. -/
def tileTransfer (n : Nat) : Act CoreState := do
  let c ← getCore
  waitIf (c.queue.any (fun q => q.tile == n))
  reportTile n
  if joinedTo (fun i => (tileAt c i).mode) n then matrixTrap n 4
  return c

/-- A command that enters the queue while MWAIT waits is waited for too.  DESIGN CHOICE: notes/assumptions/21.md. -/
def mwaitBody (f : Ext) : Act Unit := do
  let c ← getCore
  let n := actsOn c f.a.toNat
  waitIf (decide (0 < tileQueued c n))
  reportTile n

def mqstatBody (f : Ext) : Act Unit := do
  let c ← getCore
  let n := actsOn c f.a.toNat
  let t := tileAt c n
  let fault := match t.fault with | some r => r.cause | none => 0
  writeData f.d (w64 (tileQueued c n * 2 ^ 16 + fault * 2 ^ 8 + t.status))

/-! ## Several elements of memory (06 R191) -/

/-- Every address is checked before the first element is written; then the elements are written in order. -/
def storeElements (c : TCap) (xs : List (Nat × List Byte)) : Act Unit := do
  let a ← curAgent
  let ps ← xs.mapM (fun x => reach a x.1 x.2.length .write true (capHas c.val permFMTW))
  let _ ← (ps.zip xs).mapM (fun y => writePlace a y.1 y.2.1 y.2.2 false none)

/-- Load elements in order. -/
def loadElements (xs : List Nat) (size : Nat) : Act (List (List Byte)) := do
  let a ← curAgent
  let ps ← xs.mapM (fun x => reach a x size .read false false)
  let rs ← (ps.zip xs).mapM (fun y => readPlace a y.1 y.2 size)
  return rs.map (·.1)

/-! ## Tile transfers -/

/-- The addresses of 64 rows of 64 elements. -/
def tileAddresses (base pitch size : Nat) : List Nat :=
  (List.range 4096).map (fun i => (base + i / 64 * pitch + i % 64 * size) % 2 ^ 64)

/-- The checks of a tile's memory: PITCH, Deref, alignment (R201). -/
def tileRange (c : TCap) (n pitch size : Nat) (perm : Nat) : Act Unit := do
  if pitch < 64 * size ∨ pitch % size ≠ 0 then matrixTrap n 5
  let addr := capAddr c.val
  deref c addr (63 * pitch + 64 * size) [perm]
  trapIf (addr % size != 0) 0x08 (w64 addr)

/-- The tensor scales: g0 means 1.0 and 1.0. -/
def tensorScales (f : Ext) : Act (Nat × Nat) := do
  let b ← readData f.b f.tb
  return if f.b = 0#6 then (0x3F800000, 0x3F800000) else (b.toNat % 2 ^ 32, b.toNat / 2 ^ 32)

/-- The exact product acc · scale_a · scale_b, with the flags of forming it; NaNs in the order acc, scale_a, scale_b
(03 R110). -/
def tripleProduct (acc : FpVal) (accSignals : Bool) (sa sb : Nat) : FpVal × Flags :=
  let fp := Fp.ofFmt 1
  match acc with
  | .nan s f => (.nan s f, if accSignals then Flags.invalid else Flags.none)
  | _ =>
    match fp.decode sa, fp.decode sb with
    | .nan s f, _ => (.nan s f, if fp.signalling sa then Flags.invalid else Flags.none)
    | _, .nan s f => (.nan s f, if fp.signalling sb then Flags.invalid else Flags.none)
    | a, b =>
      match exactMul (exactMul acc a) b with
      | .nan _ _ =>
        (match fp.decode fp.defaultNan with | .nan s f => .nan s f | v => v, Flags.invalid)
      | v => (v, Flags.none)

/-- One result of MRD: its code and flags, or a range error and whether the source was a NaN. -/
def mrdElement (t : Tile) (fmt : Nat) (rm : Rm) (sat : Bool) (draw i sa sb : Nat) : Except Bool (Nat × Flags) :=
  let fp := Fp.ofFmt 1
  if t.mode ∧ fmt = 13 then .ok (ofInt 64 (rnsToInt (t.get i)), Flags.none)
  else
    let code := t.get i
    let v : FpVal × Flags :=
      if t.mode then
        let x := rnsToInt code
        tripleProduct (.fin (decide (x < 0)) x.natAbs 0) false sa sb
      else tripleProduct (fp.decode code) (fp.signalling code) sa sb
    match convertValue 1 fmt rm sat draw v.1 with
    | some r => .ok (r.1, r.2 ||| v.2)
    | none => .error v.1.isNan

/-- The results in row-major order, or the first range error. -/
def mrdAll (one : Nat → Except Bool (Nat × Flags)) : Except (Nat × Bool) (List (Nat × Flags)) :=
  (List.range 4096).foldr (fun i rest =>
    match one i with
    | .error nan => .error (i, nan)
    | .ok r => match rest with | .error e => .error e | .ok rs => .ok (r :: rs)) (.ok [])

/-- MRD (R201); what the tile's mode does not accept is tested after the wait and before PITCH.  DESIGN CHOICE:
notes/assumptions/21.md. -/
def mrdBody (f : Ext) : Act Unit := do
  let a ← readG f.a f.ta
  let sc ← tensorScales f
  let n := f.d.toNat
  let c ← tileTransfer n
  let t := tileAt c n
  let fmt := f.fmt.toNat
  let size := fmtBits fmt / 8
  if t.mode ∧ (2 ≤ fmt ∧ fmt ≠ 13 ∨ fmt = 13 ∧ f.b ≠ 0#6) then matrixTrap n 6
  let pitch := f.imm.toNat % 2 ^ 20
  tileRange a n pitch size permST
  if t.poison then trap 0x12 (matrixRecord 0 0 n 0 (codeOffset (← get).cur))
  let draws ← takeDraws f.rm 4096
  let rs := mrdAll (fun i => mrdElement t fmt (Rm.ofCode f.rm.toNat) (f.imm.getLsbD 20) (draws.getD i 0) i sc.1 sc.2)
  match rs with
  | .error (i, nan) => trap 0x0C (w64 ((if nan then 2 ^ 28 else 0) + fmt * 2 ^ 24 + (if t.mode then 14 else 1) * 2 ^ 16 + i))
  | .ok rs => do
    storeElements a ((tileAddresses (capAddr a.val) pitch size).zip (rs.map (fun r => natBytes size r.1)))
    orFlags (rs.foldl (fun x r => x ||| r.2) Flags.none)
    if f.imm.getLsbD 21 then modCore (← get).cur.pos (fun c => { c with tiles := c.tiles.modify n (Tile.cleared t.mode) })

/-- MWR (R202). -/
def mwrBody (f : Ext) : Act Unit := do
  let a ← readG f.a f.ta
  let n := f.d.toNat
  let _ ← tileTransfer n
  let mode := f.fmt == 14#4
  if mode ∧ unpaired (← get).cur.allotw n then matrixTrap n 4
  waitIf (mode && (← getCore).queue.any (fun q => q.tile == n + 1))
  let size := if mode then 8 else 4
  let pitch := f.imm.toNat % 2 ^ 20
  tileRange a n pitch size permLD
  let rows ← loadElements (tileAddresses (capAddr a.val) pitch size) size
  let codes := rows.map bytesNat
  let fp := Fp.ofFmt 1
  let subnormal (x : Nat) : Bool := !mode && x % 2 ^ 31 != 0 && decide (x % 2 ^ 31 < 2 ^ 23)
  let acc := codes.map (fun x =>
    BitVec.ofNat 64 (if mode then rnsAdd x 0 else if subnormal x then fp.signBit (x.testBit 31) else x))
  modCore (← get).cur.pos (fun c =>
    let c := zeroTile mode n c
    { c with tiles := c.tiles.modify n (fun t => { t with acc := acc, underflow := codes.any subnormal }) })

/-- The scale byte of a block of exact values, and their codes with flags (R203).  DEDUCED: notes/assumptions/20.md. -/
def requantise (rm : Rm) (draws : List Nat) (ys : List FpVal) : Nat × List (Nat × Flags) :=
  let special := ys.any (fun y => match y with | .fin _ _ _ => false | _ => true)
  if special then (0xFF, ys.map (fun _ => (0, Flags.none)))
  else
    let tops := ys.filterMap (fun y => match y with | .fin _ m e => if m = 0 then none else some (topExp m e) | _ => none)
    let scale : Nat := match tops with
      | [] => 127
      | t :: ts => (min (max (ts.foldl max t - 2 + 127) 0) 254).toNat
    (scale, (ys.zip draws).map (fun p =>
      match p.1 with
      | .fin s m e =>
        (match convertValue 1 6 rm true p.2 (.fin s m (e - ((scale : Int) - 127))) with | some r => r | none => (0, Flags.none))
      | _ => (0, Flags.none)))

/-- MRQT (R203): the mode is tested first, then the descriptor, then poison.  DEDUCED: notes/assumptions/20.md; DESIGN CHOICE:
notes/assumptions/21.md. -/
def mrqtBody (f : Ext) : Act Unit := do
  let a ← readData f.a f.ta
  let sc ← tensorScales f
  let n := f.d.toNat
  let c ← tileTransfer n
  let t := tileAt c n
  if t.mode then matrixTrap n 6
  let d := operandDesc a
  if descBad a then matrixTrap n 2
  let store ← ownStore
  if store.2 < d.top 2 16 true then matrixTrap n 3
  if t.poison then trap 0x12 (matrixRecord 0 0 n 0 (codeOffset (← get).cur))
  let draws ← takeDraws f.rm 4096
  let trans := f.imm.getLsbD 0
  let fp := Fp.ofFmt 1
  let index (m k : Nat) : Nat := if trans then k * 64 + m else m * 64 + k
  let y (i : Nat) : FpVal × Flags := tripleProduct (fp.decode (t.get i)) (fp.signalling (t.get i)) sc.1 sc.2
  let block (p m : Nat) : Nat × List (Nat × Flags) :=
    let is := (List.range 32).map (fun k => index m (32 * p + k))
    requantise (Rm.ofCode f.rm.toNat) (is.map (fun i => draws.getD i 0)) (is.map (fun i => (y i).1))
  let blocks := (List.range 2).flatMap (fun p => (List.range 64).map (fun m => (p, m, block p m)))
  let agent ← curAgent
  let _ ← blocks.mapM (fun b => do
    let (p, m, r) := b
    let codes := r.2.map (·.1)
    let bytes := (List.range 16).map (fun i => BitVec.ofNat 8 (codes.getD (2 * i) 0 + 16 * codes.getD (2 * i + 1) 0))
    awaitCopies agent (store.1 + d.chunk p m) 16
    awaitCopies agent (store.1 + d.scale p m) 1
    writePlace agent (.bytes (store.1 + d.chunk p m) none) 0 bytes false none
    writePlace agent (.bytes (store.1 + d.scale p m) none) 0 [BitVec.ofNat 8 r.1] false none)
  let made := (List.range 4096).foldl (fun x i => x ||| (y i).2) Flags.none
  orFlags (blocks.foldl (fun x b => b.2.2.2.foldl (fun x r => x ||| r.2) x) made)

/-! ## Meanings -/

/-- MMA (R197). -/
def execMma (f : Ext) (s : State) : Out :=
  instr 0x2A#6 0x0#4 f (mmaBody .mma f) s

/-- MMAS (R198). -/
def execMmas (f : Ext) (s : State) : Out :=
  instr 0x2A#6 0x1#4 f (mmaBody .mmas f) s

/-- MMAR (R199). -/
def execMmar (f : Ext) (s : State) : Out :=
  instr 0x2A#6 0x2#4 f (mmaBody .mmar f) s

/-- MZERO (R200). -/
def execMzero (f : Ext) (s : State) : Out :=
  instr 0x2A#6 0x3#4 f (mzeroBody f) s

/-- MRD (R201). -/
def execMrd (f : Ext) (s : State) : Out :=
  instr 0x2A#6 0x4#4 f (mrdBody f) s

/-- MWR (R202). -/
def execMwr (f : Ext) (s : State) : Out :=
  instr 0x2A#6 0x5#4 f (mwrBody f) s

/-- MRQT (R203). -/
def execMrqt (f : Ext) (s : State) : Out :=
  instr 0x2A#6 0x6#4 f (mrqtBody f) s

/-- MWAIT (R204). -/
def execMwait (f : Base) (s : State) : Out :=
  instr 0x2B#6 0x0#4 f.ext (mwaitBody f.ext) s

/-- MWAIT_EXT (R204). -/
def execMwaitExt (f : Ext) (s : State) : Out :=
  instr 0x2B#6 0x0#4 f (mwaitBody f) s

/-- MQSTAT (R204). -/
def execMqstat (f : Base) (s : State) : Out :=
  instr 0x2B#6 0x1#4 f.ext (mqstatBody f.ext) s

/-- MQSTAT_EXT (R204). -/
def execMqstatExt (f : Ext) (s : State) : Out :=
  instr 0x2B#6 0x1#4 f (mqstatBody f) s

end Sys2Proof.Machine
end

