-- ==== Sys2Proof/Machine/Copies.lean ====
section
/-!
DEFINITION. Machine/Copies.lean: the copy channels (05 R163 to R168, R170), their completion instructions and packets, and fences
(05 R158, R159).
-/

namespace Sys2Proof.Machine

/-! ## Requests (R163, R164) -/

/-- Elements that a stream still has (05 R164): its own nest, times what its index stream has left.  DEDUCED: notes/assumptions/15.md. -/
def streamLeft : List Slot → Nat
  | [] => 0
  | x :: rest =>
    let r := x.record
    let n := r.nest
    let at' := ((x.i3 * r.count2.toNat + x.i2) * r.count1.toNat + x.i1) * r.count0.toNat + x.i0
    if !x.active then 0
    else if r.ind then (if x.index.isSome then n - at' else 0) + streamLeft rest * n
    else n - at'

/-- The address with its gang or core form resolved against the issuing band; any other address as it is (08 R242).
DEDUCED: notes/assumptions/18.md. -/
def absoluteAddress (addr : Nat) : Act DWord := do
  let s ← get
  if addr / 2 ^ 50 = s.dev.number ∧ addr % 2 ^ 50 / 2 ^ 39 = 0x7FE then
    match resolveAperture s (ctxOf s.cur) (formBand s s.cur) none addr 1 with
    | .ok (.bytes k _) => return w64 (s.dev.number * 2 ^ 50 + k)
    | .ok _ => trap 0x06 (w64 addr)
    | .error e => trap e (w64 addr)
  else return w64 addr

/-- An issue trap of R164: the copy record with ID, POSITION and INNER zero (13 R350). -/
def copyTrap {α : Type} (channel : Nat) : Act α := trap 0x14 (w64 channel)

/-- The address names a byte of a core store or cluster store (08 R242). -/
def inStores (addr : DWord) : Bool :=
  let a := addr.toNat % 2 ^ 50
  a / 2 ^ 39 == 0x7FF && a / 2 ^ 30 % 2 ^ 8 == 0 &&
    (if a / 2 ^ 38 % 2 = 0 then decide (a % 2 ^ 22 < 0x300000) else a / 2 ^ 27 % 2 == 0 && decide (a % 2 ^ 18 < 0x30000))

/-- A store of the issuing core is the destination. -/
def isOwnStore (s : State) (addr : DWord) : Bool :=
  addr.toNat / 2 ^ 50 == s.dev.number && keyIsCore (addr.toNat % 2 ^ 50) &&
    coreOf (ownerOfKey s.mem (addr.toNat % 2 ^ 50)) == coreOf s.cur.pos

/-- The FIFO of 16 requests or the scoreboard of 16 entries has no room (R163, R164). -/
def copyFull (c : CoreState) (own : Bool) : Bool :=
  let xs := c.channels.flatMap (·.live)
  decide (16 ≤ (xs.filter (fun x => !x.started)).length) || (own && decide (16 ≤ (xs.filter (·.ownStore)).length))

/-- Push a request: it takes the channel's next identifier; an empty one retires at once. -/
def pushXfer (channel : Nat) (d : BitVec 6) (tests : Bool) (make : Nat → Nat → Xfer) : Act Unit := do
  let s ← get
  let c ← getCore
  let ch := c.channels.getD channel ⟨2, none, [], [], none⟩
  let id := ch.nextId
  let x := make id s.nextId
  if copyFull c x.ownStore then
    if tests then writeData d 1#64 else throw .wait
  else do
    let _ ← freshId
    let away := x.destAt.toNat / 2 ^ 50 ≠ s.dev.number
    modify (modChannel s.cur.pos channel (fun ch =>
      { ch with
        nextId := id + 1
        firstAway := if away then ch.firstAway.or (some id) else ch.firstAway
        live := if x.packets = 0 then ch.live else ch.live ++ [x] }))
    writeData d (w64 id)

/-- XCOPY and XCOPYT (R163, R164).  DEDUCED: notes/assumptions/15.md, notes/assumptions/18.md. -/
def xcopyBody (tests : Bool) (fn : BitVec 4) (f : Ext) : Act Unit := do
  let a ← readG f.a f.ta
  let w ← readB f
  let c ← readG f.c f.tc
  let s ← get
  let t := s.cur
  let kind := (f.imm.extractLsb' 12 4).toNat
  let tags := f.imm.getLsbD 10
  let bar := f.imm.getLsbD 9
  let land := f.imm.getLsbD 8
  let channel := (f.imm.extractLsb' 0 2).toNat
  let bad := w.getLsbD 63 || (!bar && w.extractLsb' 37 26 != 0#26) || (!land && w.extractLsb' 25 12 != 0#12) ||
    (kind == 2 && w.extractLsb' 3 22 != 0#22) || (kind != 0 && f.a != 0#6) || decide (2 < kind)
  trapIf bad 0x01 (illegalInfo 6 (baseWord 0x19#6 fn f))
  let slot := (w.extractLsb' 0 3).toNat
  if kind = 2 then readGood ((slotChain t 8 slot).map badSlot)
  let slots := if kind = 2 then (slotChain t 8 slot).map (slotAt t) else []
  let x := slotAt t slot
  if kind = 2 then
    check9If (!x.active || x.record.write) 0x19#6 fn f
    trapIf (!(capHas x.base permLD && capHas x.base permXFER)) 0x06 (capCursor x.base)
  let length := if kind = 2 then streamLeft slots * x.size else (w.extractLsb' 0 25).toNat
  if kind = 0 then deref a (capAddr a.val) length [permLD, permXFER]
  deref c (capAddr c.val) length [permST, permXFER]
  if 2 ^ 24 < length then copyTrap channel
  let bases ← slots.mapM (fun y => do return (y.base, ← absoluteAddress (capAddr y.base)))
  let sourceAt ← if kind = 0 then absoluteAddress (capAddr a.val) else pure 0#64
  let destAt ← absoluteAddress (capAddr c.val)
  if land ∧ !(inStores destAt) then copyTrap channel
  let die := (w.extractLsb' 61 2).toNat
  let cluster := (w.extractLsb' 55 6).toNat
  let off := (w.extractLsb' 37 18).toNat * 16
  let local' := destAt.toNat / 2 ^ 50 == s.dev.number
  if bar ∧ local' ∧ !(clusterAllotted s (ctxOf t) die cluster off 16) then copyTrap channel
  let carries := tags && capHas (if kind = 2 then x.base else a.val) permLDCAP && capHas c.val permSTCAP
  let det := (← getCtx).det
  pushXfer channel f.d tests (fun id seq =>
    { id := id
      seq := seq
      kind := kind
      issuer := t.fid
      writer := writerOf t
      det := det
      source := a.val
      dest := c.val
      sourceAt := sourceAt
      destAt := destAt
      length := length
      tags := carries
      land := if land then some (w.extractLsb' 25 12).toNat else none
      barrier := if bar && local' then some (clusterKey die cluster off) else none
      stream := slots
      bases := bases
      indexAt := 0#64
      esize := x.size
      count := 0
      started := false
      done := []
      landing := []
      pins := []
      cancelled := false
      ownStore := isOwnStore s destAt })

/-- XGATH (R170): the table is checked for each index, not at issue.  DEDUCED: notes/assumptions/18.md. -/
def xgathBody (f : Ext) : Act Unit := do
  let a ← readG f.a f.ta
  let b ← readG f.b f.tb
  let c ← readG f.c f.tc
  let s ← get
  let t := s.cur
  let esize := 2 ^ (f.imm.extractLsb' 28 4).toNat
  let channel := (f.imm.extractLsb' 26 2).toNat
  let count := (f.imm.extractLsb' 0 20).toNat
  trapIf (!a.tag) 0x04 (capCursor a.val)
  trapIf (capSealed a.val) 0x07 (capCursor a.val)
  trapIf (!(capHas a.val permLD && capHas a.val permXFER)) 0x06 (capCursor a.val)
  deref b (capAddr b.val) (4 * count) [permLD, permXFER]
  deref c (capAddr c.val) (count * esize) [permST, permXFER]
  let sourceAt ← absoluteAddress (capAddr a.val)
  let indexAt ← absoluteAddress (capAddr b.val)
  let destAt ← absoluteAddress (capAddr c.val)
  let det := (← getCtx).det
  pushXfer channel f.d false (fun id seq =>
    { id := id
      seq := seq
      kind := 3
      issuer := t.fid
      writer := writerOf t
      det := det
      source := a.val
      dest := c.val
      sourceAt := sourceAt
      destAt := destAt
      length := count * esize
      tags := false
      land := none
      barrier := none
      stream := []
      bases := []
      indexAt := indexAt
      esize := esize
      count := count
      started := false
      done := []
      landing := []
      pins := []
      cancelled := false
      ownStore := isOwnStore s destAt })

/-! ## Completion (R167) -/

def channelOf (s : State) (n : Nat) : Channel :=
  match findCore s s.cur.pos with
  | some c => c.channels.getD n ⟨2, none, [], [], none⟩
  | none => ⟨2, none, [], [], none⟩

/-- The copy record (13 R350). -/
def copyRecord (channel : Nat) (r : CopyFault) : DWord :=
  w64 (r.id % 2 ^ 24 * 2 ^ 40 + r.position % 2 ^ 20 * 2 ^ 20 + (if r.overflow then 2 ^ 19 else 0) + r.inner * 2 ^ 8 + channel)

/-- The report of a channel's record clears it, and with it every fault of the channel. -/
def clearFaults (core : Pos) (channel : Nat) : State → State :=
  modChannel core channel (fun ch => { ch with record := none, faulted := [] })

/-- Trap 0x14 with the record of a channel. -/
def reportChannel (channel : Nat) (r : CopyFault) : Act Unit := do
  let p := (← get).cur.pos
  reportTrap 0x14 (copyRecord channel r) (clearFaults p channel)

/-- The scope at which the completion of a channel's transfers up to one is an acquire (R167). -/
def Channel.acquireScope (c : Channel) (upTo : Nat) : Nat :=
  match c.firstAway with
  | some n => if n ≤ upTo then 4 else 3
  | none => 3

def xwaitBody (f : Ext) : Act Unit := do
  let b ← readData f.b f.tb
  let n := f.a.toNat
  let ch := channelOf (← get) n
  waitIf (decide (ch.done ≤ b.toNat))
  match ch.record with
  | some r => if ch.faulted.any (fun x => decide (x.1 ≤ b.toNat)) then reportChannel n r else pure ()
  | none => pure ()
  acquireOwn (ch.acquireScope b.toNat)

/-- STATE and inner cause of a transfer (R167). -/
def xferState (ch : Channel) (id : Nat) : Nat :=
  if id < 2 ∨ ch.nextId ≤ id then 4
  else if ch.live.any (·.id == id) then 1
  else
    match ch.faulted.find? (·.1 == id) with
    | some x => 2 + x.2 * 256
    | none => 0

def xstatBody (f : Ext) : Act Unit := do
  let b ← readData f.b f.tb
  writeData f.d (w64 (xferState (channelOf (← get) f.a.toNat) b.toNat))

def xcancelBody (f : Ext) : Act Unit := do
  let b ← readData f.b f.tb
  let p := (← get).cur.pos
  modify (modChannel p f.a.toNat (fun ch =>
    let live := ch.live.map (fun x => if x.id = b.toNat then { x with cancelled := true } else x)
    { ch with live := live.filter (fun x => !(x.cancelled && x.landing == [])) }))

/-! ## Packets (R165, R166) -/

/-- The band that an engine's agent resolves forms against: a loop's band holds no store (08 R242, 12 R326). -/
def bandOfWriter (s : State) (w : Writer) : Option Band :=
  match w with
  | .gang b _ => findBand s b
  | .loop _ => none
  | .foreign => none

/-- A loop firing's engine writes are checked as its own (12 R332). -/
def dutyOfIssuer (s : State) (w : Writer) (f : FiringId) : Duty :=
  match w with
  | .loop n =>
    match findLoop s n with
    | some l => .loop ⟨n, l.window.getD f.inst 0, f.inst, f.gang == 1, false, 0⟩
    | none => .idle
  | _ => .idle

/-- Ranges cut at 128-byte lines. -/
def lineCuts (addr size : Nat) : List (Nat × Nat) := (linesOf addr size).map (linePart addr size)

/-- A byte that a copy reads: its granule's poison, and, in a tagged granule, that granule and the place in it. -/
structure CopyByte where
  byte : Byte
  poisoned : Bool
  tagged : Option (Nat × Nat)
  deriving DecidableEq, Repr

/-- What an engine reads of n bytes at a key, with their granules' poison and tags. -/
def copyBytes (m : Memory) (e : Eye) (k n : Nat) : List CopyByte :=
  (if keyIsView k then (m.viewBytes e k n).getD [] else m.seenBytes e k n).mapIdx (fun i b =>
    (⟨b, (m.firstPoison (k + i) 1).isSome,
      if !(keyIsView k) && m.seenTag e ((k + i) / 16) then some ((k + i) / 16, (k + i) % 16) else none⟩ : CopyByte))

/-- Read a source range as the engine on a die sees it; poison is carried, not raised.  DEDUCED: notes/assumptions/18.md. -/
def engineRead (a : Agent) (addr size : Nat) : Act (List CopyByte) := do
  let parts ← (lineCuts addr size).mapM (fun r => do
    match ← reach a r.1 r.2 .read false false with
    | .bytes k _ => do
      modMem (·.readied a.eye k r.2)
      return copyBytes (← get).mem a.eye k r.2
    | .split ps => do
      modMem (fun m => ps.foldl (fun m x => m.readied a.eye x.1 x.2) m)
      let m := (← get).mem
      return ps.flatMap (fun x => copyBytes m a.eye x.1 x.2)
    | .remote _ => do
      let x ← fabricAnswer r.1 false
      return (natBytes r.2 x.data.toNat).map (fun b => (⟨b, x.poison.isSome, none⟩ : CopyByte))
    | .word _ => trap 0x06 (w64 r.1))
  return parts.flatten

/-- The elements of a stream from its snapshot on: skip n, then take the addresses of m. -/
def streamTake (a : Agent) : Nat → Nat → List Slot → Act (List Nat)
  | _, 0, _ => pure []
  | 0, m + 1, xs => do
    let (addr, xs) ← streamNext a xs
    let rest ← streamTake a 0 m xs
    return addr :: rest
  | n + 1, m + 1, xs => do
    let (_, xs) ← streamNext a xs
    streamTake a n (m + 1) xs

/-- The source of packet bytes at offsets [off, off + n) of a transfer, and the position a fault records: an element's
index, or else the packet. -/
def sourceBytes (a : Agent) (x : Xfer) (off n : Nat) : Act (List CopyByte) := do
  if x.kind = 0 then engineRead a (x.sourceAt.toNat + off) n
  else if x.kind = 1 then return List.replicate n ⟨0#8, false, none⟩
  else do
    let first := off / x.esize
    let count := (off + n - 1) / x.esize - first + 1
    let parts ←
      if x.kind = 2 then do
        let base := (x.stream.head?.getD Slot.inactive).base
        let addrs ← streamTake a first count x.stream
        addrs.mapM (fun addr => do
          derefAligned ⟨base, true⟩ addr x.esize [permLD]
          engineRead a (a.carried base addr) x.esize)
      else
        (List.range count).mapM (fun i => do
          let r ← engineRead a (x.indexAt.toNat + 4 * (first + i)) 4
          let off := bytesNat (r.map (·.byte)) * x.esize
          deref ⟨x.source, true⟩ (capAddr x.source + off) x.esize [permLD]
          engineRead a (x.sourceAt.toNat + off) x.esize)
    return (parts.flatten.drop (off - first * x.esize)).take n

/-- The number of elements whose source passes its checks, from the first of a packet on: the position of a fault. -/
def faultPosition (a : Agent) (x : Xfer) (packet off n : Nat) (s : State) : Nat :=
  if x.kind < 2 then packet
  else
    let first := off / x.esize
    let count := (off + n - 1) / x.esize - first + 1
    let ok (i : Nat) : Bool :=
      match sourceBytes a x ((first + i) * x.esize) x.esize s with
      | .ok _ => true
      | .error _ => false
    match (List.range count).find? (fun i => !(ok i)) with
    | some i => first + i
    | none => packet

/-- A granule whose 16 bytes come in order from one tagged granule. -/
def wholeTag (bs : List CopyByte) (k g : Nat) : Bool :=
  match (bs[16 * g - k]?).bind (·.tagged) with
  | some x => (List.range 16).all (fun i => (bs[16 * g + i - k]?).bind (·.tagged) == some (x.1, i))
  | none => false

/-- The poison and the tags that bytes bring to the granules at a key. -/
def carryMarks (tags : Bool) (k : Nat) (bs : List CopyByte) (m : Memory) : Memory :=
  let bad (g : Nat) : Bool := (bs.mapIdx (fun i b => b.poisoned && (k + i) / 16 == g)).any id
  let m := (granules k bs.length).foldl (fun m g => if bad g then m.setPoison g else m) m
  if keyIsView k || !tags then m
  else { m with tags := ((wholeGranules k bs.length).filter (wholeTag bs k)).foldl setAdd m.tags }

/-- Land bytes of a packet: the checks of a write, then the write with its poison and tags; another device acknowledges it
(R165, R169).  DEDUCED: notes/assumptions/18.md. -/
def engineWrite (a : Agent) (x : Xfer) (addr : Nat) (bs : List CopyByte) : Act Unit := do
  let _ ← (lineCuts addr bs.length).mapM (fun r => do
    let part := (bs.drop (r.1 - addr)).take r.2
    match ← reach a r.1 r.2 .write true (capHas x.dest permFMTW) with
    | .bytes k _ =>
      modify (performWrite a.die k (part.map (·.byte)) false a.issuer)
      modMem (carryMarks x.tags k part)
    | .split ps => do
      let _ ← (placeParts ps part).mapM (fun y => do
        modify (performWrite a.die y.1 (y.2.map (·.byte)) false a.issuer)
        modMem (carryMarks x.tags y.1 y.2))
    | .remote _ =>
      let _ ← fabricAnswer r.1 false
    | .word _ => trap 0x06 (w64 r.1))

/-- The packet as a message for the service thread of its destination (R166). -/
def landMessage (core : Pos) (channel packet : Nat) (x : Xfer) (handler : Nat) (bs : List CopyByte) (s : State) : InMsg :=
  let r := x.packetRange packet
  .land {
    ctx := x.issuer.ctx
    core := core
    channel := channel
    id := x.id
    packet := packet
    owner := ownerOfKey s.mem (r.1 % 2 ^ 50)
    handler := handler
    dest := makeCap (BitVec.ofNat 16 3) r.1 r.2 r.1
    offset := r.1 - x.destAt.toNat
    bytes := bs.map (·.byte)
    writer := x.writer }

/-- The engine as the agent of a transfer. -/
def xferAgent (s : State) (c : Ctx) (core : Pos) (channel : Nat) (x : Xfer) : Agent :=
  ⟨c, bandOfWriter s x.writer, none, core.die, core, dutyOfIssuer s x.writer x.issuer, x.writer, x.issuer, x.pins,
    some ⟨coreOf core, channel, x.id, x.seq⟩, x.bases⟩

/-- COPY_PACKET (R165): the engine moves one packet, lands it, and counts it off the barrier.  DEDUCED: notes/assumptions/18.md. -/
def execCopyPacket (core : Pos) (channel id packet : Nat) : State → Out := whileClocked (fun s =>
  match findXfer s core channel id with
  | none => .next s
  | some x =>
    if x.cancelled || decide (x.packets ≤ packet) || x.done.contains packet || x.landing.contains packet then .next s
    else
      match findCtx s x.issuer.ctx with
      | none => .fault .danglingRecord
      | some c =>
        let s := modChannel core channel (fun ch =>
          { ch with live := ch.live.map (fun y => if y.id = id then { y with started := true } else y) }) s
        let a := xferAgent s c core channel x
        let r := x.packetRange packet
        let off := r.1 - x.destAt.toNat
        let fail (cause : Nat) : State := faultTransfer core channel id (faultPosition a x packet off r.2 s) cause s
        match (do
            let bs ← sourceBytes a x off r.2
            match x.land with
            | none => engineWrite a x r.1 bs
            | some h =>
              trapIf (bs.any (·.poisoned)) 0x12 0#64
              let p ← translateFor a r.1 r.2 .write
              checkWrite a p r.1 r.2 true false
              if r.1 / 2 ^ 50 ≠ s.dev.number then
                let _ ← fabricAnswer r.1 false
              else
                match deliver (ownerOfKey s.mem (r.1 % 2 ^ 50)) (landMessage core channel packet x h bs s) (← get) with
                | some s' => set s'
                | none => throw .wait : Act Unit) s with
        | .ok (_, s') =>
          if x.land.isSome ∧ r.1 / 2 ^ 50 = s.dev.number then
            .next (modChannel core channel (fun ch =>
              { ch with live := ch.live.map (fun y => if y.id = id then { y with landing := setAdd y.landing packet } else y) }) s')
          else .next (packetDone core channel id packet s')
        | .error (.trap cause _) => .next (fail cause)
        | .error (.report cause _ _) => .next (fail cause)
        | .error (.fault f) => .fault f
        | .error _ => .next s)

/-- The transfer reads or writes another device. -/
def Xfer.usesFabric (x : Xfer) (device : Nat) : Bool :=
  let away (a : DWord) : Bool := a.toNat / 2 ^ 50 != device
  away x.destAt || (decide (x.kind = 0 ∨ x.kind = 3) && away x.sourceAt) || (decide (x.kind = 3) && away x.indexAt) ||
    x.bases.any (fun y => away y.2)

/-- COPY_PACKET_TIMEOUT (R165): an unacknowledged packet to another device faults the transfer. -/
def execCopyPacketTimeout (core : Pos) (channel id packet : Nat) (s : State) : Out :=
  match findXfer s core channel id with
  | some x =>
    if x.usesFabric s.dev.number && decide (packet < x.packets) && !(x.done.contains packet) then
      .next (faultTransfer core channel id packet 0x10 s)
    else .next s
  | none => .next s

/-! ## Fences (R158, R159) -/

/-- FENCE: every earlier access is performed at SCOPE. -/
def fenceBody (f : Ext) : Act Unit := fenceAt f.scope.toNat

/-- FENCEX: the engines of the mask, then a FENCE. -/
def fencexBody (f : Ext) : Act Unit := do
  let s ← get
  let t := s.cur
  let mine (g : FiringId) : Bool := g == t.fid
  match findCore s t.pos with
  | none => pure ()
  | some c => do
    if f.sub.getLsbD 0 then
      waitIf (c.channels.any (fun ch => ch.live.any (fun x => mine x.issuer)))
      match (List.range 4).find? (fun n => match (channelOf s n).record with | some r => mine r.issuer | none => false) with
      | some n => match (channelOf s n).record with
        | some r => reportChannel n r
        | none => pure ()
      | none => pure ()
      acquireOwn (c.channels.foldl (fun n ch => max n (ch.acquireScope ch.nextId)) 3)
    if f.sub.getLsbD 1 then
      waitIf (c.queue.any (fun q => mine q.issuer))
      match (List.range 8).find? (fun n => match (tileAt c n).fault with | some r => r.issuers.any mine | none => false) with
      | some n => reportTile n
      | none => pure ()
  if f.sub.getLsbD 2 then waitIf (t.calls != [] || t.rcalln != 0)
  fenceAt f.scope.toNat

/-! ## Meanings -/

/-- XCOPY (R163). -/
def execXcopy (f : Ext) (s : State) : Out :=
  instr 0x19#6 0x0#4 f (xcopyBody false 0#4 f) s

/-- XCOPYT (R164). -/
def execXcopyt (f : Ext) (s : State) : Out :=
  instr 0x19#6 0x1#4 f (xcopyBody true 1#4 f) s

/-- XWAIT (R167). -/
def execXwait (f : Base) (s : State) : Out :=
  instr 0x19#6 0x2#4 f.ext (xwaitBody f.ext) s

/-- XWAIT_EXT (R167). -/
def execXwaitExt (f : Ext) (s : State) : Out :=
  instr 0x19#6 0x2#4 f (xwaitBody f) s

/-- XSTAT (R167). -/
def execXstat (f : Base) (s : State) : Out :=
  instr 0x19#6 0x3#4 f.ext (xstatBody f.ext) s

/-- XSTAT_EXT (R167). -/
def execXstatExt (f : Ext) (s : State) : Out :=
  instr 0x19#6 0x3#4 f (xstatBody f) s

/-- XCANCEL (R167). -/
def execXcancel (f : Base) (s : State) : Out :=
  instr 0x19#6 0x4#4 f.ext (xcancelBody f.ext) s

/-- XCANCEL_EXT (R167). -/
def execXcancelExt (f : Ext) (s : State) : Out :=
  instr 0x19#6 0x4#4 f (xcancelBody f) s

/-- XGATH (R170). -/
def execXgath (f : Ext) (s : State) : Out :=
  instr 0x19#6 0x5#4 f (xgathBody f) s

/-- FENCE (R158). -/
def execFence (f : Ext) (s : State) : Out :=
  instr 0x17#6 0x0#4 f (fenceBody f) s

/-- FENCEX (R159). -/
def execFencex (f : Ext) (s : State) : Out :=
  instr 0x17#6 0x1#4 f (fencexBody f) s

end Sys2Proof.Machine
end

