-- ==== Sys2Proof/Machine/Fetch.lean ====
section
/-!
DEFINITION. Machine/Fetch.lean: which thread issues, the fetch of an instruction's words (01 R32, 02 R56), and the placing
of an instruction where the next step fetches it.
-/

namespace Sys2Proof.Machine

/-- A thread that issues when its turn comes: it holds a firing or a duty, nothing has stopped it, and its band is not
being pre-empted (09 R268, 13 R344, R354).  A service thread goes on while bands are pre-empted (13 R351). -/
def mayIssue (s : State) (t : Thread) : Bool :=
  t.duty != .idle && t.hold == .running && !t.stopped && clocked s &&
    (inHandler t ||
      (match bandOf s t with
       | some b => b.state == .running || b.state == .draining
       | none => false))

/-- Exchange the issuing thread for another. -/
def switchTo (t : Thread) (s : State) : State :=
  { s with cur := t, threads := (s.threads.filter (fun x => x.pos != t.pos || x.hold != .running)) ++ [s.cur] }

/-- The state in which the thread at a position issues; none when no thread runs there.  The order of a core's issue slots (09
R268) is timing.  DESIGN CHOICE: notes/assumptions/43.md. -/
def selectThread (p : Pos) (s : State) : Option State :=
  if s.cur.pos = p ∧ s.cur.hold = .running then some s
  else (s.threads.find? (fun t => t.pos == p && t.hold == .running)).map (fun t => switchTo t s)

/-- Fetch one word of the instruction that began at `s0`, or how the step ends instead; a failing fetch traps with TPC set to the address fetched (01 R32).  DEDUCED: notes/assumptions/8.md. -/
def fetchOr (s0 : State) (addr : DWord) (s : State) : Except Out (Word × State) :=
  match fetchWord addr.toNat s with
  | .ok r => .ok r
  | .error (.trap c i) => .error (.next (takeTrapAt addr c i s))
  | .error (.report c i f) => .error (.next (takeTrapAt addr c i (f s)))
  | .error .wait => .error (.next (noteWait s0))
  | .error (.hold keep) => .error (.next (noteWait (keep s0)))
  | .error (.fault f) => .error (.fault f)

/-- Fetch n words from an address on.  DEDUCED: notes/assumptions/8.md. -/
def fetchMany (s0 : State) (addr : DWord) (n : Nat) (s : State) : Except Out (List Word × State) :=
  match n with
  | 0 => .ok ([], s)
  | k + 1 =>
    match fetchOr s0 addr s with
    | .error o => .error o
    | .ok (w, s1) =>
      match fetchMany s0 (addr + 4#64) k s1 with
      | .error o => .error o
      | .ok (ws, s2) => .ok (w :: ws, s2)

/-- Fetch and decode at the pc.  The checks 1 to 3 precede the fetch of the further words.  DEDUCED: notes/assumptions/8.md. -/
noncomputable def fetchInstr (s : State) : Except Out (Instr × State) :=
  match fetchOr s s.cur.pc s with
  | .error o => .error o
  | .ok (w0, s1) =>
    match decodeHead w0 with
    | .error n => .ok (.illegalEncoding n w0, s1)
    | .ok _ =>
      match fetchMany s (s.cur.pc + 4#64) (lenWords (w0.extractLsb' 0 2) - 1) s1 with
      | .error o => .error o
      | .ok (ws, s2) =>
        match decodeWords s.cur.pos.lupin w0 (ws.getD 0 0#32) (ws.getD 1 0#32) (ws.getD 2 0#32) (ws.getD 3 0#32) with
        | .ok i => .ok (i, s2)
        | .error n => .ok (.illegalEncoding n w0, s2)

/-- An atomic that another device was to answer ends in a trap at its own address, with its register as it was (05 R154). -/
def failResult (cause : Nat) (r : InFlight) (s : State) : State :=
  takeTrapAt r.pc cause r.address { s with cur := { s.cur with
    g := if r.reg = 0 then s.cur.g else s.cur.g.setIfInBounds r.reg { s.cur.g.getD r.reg GReg.zero with st := r.was } } }

/-- A result arrives in its register; one from another device takes that device's answer, and a poisoned one, or none within the
remote timeout (05 R142), traps.  DEDUCED: notes/assumptions/40.md. -/
def landResult (r : InFlight) (s : State) : State :=
  match r.away, s.fabricIn with
  | none, _ => { s with cur := fillResult r.reg r.data s.cur }
  | some _, [] =>
    if timeoutPassed s (ctxOf s.cur) r.issued 4 then failResult 0x10 r s
    else { s with cur := { s.cur with inFlight := s.cur.inFlight ++ [r] } }
  | some (n, signed), x :: rest =>
    let s := { s with fabricIn := rest }
    let v := x.data.toNat % 2 ^ (8 * n)
    match x.poison with
    | some _ => failResult 0x12 r s
    | none => { s with cur := fillResult r.reg (if signed then BitVec.ofInt 64 (toSigned (8 * n) v) else w64 v) s.cur }

/-- Results in flight arrive at the issuing thread's registers; a free choice says which of them arrive before this step's
instruction.  DESIGN CHOICE: notes/assumptions/14.md. -/
def landEach (rs : List InFlight) (s : State) : State :=
  match rs with
  | [] => s
  | r :: rest =>
    let arrives := Config.freeChoice s.free % 2 = 0
    let s := { s with free := s.free + 1 }
    landEach rest (if arrives then landResult r s else { s with cur := { s.cur with inFlight := s.cur.inFlight ++ [r] } })

/-- Stores to another device that the remote timeout has passed have failed (05 R142, 11 R321). -/
def expireStores (s : State) : State :=
  { s with cur := { s.cur with remoteStores := s.cur.remoteStores.map (fun r =>
      if timeoutPassed s (ctxOf s.cur) r.issued 4 then { r with failed := true } else r) } }

/-- What the issuing thread finds at the start of a step (01 R23, 05 R142, R154). -/
def landResults (s : State) : State :=
  let s := expireStores s
  landEach s.cur.inFlight { s with cur := { s.cur with inFlight := [] } }

/-- The g registers that an instruction reads: its source fields and the blocks of a remote call or a reply. -/
def registersRead (r : Form) (f : Ext) : List (BitVec 6) :=
  let field := fun (u : FieldUse) (x : BitVec 6) => if u.reads x = some false then [x] else []
  let block := fun (first : BitVec 6) (n : Nat) => (List.range n).map (fun i => first + BitVec.ofNat 6 i)
  field r.a f.a ++ (if f.hasLit then [] else field r.b f.b) ++ field r.c f.c ++ (if r.dread then field r.d f.d else []) ++
    (match r.imm with
     | .rcall | .rcalln => block f.b (f.imm.extractLsb' 12 4).toNat
     | .rreply => block f.a f.imm.toNat
     | _ => [])

/-- What follows the read of a reply's register follows the writes that the reply brought (07 R232, 08 R259).  DESIGN CHOICE:
notes/assumptions/7.md. -/
def hearReply (n : BitVec 6) (s : State) : State :=
  let r := gRead s.cur n
  if r.st = .full ∧ r.reply ≠ [] then
    let e := eyeOf s.cur
    { s with mem := (s.mem.releasesFirst e 3).applyClock e.die (some (.agent e.who)) r.reply }
  else s

/-- The replies that an instruction reads are heard before it runs; one that its predicate turns off reads none (01 R29). -/
def hearReplies (i : Instr) (s : State) : State :=
  match i.fields with
  | some (op, fn, f) =>
    if elementwise op.toNat fn.toNat || (governing s.cur f).getLsbD 0 then
      (match formFor op fn f.len with
       | some r => (registersRead r f).foldl (fun s n => hearReply n s) s
       | none => s)
    else s
  | none => s

/-! ## Placing an instruction (notes/assumptions/1.md) -/

/-- The launch packet of the band that `installFiring` makes: one instance with every register and tile, and a cluster
store.  DESIGN CHOICE: notes/assumptions/1.md. -/
def probePacket : Packet where
  entry := ⟨0#128, false⟩
  operands := []
  wait := 0#256
  set := 0#256
  path := 0#64
  weight := 1
  tiles := 8
  vcount := 6
  gcount := 7
  instances := 1
  gangs := 1
  det := false
  prio := 0
  lupin := false
  coreKib := 64
  clusterKib := 16
  depths := [0, 0, 0, 0]

/-- A context with default limits (14 R369).  DESIGN CHOICE: notes/assumptions/1.md, notes/assumptions/3.md. -/
def probeCtx : Ctx where
  number := 1
  det := false
  clusters := 1#256
  lupins := 1#512
  trapEntry := ⟨0#128, false⟩
  root := 0#64
  handlerTable := 0#64
  saveArea := 0#64
  saveSize := 0
  spillAddr := 0#64
  spillSize := 0
  spillUsed := 0
  timeoutMs := 4
  waitLimit := 2 ^ 31
  runLimit := 2 ^ 33
  stallInterval := 2 ^ 31
  adopt := false
  events := 0#256
  evClocks := []
  types := Vector.replicate 64 ⟨0#16, []⟩
  windows := Vector.replicate 64 ⟨0#64, 0, 0, 0, [], [], false, []⟩
  epoch := 1
  frames := [[], [], [], []]
  killing := false
  lastProgress := 0

/-- A core as band dispatch leaves it (01 R30, 05 R164). -/
def freshCore (pos : Pos) (band gang : Nat) : CoreState where
  pos := pos
  band := band
  gang := gang
  loop := none
  channels := List.replicate 4 ⟨2, none, [], [], none⟩
  tiles := List.replicate 8 ⟨false, false, false, false, false, [], none⟩
  queue := []
  arbiter := 0
  grant := 0
  stash := List.replicate 8 none
  serials := [0#32, 0#32, 0#32, 0#32]
  lastInstance := none

/-- The ALLOT word of a packet (01 R37). -/
def allotWord (p : Packet) : DWord :=
  w64 (p.clusterKib * 2 ^ 22 + p.coreKib * 2 ^ 14 + p.weight * 2 ^ 10 + p.tiles * 2 ^ 6 + p.vcount * 2 ^ 3 + p.gcount)

/-- A firing of a one-instance band on die 0, cluster 0, core 0, thread 0, whose code lies in its cluster store: what a
launch from outside the machine leaves.  DESIGN CHOICE: notes/assumptions/1.md. -/
def installFiring (s : State) : State :=
  let pos : Pos := ⟨false, 0, 0, 0, 0⟩
  let code := makeCap 0x3F#16 (s.dev.number * 2 ^ 50 + clusterKey 0 0 0) 65536 (s.dev.number * 2 ^ 50 + clusterKey 0 0 0)
  { s with
    cur := { Thread.idle with
      pos := pos
      duty := .firing
      fid := ⟨1, 0, 0, 0, 0⟩
      ctxw := w64 (s.dev.number * 2 ^ 50 + 1)
      allotw := allotWord probePacket
      sto := stoSeed 0#64 0#64
      pc := w64 (s.dev.number * 2 ^ 50 + clusterKey 0 0 0)
      code := code
      runFrom := s.dev.cycle }
    ctxs := [probeCtx]
    bands := [{
      entry := 0
      ctx := 1
      packet := probePacket
      actor := ⟨List.replicate 4 (0, 0), List.replicate 4 (0, 0)⟩
      state := .running
      wasDraining := false
      evict := false
      evicted := false
      die := 0
      places := [⟨0, [0], 0⟩]
      instances := [⟨0, 0, .running, 0, [[], [], [], []], [0, 0, 0, 0], [none, none, none, none],
        [none, none, none, none]⟩]
      spawned := []
      exited := []
      parent := none
      child := 0
      bySpawn := false
      entered := 0
      sequence := 0
      regions := []
      handovers := []
      stores := []
      clock := []
      endClock := []
      saveAt := none }]
    cores := [freshCore pos 0 0] }

/-- Where the next step fetches words: the key of an address as the current thread's fetch translates it. -/
def fetchKey (s : State) (addr : DWord) : Option Nat :=
  match (do let a ← threadAgent; translateFor a addr.toNat 4 .fetch : Act Place) s with
  | .ok (.bytes k _, _) => some k
  | _ => none

/-- Store words where the next step fetches them. -/
def placeWords (addr : DWord) (ws : List Word) (s : State) : State :=
  match ws with
  | [] => s
  | w :: rest =>
    let s' :=
      match fetchKey s addr with
      | some k => { s with mem := s.mem.put s.cur.pos.die k (wordBytes w) }
      | none => s
    placeWords (addr + 4#64) rest s'

/-- The state `s` with table bits placed where the next step fetches.  DESIGN CHOICE: notes/assumptions/1.md. -/
def withTableWord (s : State) (nbits w : Nat) : State :=
  let s := { s with turns := [] }
  let s := if mayIssue s s.cur && (fetchKey s s.cur.pc).isSome then s else installFiring s
  placeWords s.cur.pc (tableWords nbits w) s

end Sys2Proof.Machine
end

