-- ==== Sys2Proof/Machine/Loops.lean ====
section
/-!
DEFINITION. Machine/Loops.lean: reserving loops (07 R237 to R240, 12 R326 to R340): the six instructions and the engine's
events.
-/

namespace Sys2Proof.Machine

/-! ## Writer regions (05 R172, 12 R340) -/

/-- The 64 KiB regions that lie wholly inside a range. -/
def wholeRegions (lo hi : Nat) : List Nat :=
  (List.range (hi / 65536 - (lo + 65535) / 65536)).map (fun i => ((lo + 65535) / 65536 + i) * 65536)

/-- The regions wholly inside a capability, each with the leaf entry that records its owner; no gang of this device owns a region
of another.  Only paged memory has writer regions. -/
def regionsOf (s : State) (c : Ctx) (cap : TCap) : List (Nat × Option Nat) :=
  if !cap.tag then []
  else
    let b := capBounds cap.val
    ((wholeRegions b.1 b.2).filter (fun a => a % 2 ^ 50 / 2 ^ 40 != 0x3FF)).map (fun a =>
      (a, if a / 2 ^ 50 = s.dev.number then (walk s.mem c (a % 2 ^ 50)).map (·.entryAt) else none))

/-- The entries of regions that have one. -/
def regionEntries (rs : List (Nat × Option Nat)) : List Nat := rs.filterMap (·.2)

/-! ## RLBEGIN (R237, R326, R340) -/

/-- A capability of the record: its checks with the cursor as TINFO. -/
def recordCap (c : TCap) (type : Nat) (perms : List Nat) : Act Unit := do
  let cursor := capCursor c.val
  trapIf (!c.tag) 0x04 cursor
  trapIf (capType c.val != type) 0x07 cursor
  trapIf (!(perms.all (capHas c.val))) 0x06 cursor

/-- An actor that declares a port, or whose descriptor cannot be read. -/
def hasPorts (s : State) (c : Ctx) (band : Option Band) (entry : QWord) : Bool :=
  match descriptorWords s c band entry with
  | none => true
  | some ws => (actorOf ws).ins.any (·.2 != 0) || (actorOf ws).outs.any (·.2 != 0)

/-- The eligible clusters of a context, as die and cluster, in ascending order (09 R280). -/
def eligibleClusters (c : Ctx) : List (Nat × Nat) :=
  ((List.range 256).filter c.clusters.getLsbD).map (fun i => (i / 64, i % 64))

/-- The issuing band holds core 7 of an eligible cluster. -/
def holdsLoopCore (c : Ctx) (b : Band) : Bool :=
  !b.packet.lupin && b.places.any (fun p => p.cores.contains 7 && (eligibleClusters c).contains (b.die, p.cluster))

/-- DEDUCED: notes/assumptions/31.md. -/
def gangOf (s : State) (t : Thread) : Nat :=
  match t.duty with
  | .loop d => (match findLoop s d.loop with | some l => l.gang | none => 0)
  | _ => t.fid.gang

/-- The sealed loop instance of a loop (R237). -/
def loopInstance (id : Nat) : TCap := ⟨0x0000#16 ++ 5#4 ++ 0#44 ++ BitVec.ofNat 64 id, true⟩

/-- Accept a loop whose record has passed its checks: its band enters the pool with the issuing node's PRIO. -/
def beginLoop (c : Ctx) (b : Band) (x : DWord) (caps : List TCap) (regions : List Nat) : Act Nat := do
  releaseAt 3
  let id ← freshId
  let s ← get
  let t := s.cur
  let cap (i : Nat) : TCap := caps.getD i ⟨0#128, false⟩
  let n := bitsOf x 0 32
  let l : Loop :=
    { id := id
      ctx := c.number
      band := b.entry
      gang := gangOf s t
      pathw := t.pathw
      ctxw := t.ctxw
      allotw := t.allotw
      reserveCode := unsealCap (cap 0).val
      commitCode := unsealCap (cap 1).val
      cells := cap 2
      guard := cap 3
      operand := cap 5
      gstride := bitsOf x 46 9
      logw := bitsOf x 32 5
      n := n
      state := if n = 0 then .finished else .queued
      epoch := 0
      window := []
      nextNew := 0
      windowNo := 0
      fired := []
      ended := []
      failed := []
      rsvIssued := 0
      rsvAcked := 0
      faults := []
      record := 0#64
      committed := 0
      set := []
      regions := if n = 0 then [] else regions
      clock := s.mem.clockAt (eyeOf t)
      endClock := []
      held := [] }
  modify (fun s => { s with loops := s.loops ++ [l] })
  if n = 0 then return id
  else do
    let p := { b.packet with wait := 0#256, set := 0#256, prio := bitsOf t.ctxw 17 3 }
    match addNode c.number p none 0 false (some id) [] (← get) with
    | none => throw .wait
    | some s => do
      set s
      return id

def rlbeginBody (f : Ext) : Act Unit := do
  let a ← readG f.a f.ta
  let addr := capAddr a.val
  deref a addr 96 [permLD]
  trapIf (addr % 16 != 0) 0x08 (w64 addr)
  let gs ← readGranules addr 6
  let ws := wordsOf 12 (gs.flatMap (·.1))
  let tags := gs.map (fun g => g.2 && capHas a.val permLDCAP)
  let cap (i : Nat) : TCap := packetCap ws tags i
  let own := capCursor a.val
  recordCap (cap 0) 1 []
  recordCap (cap 1) 1 []
  recordCap (cap 2) 0 [permRSVC, permLD, permST]
  trapIf ((capBounds (cap 2).val).1 % 8 != 0) 0x05 own
  if (cap 3).tag || ws.getD 6 0#64 != 0#64 || ws.getD 7 0#64 != 0#64 then recordCap (cap 3) 0 [permLD, permST]
  let x := ws.getD 8 0#64
  trapIf (bitsOf x 55 9 != 0 || bitsOf x 37 9 != 0 || bitsOf x 46 9 == 0 || decide (256 < bitsOf x 46 9) ||
    decide (16 < bitsOf x 32 5)) 0x05 own
  trapIf (ws.getD 9 0#64 != 0#64) 0x05 own
  let s ← get
  let c ← getCtx
  let b ← getBand
  let forms := formBand s s.cur
  trapIf (hasPorts s c forms (cap 0).val || hasPorts s c forms (cap 1).val) 0x05 own
  -- a loop firing runs in its loop's band, which holds core 7 of every eligible cluster (R326)
  trapIf (c.det && (holdsLoopCore c b || forms.isNone)) 0x05 own
  let rs := regionsOf s c (cap 3) ++ (if capHas (cap 5).val permST then regionsOf s c (cap 5) else [])
  let mine (r : Nat × Option Nat) : Bool :=
    match r.2 with
    | some e => ownsRegion s e (.gang b.entry (gangOf s s.cur))
    | none => false
  match if c.det then rs.find? (fun r => !(mine r)) else none with
  | some r => trap 0x0A (w64 r.1)
  | none => do
    let id ← beginLoop c b x ((List.range 6).map cap) (if c.det then regionEntries rs else [])
    writeG f.d (loopInstance id)

/-! ## The loop instance in A (R240) -/

/-- TINFO of a loop instance that names no loop of the context. -/
def noLoop : DWord := 0xFFFFFFFFFFFFFFFF#64

/-- TINFO outside a form's round (13 R348). -/
def outsideRound : DWord := 0xFFFFFFFF#64

/-- The loop that an instance names. -/
def loopNamed (c : TCap) : Act Loop := do
  recordCap c 5 []
  let s ← get
  match s.loops.find? (fun l => l.id == capAddr c.val && l.ctx == ctxOf s.cur) with
  | some l => return l
  | none => trap 0x0E noLoop

/-- The duty of the current thread as a firing of a round of a loop. -/
def roundOf (l : Loop) (commit : Bool) : Act LoopDuty := do
  match (← get).cur.duty with
  | .loop d => if d.loop = l.id ∧ d.commit = commit then return d else trap 0x0E outsideRound
  | _ => trap 0x0E outsideRound

/-- The address of the cell that an index names, within the bounds of CELLS. -/
def cellNamed (l : Loop) (index : DWord) : Act Nat := do
  let addr := cellAt l index.toNat
  trapIf (decide ((capBounds l.cells.val).2 < addr + 8)) 0x05 (w64 addr)
  return addr

/-- RSV (R238): the request goes to its cell's home, on this device or another, and is counted (12 R331).  DESIGN CHOICE: notes/assumptions/28.md. -/
def rsvBody (f : Ext) : Act Unit := do
  let c ← readG f.a f.ta
  let b ← readData f.b f.tb
  let l ← loopNamed c
  let d ← roundOf l false
  let addr ← cellNamed l b
  let p ← reach (← curAgent) addr 8 .write false (capHas l.cells.val permFMTW)
  let clock ← messageClock
  match p with
  | .word _ => trap 0x06 (w64 addr)
  | _ => do
    modLoop l.id (fun l => { l with rsvIssued := l.rsvIssued + 1 })
    modNet (fun n => { n with rsvs := n.rsvs ++ [⟨l.id, p.parts 8 == [], w64 addr, p.parts 8, l.epoch, d.iteration, clock⟩] })

/-- What a cell holds when an iteration holds it. -/
def heldWord (epoch iteration : Nat) : DWord := w64 (epoch * 2 ^ 32 + iteration)

def rchkBody (f : Ext) : Act Unit := do
  let c ← readG f.a f.ta
  let b ← readData f.b f.tb
  let l ← loopNamed c
  let d ← roundOf l true
  let addr ← cellNamed l b
  let a ← curAgent
  let p ← reach a addr 8 .read false false
  let r ← readPlace a p addr 8
  writeP f.d (allOnes (w64 (bytesNat r.1) == heldWord l.epoch d.iteration))

def rlfailBody : Act Unit := do
  match (← get).cur.duty with
  | .loop d =>
    if d.commit then modCur (fun t => { t with duty := .loop { d with failed := true } })
    else trap 0x0E outsideRound
  | _ => trap 0x0E outsideRound

/-- RLEND (R240): an acquire at dev scope of what the loop's firings did, whose writes the end of each round has performed
(12 R335). -/
def rlendBody (f : Ext) : Act Unit := do
  let c ← readG f.a f.ta
  let l ← loopNamed c
  match l.state with
  | .finished => do
    acquireOwn 3
    followClock l.clock
  | .faulted => trap 0x0E l.record
  | _ => throw .wait

/-- The words of RLSTAT.  DEDUCED: notes/assumptions/31.md. -/
def rlstatWord (l : Loop) (select : Nat) : DWord :=
  if select = 0 then
    let faulted := decide (l.state = .faulted)
    let cause := if faulted && !(l.record.getLsbD 41) then bitsOf l.record 32 8 else 0
    w64 (cause * 2 ^ 40 + (if faulted then 2 ^ 33 else 0) + (if l.state = .finished then 2 ^ 32 else 0) + l.committed)
  else w64 (min l.windowNo (2 ^ 32 - 1) * 2 ^ 32 + l.epoch)

def rlstatBody (f : Ext) : Act Unit := do
  let c ← readG f.a f.ta
  let l ← loopNamed c
  writeData f.d (rlstatWord l f.b.toNat)

/-! ## The engine's events -/

def putLoop (l : Loop) (s : State) : State := { s with loops := s.loops.map (fun x => if x.id = l.id then l else x) }

/-- The 8 bytes of a cell in its write order, and the memory that has them at hand. -/
def cellWord (m : Memory) (parts : List (Nat × Nat)) : Memory × DWord :=
  let m := parts.foldl (fun m x => if keyIsView x.1 then m.openView (keyDie x.1) (x.1 / 128) else m.recallViews x.1 x.2 true) m
  (m, w64 (bytesNat (parts.flatMap (fun x => (List.range x.2).map (fun i => m.newest (x.1 + i))))))

/-- The min of R238 at a cell's home, after what the RSV follows: a cell of another epoch, or of a later iteration, takes the
request's.  DEDUCED: notes/assumptions/31.md. -/
def rsvAt (m : RsvMsg) (s : State) : State :=
  let die := (m.parts.head?.map (fun x => (ownerOfKey s.mem x.1).die)).getD 0
  let who : FiringId := ⟨0, loopBand m.loop, 0, m.iteration, m.epoch⟩
  let s := m.parts.foldl (fun s x => recallStashes none x.1 x.2 s) s
  let r := cellWord s.mem m.parts
  let s := { s with mem := r.1.applyClock die (some (.agent who)) m.clock }
  if m.parts.any (fun x => (s.mem.firstPoison x.1 x.2).isSome) then s
  else if bitsOf r.2 32 32 ≠ m.epoch ∨ m.iteration < bitsOf r.2 0 32 then
    performPlace die (.split m.parts) (natBytes 8 (heldWord m.epoch m.iteration).toNat) false who s
  else s

/-- RSV_PERFORM (12 R331): a request performs its min and is acknowledged, also into the state of a saved loop (R339).  DESIGN CHOICE: notes/assumptions/28.md. -/
def execRsvPerform (index : Nat) (s : State) : Out :=
  match s.net.rsvs[index]? with
  | none => .next s
  | some m =>
    let s := { s with net := { s.net with rsvs := s.net.rsvs.eraseIdx index } }
    let s := if m.away then s else rsvAt m s
    .next { s with loops := s.loops.map (fun l => if l.id = m.loop then { l with rsvAcked := l.rsvAcked + 1 } else l) }

/-- The record of RLEND (12 R338).  DEDUCED: notes/assumptions/31.md. -/
def loopRecord (exhausted commit : Bool) (cause iteration : Nat) : DWord :=
  w64 ((if exhausted then 2 ^ 41 else 0) + (if commit then 2 ^ 40 else 0) + cause * 2 ^ 32 + iteration)

/-- A loop ends: its cores and its pool entry are released, and its regions return to the issuing gang (R326, R340). -/
def endLoop (l : Loop) (state : LoopState) (record : DWord) (s : State) : State :=
  { putLoop { l with state := state, record := record, set := [], regions := [] } s with
    cores := s.cores.filter (fun c => !(l.set.contains c.pos))
    nodes := s.nodes.filter (fun n => n.loop != some l.id) }

/-- The window of R330: carried iterations, then new ones while there is room. -/
def fillWindow (l : Loop) : Loop :=
  let k := min (2 ^ l.logw - l.window.length) (l.n - l.nextNew)
  { l with window := l.window ++ (List.range k).map (l.nextNew + ·), nextNew := l.nextNew + k }

/-- WINDOW_START (12 R328 to R331): the window fills, takes an epoch, and its reserve firings are dispatched; without an
epoch the loop faults.  DEDUCED: notes/assumptions/31.md. -/
def execWindowStart (loop : Nat) (s : State) : Out :=
  match findLoop s loop with
  | none => .next s
  | some l =>
    match findCtx s l.ctx with
    | none => .fault .danglingRecord
    | some c =>
      if l.state ≠ .pack ∨ !(loopBandRuns s l) then .next s
      else
        let l := fillWindow l
        if l.window = [] then .next s
        else if 2 ^ 32 ≤ c.epoch then .next (endLoop l .faulted (loopRecord true false 0x0E (l.window.headD 0)) s)
        else
          let l :=
            { l with
              state := .reserve
              epoch := c.epoch
              fired := []
              ended := []
              failed := []
              rsvIssued := 0
              rsvAcked := 0
              faults := [] }
          let s := { putLoop l s with ctxs := s.ctxs.map (fun x => if x.number = c.number then { x with epoch := x.epoch + 1 } else x) }
          .next (startLoopFirings loop s)

/-- Every position of the window has ended. -/
def roundEnded (l : Loop) : Bool := decide (l.ended.length = l.window.length)

/-- The first faulted firing in position order. -/
def firstFault (l : Loop) : Option (Nat × Nat) :=
  (List.range l.window.length).findSome? (fun q => l.faults.find? (·.1 == q))

/-- Every access of a loop's firings becomes visible everywhere (12 R335). -/
def performLoop (l : Loop) (s : State) : State :=
  { s with mem := s.mem.applyWhere none (fun w => w.issuer.ctx == l.ctx && w.issuer.band == loopBand l.id) }

/-- A transfer of a loop's firings is in flight. -/
def loopCopies (s : State) (l : Loop) : Bool :=
  s.cores.any (fun c => c.channels.any (fun ch => ch.live.any (fun x => x.writer == .loop l.id)))

/-- What the next firings of a loop follow: also what its firings of this round did (12 R335). -/
def mergeRound (l : Loop) : Loop := { l with clock := clockMerge l.clock l.endClock }

/-- The cells of this device that hold an iteration of the loop's epoch, each with its iteration (12 R332). -/
def cellsHeld (s : State) (l : Loop) : List (Nat × Nat) :=
  match findCtx s l.ctx with
  | none => []
  | some c =>
    let b := capBounds l.cells.val
    (List.range ((b.2 - b.1) / 8)).filterMap (fun i =>
      (keyOf s c none (cellAt l i) 8).bind (fun k =>
        let x := (cellWord s.mem [(k, 8)]).2
        if bitsOf x 32 32 = l.epoch then some (i, bitsOf x 0 32) else none))

/-- ROUND_BARRIER (12 R331): every reserve firing has ended and every RSV is acknowledged; the commit firings start.  After a
fault the loop is FAULTED.  DEDUCED: notes/assumptions/31.md. -/
def execRoundBarrier (loop : Nat) (s : State) : Out :=
  match findLoop s loop with
  | none => .next s
  | some l =>
    if l.state ≠ .reserve ∨ !(roundEnded l) ∨ l.rsvIssued ≠ l.rsvAcked then .next s
    else
      let s := performLoop l s
      match firstFault l with
      | some (q, cause) =>
        if loopCopies s l then .next s
        else .next (endLoop l .faulted (loopRecord false false cause (l.window.getD q 0)) s)
      | none =>
        if loopBandRuns s l then
          let l := { mergeRound l with state := .commit, fired := [], ended := [], held := cellsHeld s l }
          .next (startLoopFirings loop (putLoop l s))
        else .next s

/-- Pack (12 R333): the failed iterations, in order. -/
def packWindow (l : Loop) : List Nat :=
  ((List.range l.window.length).filter (l.failed.contains ·)).map (fun q => l.window.getD q 0)

/-- ROUND2_END (12 R332 to R334): every commit firing has ended and all of its writes are performed; the window is packed.  DEDUCED: notes/assumptions/31.md. -/
def execRound2End (loop : Nat) (s : State) : Out :=
  match findLoop s loop with
  | none => .next s
  | some l =>
    if l.state ≠ .commit ∨ !(roundEnded l) ∨ loopCopies s l then .next s
    else
      let s := performLoop l s
      match firstFault l with
      | some (q, cause) => .next (endLoop l .faulted (loopRecord false true cause (l.window.getD q 0)) s)
      | none =>
        let l := { mergeRound l with
          window := packWindow l, windowNo := l.windowNo + 1, fired := [], ended := [], failed := [], held := [] }
        if l.window = [] ∧ l.n ≤ l.nextNew then .next (endLoop l .finished 0#64 s)
        else .next (putLoop { l with state := .pack } s)

/-! ## Meanings -/

/-- RLBEGIN (R237). -/
def execRlbegin (f : Ext) (s : State) : Out :=
  instr 0x34#6 0x0#4 f (rlbeginBody f) s

/-- RSV (R238). -/
def execRsv (f : Ext) (s : State) : Out :=
  instr 0x34#6 0x1#4 f (rsvBody f) s

/-- RCHK (R238). -/
def execRchk (f : Ext) (s : State) : Out :=
  instr 0x34#6 0x2#4 f (rchkBody f) s

/-- RLFAIL (R239). -/
def execRlfail (f : Ext) (s : State) : Out :=
  instr 0x34#6 0x3#4 f (rlfailBody) s

/-- RLEND (R240). -/
def execRlend (f : Base) (s : State) : Out :=
  instr 0x34#6 0x4#4 f.ext (rlendBody f.ext) s

/-- RLEND_EXT (R240). -/
def execRlendExt (f : Ext) (s : State) : Out :=
  instr 0x34#6 0x4#4 f (rlendBody f) s

/-- RLSTAT (R240). -/
def execRlstat (f : Base) (s : State) : Out :=
  instr 0x34#6 0x5#4 f.ext (rlstatBody f.ext) s

/-- RLSTAT_EXT (R240). -/
def execRlstatExt (f : Ext) (s : State) : Out :=
  instr 0x34#6 0x5#4 f (rlstatBody f) s

end Sys2Proof.Machine
end

