-- ==== Sys2Proof/Machine/NearMemory.lean ====
section
/-!
DEFINITION. Machine/NearMemory.lean: the near-memory pipeline (07 R233 to R235, 11 R310, R311) and mailboxes (R236, R312).
-/

namespace Sys2Proof.Machine

/-! ## Units of a Lupin core -/

def freshUnit (pos : Pos) : LupinUnit := ⟨coreOf pos, List.replicate 64 none, [], none, []⟩

def unitAt (s : State) (p : Pos) : LupinUnit := (s.units.find? (fun u => u.pos == coreOf p)).getD (freshUnit p)

def putUnit (u : LupinUnit) (s : State) : State := { s with units := s.units.filter (fun x => x.pos != u.pos) ++ [u] }

def modUnit (p : Pos) (f : LupinUnit → LupinUnit) : Act Unit := modify (fun s => putUnit (f (unitAt s p)) s)

def LupinUnit.busy (u : LupinUnit) : Bool := u.runs.any (·.running)

/-! ## The parameter block (R233) -/

def field (x : DWord) (lo n : Nat) : Nat := x.toNat / 2 ^ lo % 2 ^ n

def parGroup (w : DWord) : Nat := field w 48 16
def parWidth (w : DWord) : Nat := field w 32 9
def parScaled (w : DWord) : Bool := w.getLsbD 22
def parAct (w : DWord) : Nat := field w 19 3
def parMax (w : DWord) : Bool := w.getLsbD 18
def parMulmode (w : DWord) : Nat := field w 16 2
def parDfmt (w : DWord) : Nat := field w 12 4
def parSfmt (w : DWord) : Nat := field w 8 4
def parDequantise (w : DWord) : Bool := w.getLsbD 0
def parMultiply (w : DWord) : Bool := w.getLsbD 1
def parReduce (w : DWord) : Bool := w.getLsbD 2
def parActivate (w : DWord) : Bool := w.getLsbD 3

/-- No field of the block is illegal (R233, R234). -/
def parLegal (ws : List DWord) : Bool :=
  let w := ws.getD 0 0#64
  parGroup w != 0 && field w 41 7 == 0 && decide (1 ≤ parWidth w) && decide (parWidth w ≤ 256) && field w 23 9 == 0 &&
    field w 4 4 == 0 && decide (parAct w ≤ 3) && decide (parMulmode w ≤ 1) && (parDfmt w == 1 || parDfmt w == 3) &&
    decide (1 ≤ parSfmt w) && decide (parSfmt w ≤ 7) && (parSfmt w != 6 || parWidth w % 32 == 0) &&
    (parDequantise w || parSfmt w == 1) && field (ws.getD 1 0#64) 32 32 == 0 && (ws.drop 2).all (· == 0#64)

/-- NMCFG: waits while the pipeline runs (11 R310). -/
def nmcfgBody (f : Ext) : Act Unit := do
  let c ← readG f.a f.ta
  let t := (← get).cur
  waitIf (unitAt (← get) t.pos).busy
  let addr := capAddr c.val
  deref c addr 64 [permLD]
  trapIf (addr % 8 != 0) 0x08 (w64 addr)
  let a ← curAgent
  let xs ← (List.range 8).mapM (fun i => do
    let p ← reach a (addr + 8 * i) 8 .read false false
    let r ← readPlace a p (addr + 8 * i) 8
    return w64 (bytesNat r.1))
  check9If (!(parLegal xs)) 0x33#6 0#4 f
  modUnit t.pos (fun u => { u with params := some (xs.getD 0 0#64, xs.getD 1 0#64) })

/-! ## Starting the pipeline (R234) -/

/-- A slot that the pipeline may take: active, of a direction, bound to nothing. -/
def slotUsable (x : Slot) (write : Bool) : Bool := x.active && x.record.write == write && !(slotBound x)

def bindPipeline (b : Bool) (n : Nat) (t : Thread) : Thread := setSlot n { slotAt t n with pipeline := b } t

def usesWeights (w : DWord) : Bool := parMultiply w && parMulmode w == 0

def nmrunBody (f : Ext) : Act Unit := do
  let s ← get
  let t := s.cur
  waitIf ((unitAt s t.pos).busy || accessWaits t)
  match (unitAt s t.pos).params with
  | none => check9If true 0x33#6 1#4 f
  | some (w0, w1) => do
    readGood (([0, 3] ++ (if usesWeights w0 then [1] else [])).flatMap (fun n => (slotChain t 8 n).map badSlot))
    let s0 := slotAt t 0
    let s1 := slotAt t 1
    let s3 := slotAt t 3
    check9If (!(slotUsable s0 false) || !(slotUsable s3 true) ||
      (usesWeights w0 && !(slotUsable s1 false && s1.record.esize == 2#3))) 0x33#6 1#4 f
    let chain (n : Nat) : List Slot := (slotChain t 8 n).map (slotAt t)
    let run : PipelineRun :=
      { issuer := t.fid
        service := inHandler t
        band := (formBand s t).map (·.entry)
        duty := if inHandler t then .idle else t.duty
        writer := writerOf t
        word0 := w0
        word1 := w1
        rows := chain 0
        weights := if usesWeights w0 then chain 1 else []
        out := chain 3
        running := true
        acc := []
        taken := 0
        written := 0
        writes := []
        fault := none }
    modUnit t.pos (fun u => { u with runs := u.runs ++ [run] })
    modCur (fun t => bindPipeline true 3 (bindPipeline true 0 (if usesWeights w0 then bindPipeline true 1 t else t)))

/-! ## A run (R234, R311) -/

/-- A fault of a run: cause and TINFO. -/
abbrev RunFault := Nat × DWord

/-- TINFO of NMWAIT (R235). -/
def streamPosition (slot index : Nat) : DWord := w64 (slot * 2 ^ 62 + index % 2 ^ 32)

/-- Bytes of a stored row. -/
def rowBytes (w : DWord) : Nat :=
  let n := parWidth w
  match parSfmt w with
  | 6 => n / 32 + n / 2
  | 1 => 4 * n
  | 2 | 3 => 2 * n
  | _ => n + (if parScaled w then 4 else 0)

/-- An element address must lie in the core's own stack (R311). -/
def inOwnStack (a : Agent) (pos : Pos) (c : TCap) (addr : Nat) (write : Bool) : Act Unit := do
  let p ← translateFor a addr 1 (if write then .write else .read)
  match p with
  | .bytes k _ => do
    let o := ownerOfKey (← get).mem k
    trapIf (!(o.lupin && o.die == pos.die && o.cluster / 16 == pos.cluster / 16)) 0x06 (capCursor c.val)
  | _ => trap 0x06 (w64 addr)

/-- Pieces of a range that stay within lines. -/
def linePieces (addr n : Nat) : List (Nat × Nat) :=
  (linesOf addr n).map (fun l => (max addr (128 * l), min (addr + n) (128 * (l + 1)) - max addr (128 * l)))

/-- Read a row through the base of its stream. -/
def readRow (a : Agent) (pos : Pos) (base : QWord) (addr n align : Nat) : Act (List Byte) := do
  let c : TCap := ⟨base, true⟩
  deref c addr n [permLD]
  trapIf (addr % align != 0) 0x08 (w64 addr)
  inOwnStack a pos c addr false
  let rs ← (linePieces addr n).mapM (fun x => do
    let p ← reach a x.1 x.2 .read false false
    let r ← readPlace a p x.1 x.2
    return r.1)
  return rs.flatten

/-- Write an output row. -/
def writeRow (a : Agent) (pos : Pos) (base : QWord) (addr align : Nat) (bs : List Byte) : Act Unit := do
  let c : TCap := ⟨base, true⟩
  deref c addr bs.length [permST]
  trapIf (addr % align != 0) 0x08 (w64 addr)
  inOwnStack a pos c addr true
  let ps ← (linePieces addr bs.length).mapM (fun x => do
    let p ← reach a x.1 x.2 .write true (capHas base permFMTW)
    return (x, p))
  let _ ← ps.mapM (fun y => writePlace a y.2 y.1.1 ((bs.drop (y.1.1 - addr)).take y.1.2) false none)

/-- Element j of a stored row, as FP32 after dequantisation. -/
def rowElement (w : DWord) (bs : List Byte) (j : Nat) : Nat :=
  let fp := Fp.ofFmt 1
  let byte (i : Nat) : Nat := (bs.getD i 0#8).toNat
  match parSfmt w with
  | 1 => bytesNat ((bs.drop (4 * j)).take 4)
  | 2 => ((convert 2 1 .rne false 0 (bytesNat ((bs.drop (2 * j)).take 2))).getD (0, Flags.none)).1
  | 3 => ((convert 3 1 .rne false 0 (bytesNat ((bs.drop (2 * j)).take 2))).getD (0, Flags.none)).1
  | 6 =>
    let scale := byte (j / 32)
    let b := byte (parWidth w / 32 + j / 2)
    if scale = 0xFF then fp.defaultNan
    else
      match (Fp.ofFmt 6).decode (if j % 2 = 0 then b % 16 else b / 16) with
      | .fin s m e => (fp.roundDyadic .rne 0 s (.ofFin s m (e + (scale : Int) - 127))).1
      | _ => fp.defaultNan
  | fmt =>
    let first := if parScaled w then 4 else 0
    let x := ((convert fmt 1 .rne false 0 (byte (first + j))).getD (0, Flags.none)).1
    if parScaled w then (fp.mul .rne 0 x (bytesNat (bs.take 4))).1 else x

/-- ReLU; the spec gives no value for a NaN and for −0, so they are free.  DEDUCED: notes/assumptions/30.md. -/
def relu (x : Nat) : Act Nat := do
  let fp := Fp.ofFmt 1
  if (fp.decode x).isNan || x == 2 ^ 31 then return (← freshValue 32).toNat
  else return if fp.isNeg x then 0 else x

/-- The activation of a result. -/
def activate (w : DWord) (x : Nat) : Act Nat :=
  if !(parActivate w) then pure x
  else
    match parAct w with
    | 1 => relu x
    | 2 => pure (transcendental 4 1 x).1
    | 3 => pure (transcendental 5 1 x).1
    | _ => pure x

/-- Run an access of a stream: its fault gets the stream's position. -/
def atStream {α : Type} (slot index : Nat) (m : Act α) : Act (Except RunFault α) := fun s =>
  match m s with
  | .ok (x, t) => .ok (.ok x, t)
  | .error (.trap c _) => .ok (.error (c, streamPosition slot index), s)
  | .error (.report c _ _) => .ok (.error (c, streamPosition slot index), s)
  | .error e => .error e

/-- Load the index that the next element of a chain needs. -/
def fillIndex (a : Agent) : List Slot → Act (List Slot)
  | x :: i :: rest =>
    if x.record.ind && x.index.isNone then do
      let (addr, rest') ← streamNext a (i :: rest)
      let r ← loadAs a ⟨i.base, true⟩ addr i.size .read [permLD]
      return { x with index := some (indexValue x.record.isize r.1) } :: rest'
    else return x :: i :: rest
  | xs => return xs

/-- The address of the next element of a chain, with the chain afterwards.  DEDUCED: notes/assumptions/30.md. -/
def nextAddress (a : Agent) (slot : Nat) (xs : List Slot) : Act (Except RunFault (Nat × List Slot)) := do
  match xs with
  | [] => return .error (0x03, streamPosition slot 0)
  | x :: rest =>
    if !x.active then return .error (0x03, streamPosition slot x.visited)
    match ← atStream (x.record.islot.toNat % 4) (match rest with | i :: _ => i.visited | [] => 0) (fillIndex a xs) with
    | .error e => return .error e
    | .ok ys => atStream slot x.visited (streamNext a ys)

/-- The run stopped by a fault. -/
def stopRun (e : RunFault) (r : PipelineRun) : PipelineRun := { r with running := false, fault := some e }

/-- Take one row from s0, with its weight: its elements as FP32.  An element's address is aligned on its stream's element size
(02 R66).  DEDUCED: notes/assumptions/30.md. -/
def takeRow (a : Agent) (pos : Pos) (r : PipelineRun) : Act (List Nat × PipelineRun) := do
  let slot := r.rows.headD Slot.inactive
  match ← nextAddress a 0 r.rows with
  | .error e => return ([], stopRun e r)
  | .ok (addr, rows) =>
    match ← atStream 0 slot.visited (readRow a pos slot.base addr (rowBytes r.word0) slot.size) with
    | .error e => return ([], stopRun e r)
    | .ok bs => do
      let xs := (List.range (parWidth r.word0)).map (rowElement r.word0 bs)
      let r := { r with rows := rows }
      let scale (m : Nat) : List Nat := xs.map (fun x => ((Fp.ofFmt 1).mul .rne 0 x m).1)
      if !(parMultiply r.word0) then return (xs, r)
      else if parMulmode r.word0 = 1 then return (scale (field r.word1 0 32), r)
      else
        let wslot := r.weights.headD Slot.inactive
        match ← nextAddress a 1 r.weights with
        | .error e => return ([], stopRun e r)
        | .ok (waddr, weights) =>
          match ← atStream 1 wslot.visited (readRow a pos wslot.base waddr 4 wslot.size) with
          | .error e => return ([], stopRun e r)
          | .ok ws => return (scale (bytesNat ws), { r with weights := weights })

/-- One FP32 step of the reduction. -/
def reduceStep (w : DWord) (acc xs : List Nat) : List Nat :=
  acc.zipWith (fun a x => if parMax w then ((Fp.ofFmt 1).minMax true a x).1 else ((Fp.ofFmt 1).add .rne 0 a x).1) xs

/-- A group of rows makes an output: its accumulators at the start, and the number of its rows. -/
def groupStart (w : DWord) : List Nat :=
  List.replicate (parWidth w) (if parMax w then (Fp.ofFmt 1).signBit true + (Fp.ofFmt 1).infCode else 0)

def groupRows (w : DWord) : Nat := if parReduce w then parGroup w else 1

/-- Write the output of a group. -/
def runOutput (a : Agent) (pos : Pos) (acc : List Nat) (r : PipelineRun) : Act PipelineRun := do
  let w := r.word0
  let ys ← acc.mapM (activate w)
  let size := if parDfmt w = 1 then 4 else 2
  let bs := ys.flatMap (fun y => natBytes size ((convert 1 (parDfmt w) .rne true 0 y).getD (0, Flags.none)).1)
  let slot := r.out.headD Slot.inactive
  match ← nextAddress a 3 r.out with
  | .error e => return stopRun e r
  | .ok (addr, out) =>
    match ← atStream 3 slot.visited (writeRow a pos slot.base addr slot.size bs) with
    | .error e => return stopRun e r
    | .ok _ => return { r with out := out, written := r.written + 1 }

/-- One row, and the output of its group when it is the last of it or of the stream; then the run ends with the rows. -/
def runRow (a : Agent) (pos : Pos) (r : PipelineRun) : Act PipelineRun := do
  let w := r.word0
  let (xs, r) ← takeRow a pos r
  if r.fault.isSome then return r
  else do
    let acc := if parReduce w then reduceStep w (if r.taken = 0 then groupStart w else r.acc) xs else xs
    let more := (r.rows.headD Slot.inactive).active
    if more && decide (r.taken + 1 < groupRows w) then return { r with acc := acc, taken := r.taken + 1 }
    else do
      let r ← runOutput a pos acc { r with acc := [], taken := 0 }
      return { r with running := r.running && more }

/-- Up to n rows of a run.  DEDUCED: notes/assumptions/30.md. -/
def runPipeline (a : Agent) (pos : Pos) : Nat → PipelineRun → Act PipelineRun
  | 0, r => return r
  | n + 1, r => do
    let r ← runRow a pos r
    if r.running then runPipeline a pos n r else return r

/-- An upper bound on the rows that remain in the stream of a run. -/
def rowsLeft (r : PipelineRun) : Nat := r.rows.foldl (fun n x => n * (x.record.nest + 1)) 1

/-- The agent of a run. -/
def runAgent (pos : Pos) (r : PipelineRun) : Act Agent := do
  let s ← get
  match findCtx s r.issuer.ctx with
  | some c => return ⟨c, r.band.bind (findBand s), none, pos.die, pos, r.duty, r.writer,
      if r.service then serviceId pos else r.issuer, [], none, []⟩
  | none => dangling

/-- NMWAIT (R235): the run's writes are performed at dev scope, and the slots are released either way.  DEDUCED: notes/assumptions/30.md. -/
def nmwaitBody (f : Ext) : Act Unit := do
  let s ← get
  let t := s.cur
  let u := unitAt s t.pos
  waitIf u.busy
  let mine (r : PipelineRun) : Bool := r.issuer == t.fid && r.service == inHandler t
  let release (t : Thread) : Thread := (List.range 8).foldl (fun t n => bindPipeline false n t) t
  match u.runs.find? mine with
  | none => writeData f.d 0#64
  | some r =>
    let settle (s : State) : State :=
      let s := { s with mem := s.mem.applyWhere none (fun w => r.writes.any (fun x => decide (x.1 ≤ w.id) && decide (w.id < x.2))) }
      let t := s.cur
      let t := putChain t (slotChain t 8 0) r.rows
      let t := if r.weights = [] then t else putChain t (slotChain t 8 1) r.weights
      let t := putChain t (slotChain t 8 3) r.out
      putUnit { u with runs := u.runs.filter (fun x => !(mine x)) } { s with cur := release t }
    match r.fault with
    | some (cause, info) => reportTrap cause info settle
    | none => do
      modify settle
      writeData f.d (w64 r.written)

/-! ## Mailboxes (R236, R312) -/

/-- A Lupin core that a band of the issuing context holds. -/
def heldByContext (s : State) (p : Pos) : Bool :=
  match findCore s p with
  | some c =>
    match findBand s c.band with
    | some b => b.ctx == ctxOf s.cur
    | none => false
  | none => false

/-- DESIGN CHOICE: notes/assumptions/10.md. -/
def mbpostBody (f : Ext) : Act Unit := do
  let a ← readData f.a f.ta
  let b ← readData f.b f.tb
  trapIf (decide (32 ≤ a.toNat)) 0x05 a
  let s ← get
  let t := s.cur
  let p := coreOf (lupinPos t.pos.die (t.pos.cluster / 16) a.toNat)
  trapIf (!(heldByContext s p)) 0x06 a
  let box := f.imm.toNat % 64
  let u := unitAt s p
  let me := agentId t
  if (u.mailboxes.getD box none).isNone && !(waitsAhead u.waiters me box false) then do
    releaseAt 2
    let clock ← messageClock
    modUnit p (fun u => { u with mailboxes := u.mailboxes.set box (some (b, clock)), waiters := leaveQueue u.waiters me box })
  else
    throw (.hold (fun s => putUnit { unitAt s p with waiters := joinQueue (unitAt s p).waiters me box false } s))

/-- DEDUCED: notes/assumptions/11.md. -/
def mbwaitBody (f : Ext) : Act Unit := do
  let s ← get
  let t := s.cur
  let p := coreOf t.pos
  let box := f.a.toNat
  trapIf (!(heldByContext s p)) 0x06 (w64 box)
  let u := unitAt s p
  let me := agentId t
  match u.mailboxes.getD box none, waitsAhead u.waiters me box true with
  | some x, false => do
    modUnit p (fun u => { u with mailboxes := u.mailboxes.set box none, waiters := leaveQueue u.waiters me box })
    acquireOwn 2
    followClock x.2
    writeData f.d x.1
  | _, _ => throw (.hold (fun s => putUnit { unitAt s p with waiters := joinQueue (unitAt s p).waiters me box true } s))

/-! ## The pipeline's event -/

/-- PIPELINE_STOP (R235): the run goes on, row by row, until the rows end or a fault stops it; how far, before anything else happens,
is the device's choice.  Where the next row has to wait, nothing is done.  DEDUCED: notes/assumptions/30.md. -/
def execPipelineStop (core : Pos) : State → Out := whileClocked (fun s =>
  let u := unitAt s core
  match u.runs.find? (·.running) with
  | none => .next s
  | some r =>
    let (k, s) := pick (rowsLeft r) s
    match (do
      let a ← runAgent core r
      let x ← runPipeline a core (k + 1) r
      let x := { x with writes := r.writes ++ [(s.nextId, (← get).nextId)] }
      modUnit core (fun u => { u with runs := u.runs.map (fun y => if y.running then x else y) }) : Act Unit) s with
    | .ok (_, t) => .next t
    | .error (.fault e) => .fault e
    | .error _ => .next s)

/-! ## Meanings -/

/-- NMCFG (R234). -/
def execNmcfg (f : Ext) (s : State) : Out :=
  instr 0x33#6 0x0#4 f (nmcfgBody f) s

/-- NMRUN (R234). -/
def execNmrun (f : Ext) (s : State) : Out :=
  instr 0x33#6 0x1#4 f (nmrunBody f) s

/-- NMWAIT (R235). -/
def execNmwait (f : Base) (s : State) : Out :=
  instr 0x33#6 0x2#4 f.ext (nmwaitBody f.ext) s

/-- NMWAIT_EXT (R235). -/
def execNmwaitExt (f : Ext) (s : State) : Out :=
  instr 0x33#6 0x2#4 f (nmwaitBody f) s

/-- MBPOST (R236). -/
def execMbpost (f : Ext) (s : State) : Out :=
  instr 0x33#6 0x3#4 f (mbpostBody f) s

/-- MBWAIT (R236). -/
def execMbwait (f : Base) (s : State) : Out :=
  instr 0x33#6 0x4#4 f.ext (mbwaitBody f.ext) s

/-- MBWAIT_EXT (R236). -/
def execMbwaitExt (f : Ext) (s : State) : Out :=
  instr 0x33#6 0x4#4 f (mbwaitBody f) s

end Sys2Proof.Machine
end

