-- ==== Sys2Proof/Machine/Pool.lean ====
section
/-!
DEFINITION. Machine/Pool.lean: the Aster pool and the life of bands, firings and loops on the cores (09 R261 to R280, 12 R326,
R339, 13 R353 to R356).
-/

namespace Sys2Proof.Machine

/-! ## Free choices of the device -/

/-- k different elements of a list. -/
def pickSome {α : Type} : Nat → List α → State → List α × State
  | 0, _, s => ([], s)
  | k + 1, xs, s =>
    let (i, s) := pick xs.length s
    match xs[i]? with
    | none => ([], s)
    | some x =>
      let (ys, s) := pickSome k (xs.eraseIdx i) s
      (x :: ys, s)

/-! ## Gangs on cores (R265, R266) -/

/-- Cores that a gang holds. -/
def gangWidth (p : Packet) : Nat := if p.lupin then 1 else min p.instances 8

/-- Instances of a gang on one of its cores. -/
def instancesOn (p : Packet) (core : Nat) : Nat := (p.instances + gangWidth p - 1 - core) / gangWidth p

/-- Firing threads that a gang holds on one of its cores. -/
def threadsOn (p : Packet) (core : Nat) : Nat := min 4 (instancesOn p core)

/-- FIFO storage of one instance. -/
def fifoBytes (p : Packet) (a : Actor) : Nat :=
  ((List.range 4).map (fun k =>
    if (a.ins.getD k (0, 0)).2 = 0 then 0 else p.depths.getD k 0 * 2 ^ (a.ins.getD k (0, 0)).1)).foldl (· + ·) 0

def coreTaken (s : State) (p : Pos) : Bool := s.cores.any (fun c => c.pos == p)

/-- A core of a gang. -/
def placePos (lupin : Bool) (die : Nat) (g : GangPlace) (core : Nat) : Pos := ⟨lupin, die, g.cluster, core, 0⟩

/-- The physical core of gang core k of a gang. -/
def bandCore (b : Band) (gang k : Nat) : Option Pos :=
  (b.places[gang]?).bind (fun g => (g.cores[k]?).map (placePos b.packet.lupin b.die g))

/-- Every core that a band holds, with its gang. -/
def bandCores (b : Band) : List (Nat × Pos) :=
  (List.range b.places.length).flatMap (fun g =>
    match b.places[g]? with
    | some x => x.cores.map (fun c => (g, placePos b.packet.lupin b.die x c))
    | none => [])

/-! ## Checks at dispatch (R278) -/

/-- The eligible Lupin cores of a context, as die and number in it. -/
def eligibleLupins (c : Ctx) : List (Nat × Nat) :=
  ((List.range 512).filter c.lupins.getLsbD).map (fun i => (i / 128, i % 128))

def eligibleOf (c : Ctx) (p : Packet) : List (Nat × Nat) := if p.lupin then eligibleLupins c else eligibleClusters c

/-- The home of a node, as a position in the eligible list (R280). -/
def homeIndex (path : DWord) (count : Nat) : Nat :=
  let h := path * 0x9E3779B97F4A7C15#64
  (h ^^^ (h >>> 29)).toNat % count

/-- The clusters or Lupin cores of gangs 0 on, in a deterministic context. -/
def fixedPlaces (c : Ctx) (p : Packet) : List (Nat × Nat) :=
  let xs := eligibleOf c p
  let home := xs.getD (homeIndex p.path xs.length) (0, 0)
  let ys := xs.filter (fun x => x.1 == home.1)
  (List.range p.gangs).map (fun g => ys.getD ((ys.idxOf home + g) % ys.length) (0, 0))

/-- The actor of a node, or the number of the check that fails, in the order of R278.  DEDUCED: notes/assumptions/23.md. -/
def nodeCheck (s : State) (c : Ctx) (p : Packet) : Except Nat Actor :=
  match descriptorWords s c none p.entry.val with
  | none => .error 1
  | some ws =>
    let a := actorOf ws
    let ports := (a.ins ++ a.outs).filter (fun x => x.2 != 0)
    let home := (fixedPlaces { c with det := true } { p with gangs := 1 }).headD (0, 0)
    if !(descriptorClean ws) || ports.any (fun x => decide (7 < x.1)) then .error 2
    else if (List.range 4).any (fun k => decide (p.depths.getD k 0 < (a.ins.getD k (0, 0)).2)) then .error 3
    else if if p.lupin then decide (32768 < p.instances * fifoBytes p a)
        else decide (196608 < p.coreBytes + instancesOn p 0 * fifoBytes p a) then .error 4
    else if p.lupin && (p.clusterKib != 0 || p.coreKib != 0) then .error 5
    else if c.det && decide (((eligibleOf c p).filter (fun x => x.1 == home.1)).length < p.gangs) then .error 6
    else if 32 < p.tiles * gangWidth p then .error 7
    else if p.lupin && ports.any (fun x => decide (6 ≤ x.1)) then .error 8
    else .ok a

/-! ## Resources (R266, R267) -/

/-- Accumulator tiles of a cluster that bands hold. -/
def tilesUsed (s : State) (die cluster : Nat) : Nat :=
  (s.bands.map (fun b =>
    if b.die = die ∧ b.packet.lupin = false then
      ((b.places.filter (fun g => g.cluster == cluster)).map (fun g => b.packet.tiles * g.cores.length)).foldl (· + ·) 0
    else 0)).foldl (· + ·) 0

/-- First bytes of the free runs of a cluster store. -/
def freeRuns (s : State) (die cluster bytes : Nat) : List Nat :=
  if bytes = 0 then [0]
  else
    ((List.range 768).map (· * 4096)).filter (fun lo =>
      decide (lo + bytes ≤ 0x300000) &&
        !(s.bands.any (fun b => b.die == die && !b.packet.lupin && b.places.any (fun g =>
          g.cluster == cluster && overlaps lo bytes g.storeBase b.packet.clusterBytes))))

/-- The runs of a cluster store that a gang may get; in a deterministic context one, which PATH and the eligible clusters decide
(R280).  DESIGN CHOICE: notes/assumptions/23.md. -/
def runsFor (s : State) (c : Ctx) (p : Packet) (die cluster : Nat) : List Nat :=
  let fixed := Config.storeRun p.path c.clusters % ((0x300000 - p.clusterBytes) / 4096 + 1) * 4096
  (freeRuns s die cluster p.clusterBytes).filter (fun lo => !c.det || p.clusterBytes == 0 || lo == fixed)

/-- The place of a Lupin core by its number on a die: stack · 32 + channel. -/
def lupinPlace (n : Nat) : GangPlace := ⟨n / 32 * 16 + n % 16, [n % 32 / 16 * 4], 0⟩

/-- The number of a Lupin core on its die. -/
def lupinNumber (p : Pos) : Nat := p.cluster / 16 * 32 + p.core / 4 * 16 + p.cluster % 16

/-- A unit runs a core: compute dies 0–3, stack 4 · die + stack, Lupin core 128 · die + number.  DEDUCED: notes/assumptions/23.md. -/
def unitRuns (kind : UnitKind) (number : Nat) (p : Pos) : Bool :=
  match kind with
  | .computeDie => !p.lupin && p.die == number
  | .stack => p.lupin && 4 * p.die + p.cluster / 16 == number
  | .lupinCore => p.lupin && 128 * p.die + lupinNumber p == number
  | _ => false

/-- No failed unit, which stays fused off (14 R379, R380), runs a core. -/
def coreWorks (s : State) (p : Pos) : Bool := !(s.dev.failedUnits.any (fun x => unitRuns x.1 x.2.1 p))

/-- Cores of a cluster that work and that no band holds. -/
def freeCores (s : State) (die cluster : Nat) : List Nat :=
  (List.range 8).filter (fun k => coreWorks s ⟨false, die, cluster, k, 0⟩ && !(coreTaken s ⟨false, die, cluster, k, 0⟩))

/-- A cluster, or a Lupin core, can accept a gang. -/
def accepts (s : State) (c : Ctx) (p : Packet) (die n : Nat) : Bool :=
  if p.lupin then ((lupinPlace n).cores.all (fun k =>
    let at' := placePos true die (lupinPlace n) k
    coreWorks s at' && !(coreTaken s at')))
  else
    let free := freeCores s die n
    (if c.det then (List.range (gangWidth p)).all free.contains else decide (gangWidth p ≤ free.length)) &&
      decide (tilesUsed s die n + p.tiles * gangWidth p ≤ 32) && runsFor s c p die n != []

/-- Place a gang on a cluster, or a Lupin core, that accepts it. -/
def placeGang (c : Ctx) (p : Packet) (die n : Nat) (s : State) : GangPlace × State :=
  if p.lupin then (lupinPlace n, s)
  else
    let (cores, s) := if c.det then (List.range (gangWidth p), s) else pickSome (gangWidth p) (freeCores s die n) s
    let (base, s) := pickSome 1 (runsFor s c p die n) s
    (⟨n, cores, base.headD 0⟩, s)

def placeGangs (c : Ctx) (p : Packet) (die : Nat) : List Nat → State → List GangPlace × State
  | [], s => ([], s)
  | n :: rest, s =>
    let (g, s) := placeGang c p die n s
    let (gs, s) := placeGangs c p die rest s
    (g :: gs, s)

/-! ## Placement (R279) -/

/-- Scores of one operand: die, cluster or Lupin core, and bytes · 720720, which every count of samples divides.  DEDUCED: notes/assumptions/23.md. -/
def operandScores (s : State) (c : Ctx) (lupin : Bool) (x : TCap) : List (Nat × Option Nat × Nat) :=
  let b := boundsIn s c.number x.val
  let len := b.2 - b.1
  if !x.tag || !(capHas x.val permLD || capHas x.val permST) || b.1 / 2 ^ 50 != s.dev.number then []
  else if b.1 % 2 ^ 50 / 2 ^ 40 = 0x3FF then
    if b.1 % 2 ^ 50 / 2 ^ 38 % 4 = 2 then
      [(b.1 / 2 ^ 28 % 4, if lupin then none else some (b.1 / 2 ^ 22 % 64), len * 720720)]
    else []
  else
    let n := min 16 ((len + 65535) / 65536)
    (List.range n).filterMap (fun i =>
      (keyOf s c none (b.1 + i * len / n) 1).map (fun k =>
        let o := ownerOfKey s.mem k
        (o.die, if lupin then some (lupinNumber o) else none, len * 720720 / n)))

def rankInsert (score : Nat → Nat) (x : Nat) : List Nat → List Nat
  | [] => [x]
  | y :: ys => if score x ≤ score y then y :: rankInsert score x ys else x :: y :: ys

/-- In descending score, equal scores in the order of the list. -/
def descending (score : Nat → Nat) (xs : List Nat) : List Nat := xs.foldl (fun ys x => rankInsert score x ys) []

/-- Die, and the clusters or Lupin cores of gangs 0 on; none when no die can accept the band.  DEDUCED: notes/assumptions/23.md. -/
def choosePlaces (s : State) (c : Ctx) (p : Packet) : Option (Nat × List Nat) :=
  if c.det then
    let xs := fixedPlaces c p
    if xs.all (fun x => accepts s c p x.1 x.2) then some ((xs.headD (0, 0)).1, xs.map (·.2)) else none
  else
    let scores := p.operands.flatMap (operandScores s c p.lupin)
    let total (want : Nat × Option Nat × Nat → Bool) : Nat := ((scores.filter want).map (·.2.2)).foldl (· + ·) 0
    (descending (fun d => total (fun x => x.1 == d)) (List.range 4)).findSome? (fun d =>
      let xs := (descending (fun n => total (fun x => x.1 == d && x.2.1 == some n))
        (List.range (if p.lupin then 128 else 64))).filter (accepts s c p d)
      if p.gangs ≤ xs.length then some (d, xs.take p.gangs) else none)

/-! ## Clearing, saving and restoring stores (01 R46, 13 R355) -/

/-- Clear a range of store bytes: zero, untagged, empty. -/
def clearStore (lo n : Nat) (m : Memory) : Memory :=
  let out (unit x : Nat) : Bool := decide (x * unit < lo) || decide (lo + n ≤ x * unit)
  { m with
    cells := m.cells.filter (fun c => out 1 c.1)
    tags := m.tags.filter (out 16)
    poison := m.poison.filter (out 16)
    full := m.full.filter (out 4)
    storeClocks := m.storeClocks.filter (fun x => out 1 x.key) }

/-- The contents of a range of store bytes. -/
def storeImage (lo n : Nat) (band gang : Nat) (core : Option Nat) (m : Memory) : StoreImage :=
  let inside (unit x : Nat) : Bool := decide (lo ≤ x * unit) && decide (x * unit < lo + n)
  { band := band
    gang := gang
    core := core
    cells := (m.cells.filter (fun c => inside 1 c.1)).map (fun c => (c.1 - lo, c.2))
    tags := (m.tags.filter (inside 16)).map (· - lo / 16)
    poison := (m.poison.filter (inside 16)).map (· - lo / 16)
    full := (m.full.filter (inside 4)).map (· - lo / 4) }

/-- Put an image back at a first byte. -/
def putImage (lo : Nat) (x : StoreImage) (m : Memory) : Memory :=
  { m with
    cells := x.cells.foldl (fun cs c => cellPut cs (lo + c.1) c.2) m.cells
    tags := x.tags.foldl (fun ts g => setAdd ts (lo / 16 + g)) m.tags
    poison := x.poison.foldl (fun ts g => setAdd ts (lo / 16 + g)) m.poison
    full := x.full.foldl (fun ts g => setAdd ts (lo / 4 + g)) m.full }

/-- The store allotments of a band: gang, gang core or none for the cluster store, first byte and size. -/
def bandStores (b : Band) : List (Nat × Option Nat × Nat × Nat) :=
  if b.packet.lupin then []
  else
    (List.range b.places.length).flatMap (fun g =>
      match b.places[g]? with
      | none => []
      | some x =>
        (g, none, clusterKey b.die x.cluster x.storeBase, b.packet.clusterBytes) ::
          (List.range x.cores.length).map (fun k =>
            (g, some k, coreKey b.die x.cluster (x.cores.getD k 0) 0, b.packet.coreBytes)))

def clearStores (b : Band) (s : State) : State :=
  { s with mem := (bandStores b).foldl (fun m x => clearStore x.2.2.1 x.2.2.2 m) s.mem }

/-- A Lupin core's mailboxes empty, its parameter block cleared, and the runs of its band gone; the service thread's go on
(07 R234, 11 R310, R312, R318). -/
def LupinUnit.cleared (u : LupinUnit) : LupinUnit :=
  { u with mailboxes := List.replicate 64 none, params := none, runs := u.runs.filter (·.service) }

/-- The units of a Lupin band's cores are cleared. -/
def clearUnits (b : Band) (s : State) : State :=
  if b.packet.lupin then (bandCores b).foldl (fun s x => putUnit (unitAt s x.2).cleared s) s else s

/-! ## Writer regions of a band (05 R172) -/

def putOwnerField (e : Nat) (owner : Option (Nat × Nat)) (m : Memory) : Memory :=
  m.put 4 e (natBytes 8 (entryWithOwner (m.word64 e) owner).toNat)

/-- The leaf entries of the regions that pass to a band at dispatch.  DEDUCED: notes/assumptions/22.md. -/
def claimsOf (s : State) (c : Ctx) (p : Packet) : List Nat :=
  if c.det then
    regionEntries ((p.operands.filter (fun x => capHas x.val permST)).flatMap (regionsOf s c))
  else []

/-- No other live band or loop holds a region that a band would claim.  DEDUCED: notes/assumptions/22.md. -/
def regionsFree (s : State) (c : Ctx) (p : Packet) : Bool :=
  (claimsOf s c p).all (fun e => (liveOwner s e).isNone && (regionLoop s e).isNone)

/-! ## Ranking (R275, R276) -/

def effectivePrio (s : State) (n : Node) : Nat := min 7 (n.packet.prio + (s.dev.cycle - n.readyAt) / 2 ^ 20)

/-- A node ranks before another. -/
def ranksBefore (s : State) (a b : Node) : Bool :=
  let x := [7 - effectivePrio s a, a.entered, a.ctx, a.sequence]
  let y := [7 - effectivePrio s b, b.entered, b.ctx, b.sequence]
  decide (x < y)

def rankNode (s : State) (n : Node) : List Node → List Node
  | [] => [n]
  | m :: ms => if ranksBefore s n m then n :: m :: ms else m :: rankNode s n ms

/-- A ready node that still waits to be dispatched. -/
def nodePending (s : State) (n : Node) : Bool :=
  n.ready &&
    (match n.loop with
     | none => true
     | some id =>
       match findLoop s id with
       | some l => loopBandRuns s l && l.set == [] && (l.state == .queued || l.state == .reserve || l.state == .commit || l.state == .pack)
       | none => false)

/-- The ready nodes in rank order. -/
def rankedNodes (s : State) : List Node := (s.nodes.filter (nodePending s)).foldl (fun ms n => rankNode s n ms) []

/-- Free cores for a loop (12 R326): in a deterministic context core 7 of every eligible cluster, otherwise any free core of
every cluster of the device that has one. -/
def loopCanPlace (s : State) (c : Ctx) : Bool :=
  if c.det then
    eligibleClusters c != [] && (eligibleClusters c).all (fun x => (freeCores s x.1 x.2).contains 7)
  else (List.range 256).any (fun i => freeCores s (i / 64) (i % 64) != [])

/-- DEDUCED: notes/assumptions/23.md. -/
def loopSet (c : Ctx) (s : State) : List Pos × State :=
  if c.det then ((eligibleClusters c).map (fun x => ⟨false, x.1, x.2, 7, 0⟩), s)
  else
    (List.range 256).foldl
      (fun (r : List Pos × State) i =>
        let (k, s') := pickSome 1 (freeCores s (i / 64) (i % 64)) r.2
        (r.1 ++ k.map (fun k => ⟨false, i / 64, i % 64, k, 0⟩), s'))
      ([], s)

/-- Resources for a node are free. -/
def canPlace (s : State) (c : Ctx) (n : Node) : Bool :=
  match n.loop with
  | some _ => loopCanPlace s c
  | none => (choosePlaces s c n.packet).isSome

/-- What the pool finds for a node. -/
inductive Verdict where
  | fails (check : Nat) | waitsRegions | lacks | places
  deriving DecidableEq, Repr

/-- DEDUCED: notes/assumptions/23.md. -/
def verdict (s : State) (n : Node) : Verdict :=
  match findCtx s n.ctx with
  | none => .lacks
  | some c =>
    match if n.loop.isNone && !n.resumed then nodeCheck s c n.packet else .ok ⟨[], []⟩ with
    | .error k => .fails k
    | .ok _ =>
      if n.loop.isNone && !n.resumed && !(regionsFree s c n.packet) then .waitsRegions
      else if canPlace s c n then .places else .lacks

/-- SPAWN created the node, from a band that is running or draining. -/
def spawnedLive (s : State) (n : Node) : Bool :=
  n.spawned &&
  match n.parent.bind (fun p => s.bands.find? (fun b => b.sequence == p)) with
  | some b => b.state == .running || b.state == .draining
  | none => false

/-- The nodes that may be dispatched, in the order of rank: down to the head, and below it the children of live bands. -/
def candidates (s : State) : List Node :=
  let xs := rankedNodes s
  let upToHead := (xs.takeWhile (fun n => decide (n.passed < 64))).length + 1
  xs.take upToHead ++ (xs.drop upToHead).filter (spawnedLive s)

/-- The node that the pool dispatches: the highest-ranked one that can be, and none below the head but children of live
bands.  DEDUCED: notes/assumptions/23.md. -/
def poolChoice (s : State) : Option Node :=
  (candidates s).find? (fun n => match verdict s n with | .fails _ => true | .places => true | _ => false)

/-- A node has become ready, or a core has been released, since the pool passed nodes over.  DEDUCED: notes/assumptions/23.md. -/
def poolNews (s : State) : Bool :=
  s.nodes.any (fun n => nodePending s n && !(s.poolTried.1.contains (n.entry, n.readyAt))) ||
    s.poolTried.2.any (fun p => !(s.cores.any (fun c => c.pos == p)))

/-- The pool has dispatched what it can: every candidate that lacks resources is passed over, once for each release or
readiness.  DEDUCED: notes/assumptions/23.md. -/
def passOver (s : State) : State :=
  let passed := if poolNews s then ((candidates s).filter (fun n => verdict s n == .lacks)).map (·.entry) else []
  { s with
    nodes := s.nodes.map (fun n => if passed.contains n.entry then { n with passed := n.passed + 1 } else n)
    poolTried := ((s.nodes.filter (nodePending s)).map (fun n => (n.entry, n.readyAt)), s.cores.map (·.pos)) }

/-- After a dispatch, what made it possible is news to those that could not be dispatched. -/
def poolActed (s : State) : State := { s with poolTried := ([], s.poolTried.2 ++ s.cores.map (·.pos)) }

/-! ## Dispatch (R267, R276 to R278) -/

def freshInstance (gang index : Nat) : Instance :=
  ⟨gang, index, .idle, 0, [[], [], [], []], [0, 0, 0, 0], [none, none, none, none], [none, none, none, none]⟩

/-- The band of a node reaches RESERVING: every allotment of every gang is reserved, and its die follows what the launch
followed (07 R212). -/
def reserveBand (c : Ctx) (n : Node) (a : Actor) (die : Nat) (where' : List Nat) (s : State) : State :=
  let p := n.packet
  let regions := claimsOf s c p
  let (places, s) := placeGangs c p die where' s
  let b : Band :=
    { entry := n.entry
      ctx := n.ctx
      packet := p
      actor := a
      state := .reserving
      wasDraining := false
      evict := false
      evicted := false
      die := die
      places := places
      instances := (List.range p.gangs).flatMap (fun g => (List.range p.instances).map (freshInstance g))
      spawned := []
      exited := []
      parent := n.parent
      child := n.child
      bySpawn := n.spawned
      entered := n.entered
      sequence := n.sequence
      regions := regions
      handovers := []
      stores := []
      clock := n.clock
      endClock := []
      saveAt := none }
  clearUnits b (clearStores b
    { s with
      mem := (regions.foldl (fun m e => putOwnerField e (some (n.entry, 0)) m) s.mem).applyClock die (some (.band n.ctx n.entry)) n.clock
      bands := s.bands ++ [b]
      nodes := s.nodes.filter (fun m => m.entry != n.entry)
      cores := s.cores ++ (bandCores b).map (fun x => freshCore x.2 n.entry x.1) })

/-- A saved core, put on a physical core: its stash mappings follow its store (R355). -/
def moveCore (p : Pos) (c : CoreState) : CoreState :=
  { c with
    pos := p
    stash := c.stash.map (fun o => o.map (fun x => { x with localAt := coreKey p.die p.cluster p.core (x.localAt % 2 ^ 18) })) }

/-- A thread of a band placed again: the thread of the same number on its gang core; TID reports where it runs. -/
def moveThread (b : Band) (t : Thread) : Thread :=
  match bandCore b t.fid.gang (t.fid.inst % gangWidth b.packet) with
  | some p =>
    let pos := { p with thread := t.pos.thread }
    { t with pos := pos, tidw := tidWord t.fid.firing t.fid.inst t.fid.gang pos }
  | none => t

/-- The threads of a band's own firings. -/
def ofBand (b : Band) (t : Thread) : Bool :=
  t.fid.ctx == b.ctx && t.fid.band == b.entry && (match t.duty with | .firing => true | _ => false)

/-- The clocks of R352 run again: while saved, they hold what had passed.  DEDUCED: notes/assumptions/24.md. -/
def startClocks (now : Nat) (t : Thread) : Thread :=
  { t with runFrom := now - t.runFrom, waitFrom := t.waitFrom.map (now - ·) }

/-- A suspended firing returns to the state that it left; the stopped instruction executes again (13 R344). -/
def unsuspend (now : Nat) (t : Thread) : Thread :=
  match t.hold with
  | .suspended parked => startClocks now { t with hold := if parked then .parked else .running, stopped := false }
  | _ => t

/-- The state of a loop that is saved, as R334 names the states left.  DEDUCED: notes/assumptions/31.md. -/
def saveLoopState (x : LoopState) : LoopState :=
  match x with
  | .queued => .saved 0#2
  | .reserve => .saved 1#2
  | .commit => .saved 2#2
  | .pack => .saved 3#2
  | y => y

def resumeLoopState (x : LoopState) : LoopState :=
  match x with
  | .saved w => if w = 0#2 then .queued else if w = 1#2 then .reserve else if w = 2#2 then .commit else .pack
  | y => y

/-- Records of hardware threads that hold nothing are dropped; the issuing thread's place goes to who runs there. -/
def settleThreads (s : State) : State :=
  let ts := s.threads.filter (fun t => t.duty != .idle)
  match if s.cur.duty = .idle then ts.find? (fun t => t.pos == s.cur.pos && t.hold == .running) else none with
  | some t => { s with cur := t, threads := ts.filter (fun x => x != t) }
  | none => { s with threads := ts }

/-- The band goes on: its firings and loops return to the states they left (R271, R339).  DEDUCED: notes/assumptions/32.md. -/
def resumeBand (b : Band) (s : State) : State :=
  let s := settleThreads (mapThreads (firesFor s b) (unsuspend s.dev.cycle) s)
  let s : State :=
    { s with
      bands := s.bands.map (fun x =>
        if x.entry = b.entry then { b with state := if b.wasDraining then .draining else .running, evicted := false } else x)
      loops := s.loops.map (fun l => if l.band = b.entry then { l with state := resumeLoopState l.state } else l) }
  (s.loops.filter (fun l => l.band == b.entry && l.set != [])).foldl (fun s l => startLoopFirings l.id s) s

/-- The 16-byte granule of a part of the save area that holds an item is poisoned (13 R362).  DESIGN CHOICE: notes/assumptions/32.md. -/
def savedPoison (m : Memory) (part : Option (DWord × Nat)) (holder item : Nat) : Bool :=
  match part with
  | some (k, n) => decide (16 ≤ n) && setHas m.poison (k.toNat / 16 + Config.saveGranule holder item % (n / 16))
  | none => false

/-- A thread as it comes back from the save area: a register read back from a poisoned granule holds poison. -/
def restoreThread (m : Memory) (part : Option (DWord × Nat)) (holder : Nat) (t : Thread) : Thread :=
  let bad (st : RegState) (item : Nat) : RegState := if st == .full && savedPoison m part holder item then .poisoned else st
  { t with
    g := Vector.ofFn (fun i => { t.g[i] with st := bad t.g[i].st i.val })
    v := Vector.ofFn (fun i => { t.v[i] with st := bad t.v[i].st (64 + i.val) })
    bad := ((List.range 24).filter (fun k => k != badP 0 && savedPoison m part holder (96 + k))).foldl setAdd t.bad }

/-- A store image as it comes back: its poisoned granules, and those read back from poisoned ones. -/
def restoreImage (m : Memory) (b : Band) (size holder : Nat) (x : StoreImage) : StoreImage :=
  { x with poison := ((List.range (size / 16)).filter (savedPoison m b.saveAt holder)).foldl setAdd x.poison }

/-- The records of a band's threads come back from the save area. -/
def restoreThreads (b : Band) (s : State) : State :=
  let mine := (allThreads s).filter (firesFor s b)
  mapThreads (firesFor s b) (fun t => restoreThread s.mem b.saveAt (mine.idxOf t) t) s

/-- The units of an evicted Lupin band's cores come back, beside the service threads' runs. -/
def restoreUnits (b : Band) (s : State) : State :=
  let held := (s.savedUnits.filter (·.1 == b.entry)).map (·.2)
  let s := { s with savedUnits := s.savedUnits.filter (·.1 != b.entry) }
  ((bandCores b).zip held).foldl
    (fun s x =>
      let u := unitAt s x.1.2
      putUnit { u with mailboxes := x.2.mailboxes, params := x.2.params, runs := u.runs ++ x.2.runs } s) s

/-- A band saved by eviction is placed again and gets back what was saved; its new die follows what it had seen (R271, R355).
DEDUCED: notes/assumptions/32.md. -/
def replaceBand (c : Ctx) (b : Band) (die : Nat) (where' : List Nat) (s : State) : State :=
  let (places, s) := placeGangs c b.packet die where' s
  let b := { b with die := die, places := places }
  let held := s.savedCores.filter (fun x => x.band == b.entry && x.loop.isNone)
  let cores := (bandCores b).mapIdx (fun i x =>
    match held[i]? with
    | some c => moveCore x.2 c
    | none => freshCore x.2 b.entry x.1)
  let s := restoreUnits b (clearUnits b (clearStores b s))
  let stores := bandStores b
  let m := stores.foldl
    (fun m x =>
      match s.images.find? (fun y => y.band == b.entry && y.gang == x.1 && y.core == x.2.1) with
      | some y => putImage x.2.2.1 (restoreImage s.mem b x.2.2.2 (2 ^ 16 + stores.idxOf x) y) m
      | none => m)
    s.mem
  let s : State :=
    { s with
      mem := m.applyClock die (some (.band b.ctx b.entry)) b.clock
      cores := s.cores ++ cores
      savedCores := s.savedCores.filter (fun x => x.band != b.entry || x.loop.isSome)
      images := s.images.filter (fun x => x.band != b.entry)
      nodes := s.nodes.filter (fun n => !(n.entry == b.entry && n.resumed)) }
  resumeBand { b with saveAt := none } (mapThreads (ofBand b) (moveThread b) (restoreThreads b s))

/-- The pool dispatches a node, or finds that it fails (R278). -/
def dispatchNode (n : Node) (s : State) : State :=
  match findCtx s n.ctx with
  | none => s
  | some c =>
    if n.resumed then
      match findBand s n.entry, choosePlaces s c n.packet with
      | some b, some (die, xs) => replaceBand c b die xs s
      | _, _ => s
    else
      match nodeCheck s c n.packet with
      | .error k =>
        ctxFault n.ctx kindNodefail 0x05 n.packet.path 0#64 0#64 (w64 k)
          { s with nodes := s.nodes.filter (fun m => m.entry != n.entry) }
      | .ok a =>
        match choosePlaces s c n.packet with
        | some (die, xs) => reserveBand c n a die xs s
        | none => s

/-- POOL_DISPATCH (R276): the highest-ranked ready node that can be placed is dispatched; a loop waits for LOOP_DISPATCH. -/
def execPoolDispatch : State → Out := whileClocked (fun s =>
  match poolChoice s with
  | none => .next (passOver s)
  | some n => if n.loop.isSome then .next s else .next (poolActed (dispatchNode n s)))

/-- BAND_DISPATCH (R267, R271): every gang's resources are reserved, and the band runs. -/
def execBandDispatch (band : Nat) : State → Out := whileClocked (fun s =>
  .next { s with bands := s.bands.map (fun b =>
    if b.entry = band ∧ b.state = .reserving then { b with state := .running } else b) })

/-- Two saved channels of a loop that one core takes over. -/
def mergeChannel (x y : Channel) : Channel :=
  { nextId := max x.nextId y.nextId
    firstAway := match x.firstAway, y.firstAway with
      | some a, some b => some (min a b)
      | a, b => a.or b
    live := x.live ++ y.live
    faulted := x.faulted ++ y.faulted
    record := match x.record, y.record with
      | some r, some _ => some { r with overflow := true }
      | some r, none => some r
      | none, r => r }

/-- What a core of a loop set takes over: its saved core, or several when the new set is smaller (12 R339).  DEDUCED: notes/assumptions/31.md. -/
def takeOver (x : CoreState) : List CoreState → CoreState
  | [] => x
  | y :: rest => takeOver
      { x with
        channels := x.channels.zipWith mergeChannel y.channels
        serials := x.serials.zipWith (fun a b => if a.toNat < b.toNat then b else a) y.serials } rest

/-- LOOP_DISPATCH (12 R326): the loop band takes its loop cores; a loop that was evicted goes on in the state it left, its
started firings waiting for their threads (R339).  DEDUCED: notes/assumptions/31.md. -/
def execLoopDispatch (loop : Nat) : State → Out := whileClocked (fun s =>
  match findLoop s loop, poolChoice s with
  | some l, some n =>
    if n.loop ≠ some loop then .next s
    else
      match findCtx s l.ctx with
      | none => .fault .danglingRecord
      | some c =>
        let (xs, s) := loopSet c s
        let held := s.savedCores.filter (fun x => x.loop == some loop)
        let cores := xs.mapIdx (fun i p => takeOver { freshCore p l.band l.gang with loop := some loop }
          (((List.range held.length).filter (fun j => j % xs.length == i)).filterMap (held[·]?)))
        let s := { s with
          cores := s.cores ++ cores
          savedCores := s.savedCores.filter (fun x => x.loop != some loop) }
        let s := putLoop { l with set := xs, state := if l.state = .queued then .pack else l.state } s
        -- a started firing returns to the core that takes over its own
        let s := mapThreads (fun t => match t.duty with | .loop d => d.loop == loop | _ => false)
          (fun t => match t.duty with
            | .loop d => { t with duty := .loop { d with core := d.core % xs.length } }
            | _ => t) s
        .next (poolActed (startLoopFirings loop s))
  | _, _ => .next s)

/-! ## Firings (R262 to R265, R269) -/

/-- The rule of R262; while it does not hold, an instance that has no thread yet is not FIREABLE.  DESIGN CHOICE: notes/assumptions/24.md. -/
def fireable (b : Band) (i : Instance) : Bool :=
  let sources := (List.range 4).filter (fun k => inRate b k != 0)
  i.state == .idle && (sources != [] || i.count == 0) &&
    sources.all (fun k => decide (inRate b k ≤ (i.fifos.getD k []).length)) &&
    (List.range 4).all (fun j =>
      outRate b j == 0 ||
        (match i.outs.getD j none with
         | none => true
         | some route =>
           match findInstance b (routeGang route) (routeInst route) with
           | some d => decide (outRate b j ≤ roomOf b d (routePort route))
           | none => true))

/-- The thread of its core that an instance fires on in a deterministic context. -/
def mappedThread (b : Band) (inst : Nat) : Nat := inst / gangWidth b.packet % 4

/-- A thread of its gang core that a firing of an instance may take. -/
def mayTake (s : State) (c : Ctx) (b : Band) (gang inst thread : Nat) : Bool :=
  let k := inst % gangWidth b.packet
  (match bandCore b gang k with
   | some p => threadFree s { p with thread := thread }
   | none => false) &&
    (if c.det then thread == mappedThread b inst else decide (thread < threadsOn b.packet k))

/-- Firings of a gang core that are parked, in the order in which they return: those whose WAIT limit has passed first
(R265, 13 R352).  DEDUCED: notes/assumptions/24.md. -/
def parkedOn (s : State) (b : Band) (gang k : Nat) : List Thread :=
  let xs := s.threads.filter (fun t =>
    t.hold == .parked && ofBand b t && t.fid.gang == gang && t.fid.inst % gangWidth b.packet == k)
  xs.filter (·.waitPassed) ++ xs.filter (fun t => !t.waitPassed)

/-- Fireable instances of a gang core, from the one that follows the core's last on, or else the lowest.  DEDUCED, DESIGN
CHOICE: notes/assumptions/24.md. -/
def fireableOn (s : State) (b : Band) (gang k : Nat) : List Nat :=
  let xs := (List.range b.packet.instances).filter (fun i =>
    i % gangWidth b.packet == k &&
      (match findInstance b gang i with | some x => fireable b x | none => false))
  match (bandCore b gang k).bind (fun p => (findCore s p).bind (·.lastInstance)) with
  | some n => xs.filter (fun i => decide (n < i)) ++ xs.filter (fun i => decide (i ≤ n))
  | none => xs

/-- A firing starts (R263, 01 R19). -/
def startFiring (b : Band) (i : Instance) (thread : Nat) (s : State) : State :=
  match bandCore b i.gang (i.index % gangWidth b.packet) with
  | none => s
  | some p =>
    let pos := { p with thread := thread }
    let f : FiringId := ⟨b.ctx, b.entry, i.gang, i.index, i.count⟩
    let t := entryThread pos .firing f (ctxWord s.dev.number b.packet b.ctx) b.packet.path
      (tidWord i.count i.index i.gang pos) (allotWord b.packet) (unsealCap b.packet.entry.val) b.packet.operands s.dev.cycle
    let bound := (List.range 4).map (fun j => (i.outs.getD j none).isSome && outRate b j != 0)
    let s := placeThread { t with boundAtStart := bound } s
    let s := modInstance b.entry i.gang i.index (fun x => { x with state := .running }) s
    let s := (List.range 4).foldl
      (fun s j =>
        match i.outs.getD j none with
        | some route =>
          modInstance b.entry (routeGang route) (routeInst route)
            (fun d => { d with reserved := setAt d.reserved (routePort route) (· + outRate b j) }) s
        | none => s)
      s
    { s with cores := s.cores.map (fun c => if c.pos = p then { c with lastInstance := some i.index } else c) }

/-- FIRING_START (R263): a fireable instance gets a free thread of its core: before it go the parked firings that R265 gives
the thread to, and outside deterministic contexts the fireable instances that precede it.  DEDUCED: notes/assumptions/24.md. -/
def execFiringStart (band gang inst thread : Nat) (s : State) : Out :=
  match findBand s band with
  | none => .next s
  | some b =>
    match findCtx s b.ctx, findInstance b gang inst with
    | some c, some i =>
      let k := inst % gangWidth b.packet
      let parkedFirst := (parkedOn s b gang k).any (fun t => !c.det || mappedThread b t.fid.inst == thread)
      let first := c.det || (fireableOn s b gang k).head? == some inst
      if b.state = .running && fireable b i && mayTake s c b gang inst thread && !parkedFirst && first then
        .next (startFiring b i thread s)
      else .next s
    | _, _ => .next s

/-! ## The save area (13 R353, R355, 09 R269) -/

def ascending (x : Nat) : List Nat → List Nat
  | [] => [x]
  | y :: ys => if x ≤ y then x :: y :: ys else y :: ascending x ys

/-- Numbers in ascending order. -/
def rankedBy (xs : List Nat) : List Nat := xs.foldl (fun ys x => ascending x ys) []

/-- The parts of a context's save area in use: by bands saved there, and by parked firings. -/
def saveParts (s : State) (ctx : Nat) : List (Nat × Nat) :=
  ((s.bands.filter (fun b => b.ctx == ctx)).filterMap (·.saveAt) ++
    ((allThreads s).filter (fun t => t.fid.ctx == ctx)).filterMap (·.parkedAt)).map (fun x => (x.1.toNat, x.2))

/-- The first place of n bytes in a save area that no part in use touches.  DEDUCED: notes/assumptions/32.md. -/
def savePlace (s : State) (c : Ctx) (n : Nat) : Option Nat :=
  let lo := c.saveArea.toNat
  let used := saveParts s c.number
  let free (k : Nat) : Bool :=
    decide (lo ≤ k) && decide (k + n ≤ lo + c.saveSize) && !(used.any (fun x => overlaps k n x.1 x.2))
  (rankedBy (lo :: used.map (fun x => x.1 + x.2))).find? free

/-- A part of the save area is written: what its bytes are the spec leaves open (13 R353).  DESIGN CHOICE: notes/assumptions/32.md. -/
def writePart (part : Option (DWord × Nat)) (s : State) : State :=
  match part with
  | none => s
  | some (k, n) =>
    let s := recallStashes none k.toNat n s
    { performWrite 4 k.toNat (natBytes n (Config.freeValue s.free (8 * n)).toNat) false ⟨0, 0, 0, 0, 0⟩ s with free := s.free + 1 }

/-- A part of the save area lies in HBM. -/
def partFits (s : State) (part : Option (DWord × Nat)) : Bool :=
  match part with
  | some (k, n) => decide (k.toNat < 2 ^ 41) && keyExists s.mem k.toNat n
  | none => false

/-- Where a parked firing's state is saved: in a part of the size that R353 counts for a firing thread, if the save area has room
for one.  DESIGN CHOICE: notes/assumptions/24.md. -/
def parkPlace (s : State) (ctx : Nat) : Option (DWord × Nat) :=
  (((findCtx s ctx).bind (fun c => savePlace s c 8192)).map (fun k => (w64 k, 8192))).filter (fun x => partFits s (some x))

/-- A thread leaves its hardware thread, is saved, and is kept as parked, after those parked before it. -/
def parkThread (t : Thread) (s : State) : State :=
  let part := parkPlace s t.fid.ctx
  let s := placeThread { Thread.idle with pos := t.pos } (writePart part s)
  { s with threads := s.threads ++ [{ t with hold := .parked, parkedAt := part }] }

/-- PARK (R269): a firing that has waited 1,024 cycles gives its thread to the fireable instance that waits for it.  DEDUCED: notes/assumptions/24.md. -/
def execPark (f : FiringId) (s : State) : Out :=
  match threadOf s f, findBand s f.band with
  | some t, some b =>
    match findCtx s b.ctx, t.waitFrom with
    | some c, some w =>
      let k := f.inst % gangWidth b.packet
      let waiting := (fireableOn s b f.gang k).find? (fun i => !c.det || mappedThread b i == t.pos.thread)
      let otherFree := !c.det && (List.range (threadsOn b.packet k)).any (fun n => threadFree s { t.pos with thread := n })
      match waiting.bind (findInstance b f.gang) with
      | some i =>
        if ofBand b t && t.hold == .running && !t.stopped && b.state == .running && decide (w + 1024 ≤ s.dev.cycle) &&
            !otherFree then
          .next (startFiring b i t.pos.thread
            (modInstance b.entry f.gang f.inst (fun x => { x with state := .parked }) (parkThread t s)))
        else .next s
      | none => .next s
    | _, _ => .next s
  | _, _ => .next s

/-- A parked record goes to a hardware thread; a WAIT limit that passed while it was parked is delivered at once (13 R352). -/
def unpark (t : Thread) (pos : Pos) (tid : DWord) (s : State) : State :=
  let s := { s with threads := s.threads.filter (fun x => !(x.hold == .parked && x.fid == t.fid)) }
  let s := placeThread { restoreThread s.mem t.parkedAt 0 t with pos := pos, tidw := tid, hold := .running, parkedAt := none } s
  if t.waitPassed then trapFiring t.fid 0x19 0#64 s else s

/-- PARKED_RESTORE (R265): a parked firing, first in its order, returns to a free thread of its core; a loop firing of a
resumed loop to the thread of its position (12 R339).  DEDUCED: notes/assumptions/24.md, notes/assumptions/31.md. -/
def execParkedRestore (f : FiringId) (thread : Nat) (s : State) : Out :=
  match s.threads.find? (fun t => t.hold == .parked && t.fid == f) with
  | none => .next s
  | some t =>
    match t.duty with
    | .loop d =>
      match findLoop s d.loop with
      | none => .next s
      | some l =>
        let pos := loopBack l d t
        if l.set != [] && pos.thread == thread && threadFree s pos && loopBandRuns s l then
          let clock := match findBand s l.band with | some b => b.clock | none => []
          let s := { s with mem := s.mem.applyClock pos.die (some (.agent t.fid)) clock }
          .next (unpark { t with duty := .loop { d with core := d.core % l.set.length } } pos (tidWord (t.fid.firing % 2 ^ 16 * 2 ^ 16 + d.position) (if d.commit then 1 else 0) 0 pos) s)
        else .next s
    | _ =>
      match findBand s f.band, findCtx s f.ctx with
      | some b, some c =>
        let k := f.inst % gangWidth b.packet
        let order := (parkedOn s b f.gang k).filter (fun x => !c.det || mappedThread b x.fid.inst == thread)
        match bandCore b f.gang k with
        | some p =>
          let pos := { p with thread := thread }
          if (b.state == .running || b.state == .draining) && mayTake s c b f.gang f.inst thread &&
              (order.head?.map (·.fid)) == some f then
            .next (unpark t pos (tidWord f.firing f.inst f.gang pos)
              (modInstance b.entry f.gang f.inst (fun x => { x with state := .running }) s))
          else .next s
        | none => .next s
      | _, _ => .next s

/-- ELEMENT_ARRIVAL (R263): the oldest element that an output port holds in flight enters its FIFO, when there is room. -/
def execElementArrival (index : Nat) (s : State) : Out :=
  match s.net.elements[index]? with
  | none => .next s
  | some e =>
    let same (x : Element) : Bool := x.fromPort e.band e.srcGang e.srcInst e.srcPort
    match findBand s e.band with
    | none => .next s
    | some b =>
      match findInstance b e.gang e.inst with
      | none => .next s
      | some d =>
        if (s.net.elements.take index).any same || roomOf b d e.port == 0 then .next s
        else
          .next (modInstance e.band e.gang e.inst (pushElement e.port e.sent)
            { s with net := { s.net with elements := s.net.elements.eraseIdx index } })

/-! ## Exit (R272) -/

/-- The exit test: every instance idle and none fireable, no element in flight, no trap state. -/
def exitTest (s : State) (b : Band) : Bool :=
  b.instances.all (fun i => i.state == .idle && !(fireable b i)) && !(s.net.elements.any (fun e => e.band == b.entry)) &&
    !((allThreads s).any (fun t => firesFor s b t && t.trapped))

/-- BAND_DRAIN (R272). -/
def execBandDrain (band : Nat) (s : State) : Out :=
  match findBand s band with
  | none => .next s
  | some b =>
    if b.state = .running && exitTest s b then
      .next { s with bands := s.bands.map (fun x => if x.entry = band then { x with state := .draining } else x) }
    else .next s

/-- A transfer or pipeline run that a band's firings issued, its loops' included, is in flight. -/
def copiesInFlight (s : State) (b : Band) : Bool :=
  let mine (w : Writer) : Bool :=
    match w with
    | .gang e _ => e == b.entry
    | .loop n => s.loops.any (fun l => l.id == n && l.band == b.entry)
    | .foreign => false
  s.cores.any (fun c => c.channels.any (fun ch => ch.live.any (fun x => x.issuer.ctx == b.ctx && mine x.writer))) ||
    s.units.any (fun u => u.runs.any (fun r => r.running && !r.service && r.band == some b.entry))

/-- Engine work of a band that its drain waits for. -/
def enginesBusy (s : State) (b : Band) : Bool :=
  copiesInFlight s b || s.cores.any (fun c => c.band == b.entry && c.queue != []) ||
    s.loops.any (fun l => l.band == b.entry && l.state != .finished && l.state != .faulted) ||
    (allThreads s).any (fun t => firesFor s b t && !(ofBand b t))

/-- Every stash mapping of the band's cores is unstashed. -/
def unstashBand (b : Band) (s : State) : State :=
  (bandCores b).foldl (fun s x => (List.range 8).foldl (fun s n => unstashAt x.2 n s) s) s

/-- The numbers that stand for a band where its firings and those of its loops are named. -/
def bandIds (s : State) (b : Band) : List Nat := b.entry :: (s.loops.filter (fun l => l.band == b.entry)).map (fun l => loopBand l.id)

/-- Every write of the band and its loops is performed at dev scope. -/
def performBand (b : Band) (s : State) : State :=
  { s with mem := s.mem.applyWhere none (fun w => w.issuer.ctx == b.ctx && (bandIds s b).contains w.issuer.band) }

/-- What follows a band's exit follows all that its firings, and those of its loops, had seen (07 R213, R214). -/
def exitClock (s : State) (b : Band) : List Nat :=
  (s.loops.filter (fun l => l.band == b.entry)).foldl (fun c l => clockMerge c (clockMerge l.clock l.endClock))
    (clockMerge b.clock b.endClock)

/-- The band's resources are released, its regions with them. -/
def releaseBand (b : Band) (s : State) : State :=
  let s := { s with mem := b.regions.foldl (fun m e => putOwnerField e none m) s.mem }
  let s := clearUnits b (clearStores b s)
  { s with
    cores := s.cores.filter (fun c => !((bandCores b).any (fun x => x.2 == c.pos)))
    bands := s.bands.filter (fun x => x.entry != b.entry)
    loops := s.loops.filter (fun l => l.band != b.entry) }

/-- The stores of a band's ended firings that the remote timeout has passed are lost, and the host hears so (05 R143, 11 R321). -/
def loseBandStores (b : Band) (s : State) : State :=
  let late (r : BandStore) : Bool := timeoutPassed s b.ctx r.issued 4
  (b.stores.filter late).foldl (fun s r => ctxFault b.ctx kindLostwrite 0x10 r.pathw r.tidw 0#64 r.address s)
    { s with bands := s.bands.map (fun x => if x.entry = b.entry then { x with stores := x.stores.filter (fun r => !(late r)) } else x) }

/-- The stall interval of a context begins anew (14 R369). -/
def progress (ctx : Nat) (s : State) : State :=
  { s with ctxs := s.ctxs.map (fun c => if c.number = ctx then { c with lastProgress := s.dev.cycle } else c) }

/-- BAND_EXIT (R272): its engines retired and its writes performed or lost, the band releases what it holds and applies its set
mask; a JOINC of its parent may complete. -/
def execBandExit (band : Nat) (s : State) : Out :=
  match findBand s band with
  | none => .next s
  | some b =>
    if b.state = .draining && !(enginesBusy s b) && b.stores.all (fun r => timeoutPassed s b.ctx r.issued 4) then
      let s := performBand b (unstashBand b (loseBandStores b s))
      let clock := exitClock s b
      let s := progress b.ctx (changeEvents b.ctx b.packet.set true clock (releaseBand b s))
      .next { s with bands := s.bands.map (fun x =>
        if b.parent = some x.sequence then { x with exited := x.exited ++ [(b.child, clock)] } else x) }
    else .next s

/-! ## Pre-emption (13 R354, R355) -/

def suspend (t : Thread) : Thread :=
  match t.hold with
  | .suspended _ => t
  | h => { t with hold := .suspended (h == .parked) }

/-- A firing's thread moves off its hardware thread. -/
def offThread (t : Thread) (s : State) : State :=
  if s.cur.fid = t.fid ∧ s.cur.duty = t.duty then
    { s with cur := { Thread.idle with pos := s.cur.pos }, threads := s.threads ++ [s.cur] }
  else s

/-- The dies on which a band and its loops run. -/
def bandDies (s : State) (b : Band) : List Nat :=
  b.die :: (s.loops.filter (fun l => l.band == b.entry)).flatMap (fun l => l.set.map (·.die))

/-- The vector clock of all that a band's firings have seen, and of what its stores hold. -/
def gatherBand (b : Band) (s : State) : List Nat :=
  let held := (bandStores b).flatMap (fun x =>
    s.mem.storeClocks.filter (fun y => decide (x.2.2.1 ≤ y.key) && decide (y.key < x.2.2.1 + x.2.2.2)))
  let c := ((allThreads s).filter (firesFor s b)).foldl (fun c t => clockMerge c (s.mem.clockAt (eyeOf t))) b.clock
  held.foldl (fun c x => clockMerge c x.clock) c

/-- The state of an evicted band moves to the save area: its stores, cores, units and threads (R355).  DEDUCED: notes/assumptions/32.md. -/
def evictBand (b : Band) (s : State) : State :=
  let s := (bandCores b).foldl
    (fun s x =>
      match findCore s x.2 with
      | some c => (c.stash.filterMap id).foldl (fun s y => stashClean y s) s
      | none => s)
    s
  let clock := gatherBand b s
  let images := (bandStores b).map (fun x => storeImage x.2.2.1 x.2.2.2 b.entry x.1 x.2.1 s.mem)
  let cores := (bandCores b).filterMap (fun x => (findCore s x.2).map (fun c =>
    { c with grant := 0, stash := c.stash.map (fun o => o.map (fun y => { y with valid := [] })) }))
  let sets := (s.loops.filter (fun l => l.band == b.entry)).flatMap (·.set)
  let loopCores := sets.filterMap (findCore s)
  let units := if b.packet.lupin then (bandCores b).map (fun x =>
    let u := unitAt s x.2
    (b.entry, { u with runs := u.runs.filter (!·.service), waiters := [] })) else []
  let s := writePart b.saveAt (clearUnits b (clearStores b s))
  { s with
    images := s.images ++ images
    savedCores := s.savedCores ++ cores ++ loopCores
    savedUnits := s.savedUnits ++ units
    cores := s.cores.filter (fun c => !((bandCores b).any (fun x => x.2 == c.pos)) && !(sets.contains c.pos))
    loops := s.loops.map (fun l => if l.band = b.entry then { l with set := [] } else l)
    bands := s.bands.map (fun x => if x.entry = b.entry then { x with evicted := true, places := [], clock := clock } else x) }

/-- The check that eviction makes before it saves a firing: its part of the save area lies in HBM (13 R344).  DEDUCED: notes/assumptions/32.md. -/
def saveFits (s : State) (b : Band) : Bool := partFits s b.saveAt

/-- A loop firing that was started returns by its position once the loop has a set again (12 R339). -/
def parkLoopFiring (t : Thread) : Thread := { t with hold := match t.hold with | .suspended _ => .suspended true | h => h }

/-- BAND_SAVED (R354): its engines done, a band that is being pre-empted reaches SAVED, and the host is told; not while
its context is being killed (R362).  A firing that eviction cannot save is reported, with CAUSE 0, and the band is retained (R344).  DEDUCED, DESIGN CHOICE:
notes/assumptions/32.md. -/
def execBandSaved (band : Nat) (s : State) : Out :=
  match findBand s band with
  | none => .next s
  | some b =>
    let killing : Bool := match findCtx s b.ctx with | some c => c.killing | none => true
    if b.state ≠ .preempting ∨ copiesInFlight s b ∨ killing then .next s
    else
      let mine := firesFor s b
      let evict := b.evict && saveFits s b
      let s := if b.evict && !evict then
          ((allThreads s).filter mine).foldl (fun s t => ctxFault b.ctx kindSavefail 0 t.pathw t.tidw t.tpc t.tinfo s) s
        else s
      let s := if evict ∧ mine s.cur then offThread s.cur s else s
      -- a parked firing's saved state moves with its band's
      let s := if evict then mapThreads mine (fun t => { restoreThread s.mem t.parkedAt 0 t with parkedAt := none }) s else s
      let s := mapThreads mine suspend s
      let s := if evict then evictBand b (mapThreads (fun t => mine t && !(ofBand b t)) parkLoopFiring s) else s
      let s : State :=
        { s with
          loops := s.loops.map (fun l => if l.band = b.entry then { l with state := saveLoopState l.state } else l)
          bands := s.bands.map (fun x =>
            if x.entry = band then { x with state := .saved, saveAt := if evict then x.saveAt else none } else x) }
      .next (ctxFault b.ctx kindPreempted 0x18 b.packet.path 0#64 0#64 (w64 (if evict then 1 else 0)) s)

end Sys2Proof.Machine
end

