-- ==== Sys2Proof/Machine/Coherence.lean ====
section
/-!
DEFINITION. Machine/Coherence.lean: the directory and the caches (08 R249 to R253), the visibility of writes (08 R257), page
changes and migration (13 R357, R359, 09 R281), errors (13 R360), and accesses from outside the package (08 R260, 14 R370).
-/

namespace Sys2Proof.Machine

/-! ## Lines (08 R249, R252, R253) -/

/-- A mapping's line holds a byte of a physical range. -/
def stashWithin (lo n : Nat) (_ : Pos) (_ : Nat) (s : State) (x : StashMap) (l : Nat) : Bool :=
  (stashPieces s x l).any (fun y => overlaps y.1 (y.2.1) lo n)

/-- DIRECTORY_RECALL (R253): the holders of a line give it up or keep a shared copy; a dirty one is written back. -/
def execDirectoryRecall (line : Nat) (invalidate : Bool) (s : State) : Out :=
  if copyOwned s none (128 * line) 128 then .next s
  else
    let s := if invalidate then stashDropAll (stashHolds (128 * line)) s else s
    let m :=
      if keyIsView (128 * line) then
        match s.mem.views.find? (fun v => v.line == line) with
        | some v => s.mem.viewWriteback v (!invalidate)
        | none => s.mem
      else s.mem.cleanLine line
    .next { s with mem := m }

/-- DIRTY_LINE_EVICTION (R249, R252): the line, or zeros for a zero line, is written to HBM. -/
def execDirtyLineEviction (line : Nat) (s : State) : Out :=
  if keyIsView (128 * line) then
    match s.mem.views.find? (fun v => v.line == line) with
    | some v => .next { s with mem := s.mem.viewWriteback v false }
    | none => .next s
  else .next { s with mem := s.mem.cleanLine line }

/-- WRITE_VISIBILITY (R257): the write that `id / 8` numbers becomes visible to die `id mod 8`, which has applied
everything before it.  DEDUCED: notes/assumptions/7.md. -/
def execWriteVisibility (id : Nat) (s : State) : Out :=
  .next { s with mem := s.mem.applyWhere none (fun w => w.id == id / 8 && w.toDie == id % 8 && s.mem.ready w) }

/-! ## Page changes (13 R359) -/

/-- A transfer that has reached the page of a leaf entry pins it until it retires (05 R165). -/
def pagePinned (s : State) (entryAt : Nat) : Bool :=
  s.cores.any (fun c => c.channels.any (fun ch => ch.live.any (fun x => x.pins.contains entryAt)))

/-- An RSV on its way has used the entry of the frame in which its cell lies (R359 step 3). -/
def rsvWithin (s : State) (lo n : Nat) : Bool :=
  s.net.rsvs.any (fun m => m.parts.any (fun x => overlaps x.1 x.2 lo n))

/-- Every cached line and stash line of a physical range is recalled (08 R253), and every write there is performed. -/
def recallRange (lo n : Nat) (s : State) : State :=
  let s := stashDropAll (stashWithin lo n) s
  let m := (s.mem.views.filter (fun v => overlaps (128 * v.line) 128 lo n || s.mem.unitTouches v.line lo n)).foldl
    (fun m v => m.viewWriteback v false) s.mem
  let m := m.applyWhere none (fun w => w.within lo n)
  { s with mem := { m with dirty := m.dirty.filter (fun d => !(overlaps (128 * d.line) 128 lo n)) } }

/-- The new word of a leaf: the device's fields stay as they stand (R358). -/
def newLeaf (old new : DWord) : DWord :=
  let w := entryWithMigrating new false
  if entryKind new = 2 ∧ entryKind old = 2 then
    entryWithOwner w (if entryOwned old then some (entryBand old, entryGang old) else none)
  else entryWithOwner w none

/-- Steps 5 to 7 of a change; the last one of a MAPWRITE sends its reply.  DEDUCED: notes/assumptions/38.md. -/
def finishChange (x : PageChange) (s : State) : State :=
  let old := s.mem.word64 x.entryAt
  let from' := entryPhys old
  let placed := entryKind old == 2 && (!(entryPlace old) || entryPlaced old)
  let s := if placed then recallRange from' x.size s else s
  let s : State :=
    match x.migration with
    | some (frame, _) =>
      let image := storeImage from' x.size 0 0 none s.mem
      let s : State := { s with mem := putImage frame image (clearStore frame x.size s.mem) }
      { s with
        ctxs := s.ctxs.map (fun c =>
          if c.number = x.ctx then { c with frames := c.frames.modify (keyDie from') (· ++ [from']) } else c)
        mem := { s.mem with counts := s.mem.counts.filter (fun k => !(k.ctx == x.ctx && k.page == x.page)) } }
    | none => s
  let s : State :=
    { s with
      mem := { s.mem.put 4 x.entryAt (natBytes 8 (newLeaf old x.word).toNat) with
        changes := s.mem.changes.filter (fun y => y != x) } }
  match x.reply with
  | some r =>
    if s.mem.changes.any (fun y => y.reply == some r) then s else { s with dev := { s.dev with sent := s.dev.sent ++ [r] } }
  | none => s

/-- LEAF_CHANGE_RELEASE (R359): the accesses that used the old entry are performed and its pins have ended, so the new entry
is written and waiting accesses translate again.  DEDUCED: notes/assumptions/38.md. -/
def execLeafChangeRelease (index : Nat) (s : State) : Out :=
  match s.mem.changes[index]? with
  | none => .next s
  | some x =>
    if pagePinned s x.entryAt || rsvWithin s (entryPhys (s.mem.word64 x.entryAt)) x.size ||
        (s.mem.changes.take index).any (fun y => y.entryAt == x.entryAt) then .next s
    else .next (finishChange x s)

/-- Begin a change: MIGRATING is set in the entry, and every later translation of the page waits.  DEDUCED: notes/assumptions/38.md. -/
def beginChange (x : PageChange) (s : State) : State :=
  { s with mem := { s.mem.put 4 x.entryAt (natBytes 8 (entryWithMigrating (s.mem.word64 x.entryAt) true).toNat) with
      changes := s.mem.changes ++ [x] } }

/-- The access counters of a page show a majority of remote accesses over 2^16 (09 R281). -/
def remoteMajority (s : State) (ctx : Nat) (page : DWord) (home : Nat) : Bool :=
  match s.mem.counts.find? (fun k => k.ctx == ctx && k.page == page) with
  | some k =>
    let total := k.accesses.foldl (· + ·) 0
    decide (2 ^ 16 ≤ total) && decide (total < 2 * (total - k.accesses.getD home 0))
  | none => false

/-- PAGE_MIGRATION (09 R281): a PLACE page begins to move to a die that has a free frame.  DEDUCED: notes/assumptions/38.md. -/
def execPageMigration (ctx : Nat) (address : DWord) (die : Nat) (s : State) : Out :=
  match findCtx s ctx with
  | none => .next s
  | some c =>
    match walk s.mem c (address.toNat % 2 ^ 50) with
    | none => .next s
    | some l =>
      let page := w64 (address.toNat % 2 ^ 50 / 65536 * 65536)
      let home := keyDie (entryPhys l.word)
      if !(entryPlace l.word) || !(entryPlaced l.word) || entryMigrating l.word || home == die ||
          !(remoteMajority s ctx page home) then .next s
      else
        match c.frames.getD die [] with
        | [] => .next s
        | f :: rest =>
          let s := { s with ctxs := s.ctxs.map (fun x => if x.number = ctx then { x with frames := x.frames.set die rest } else x) }
          .next (beginChange ⟨ctx, page, 65536, l.entryAt, entryWithPhys l.word f, some (f, die), none⟩ s)

/-! ## Accesses from outside (08 R260, 14 R370) -/

/-- The hub as an agent of a context: it makes no writer check of a gang's own. -/
def hubAgent (c : Ctx) : Agent :=
  ⟨c, none, none, 4, ⟨false, 4, 0, 0, 0⟩, .idle, .foreign, ⟨2 ^ 16, 2, 0, 0, 0⟩, [], none, []⟩

/-- Read a range of a context as the hub sees it; poison is an error. -/
def hubRead (c : Ctx) (addr size : Nat) : Act (List Byte) := do
  let a := hubAgent c
  let parts ← (pageCuts addr size).mapM (fun r => do
    let p ← reach a r.1 r.2 .read false false
    match p with
    | .bytes _ _ | .split _ => do
      let x ← readPlace a p r.1 r.2
      return x.1
    | _ => trap 0x09 (w64 r.1))
  return parts.flatten

/-- Write a range of a context, performed at dev scope with the hub's clock. -/
def hubWrite (c : Ctx) (checked : Bool) (addr : Nat) (bs : List Byte) (tag : Bool) : Act Unit := do
  let a := hubAgent c
  let _ ← (pageCuts addr bs.length).mapM (fun r => do
    let p ← reach a r.1 r.2 .write checked true
    match p with
    | .bytes _ _ | .split _ => modify (performPlace 4 p ((bs.drop (r.1 - addr)).take r.2) tag a.issuer)
    | _ => trap 0x06 (w64 r.1))

/-- A full/empty instruction of another device at its word: it waits in turn with the others (05 R149). -/
def hubFullWord (c : Ctx) (who : FiringId) (addr fn : Nat) (value : Word) : Act Unit := do
  trapIf (addr % 4 != 0) 0x08 (w64 addr)
  let a := hubAgent c
  let stores := fn == 2 || fn == 3
  let p ← reach a addr 4 (if stores then .write else .read) stores true
  match p with
  | .bytes k _ => do
    trapIf (!(keyIsCluster k)) 0x06 (w64 addr)
    let s ← get
    let full := decide (fn ≤ 1)
    if decide (fn ≤ 2) && !(s.mem.isFull k == full && !(waitsAhead s.mem.waiters who k full)) then
      modMem (fun m => { m with waiters := joinQueue m.waiters who k full })
    else do
      modMem (fun m => { m with waiters := leaveQueue m.waiters who k })
      if stores then do
        modify (performWrite 4 k (natBytes 4 value.toNat) false a.issuer)
        modMem (fun m => m.setFull k true)
      else do
        checkPoison k 4 addr
        if fn = 0 then modMem (fun m => m.setFull k false)
  | _ => trap 0x06 (w64 addr)

/-- A barrier instruction of another device at its word (05 R161): BARR and BARRX wait while the phase is full, BWAIT until it has
flipped. -/
def hubBarrier (c : Ctx) (addr fn : Nat) (value : DWord) : Act Unit := do
  trapIf (addr % 16 != 0) 0x08 (w64 addr)
  let a := hubAgent c
  let p ← reach a addr 16 .write false true
  match p with
  | .bytes k _ => do
    trapIf (!(keyIsCluster k)) 0x06 (w64 addr)
    checkPoison k 16 addr
    let b := barrierOf (bytesNat ((← get).mem.bytes k 16))
    let put (b : BarrierWord) : Act Unit := modify (performWrite 4 k (natBytes 16 (barrierNat b)) false a.issuer)
    if fn = 0 then do
      trapIf (value.toNat = 0 || decide (32767 < value.toNat)) 0x05 (w64 addr)
      put ⟨0, value.toNat, 0, 0, 0⟩
    else if fn = 1 || fn = 2 then do
      waitIf (!(decide (b.arrived < b.expected)))
      put (b.arrive (if fn = 1 then 0 else value.toInt))
    else if fn = 5 then put (b.addBytes value.toInt)
    else waitIf (fn == 3 && b.phase == value.toNat % 2)
  | _ => trap 0x06 (w64 addr)

/-- The effect of an access from outside, or nothing when it fails: its failure is answered to the other side. -/
def outside' (m : Act Unit) (s : State) : Out :=
  match m s with
  | .ok (_, t) => .next t
  | .error (.fault f) => .fault f
  | .error _ => .next s

/-- REMOTE_ACCESS_ARRIVAL (R260): an access of another device is performed at the home agents.  Its answer leaves the
device.  DESIGN CHOICE: notes/assumptions/28.md. -/
def execRemoteAccessArrival (r : RemoteAccess) (s : State) : Out :=
  let withCtx (ctx : Nat) (addr : DWord) (f : Ctx → Act Unit) : Out :=
    match findCtx s ctx with
    | some c => if addr.toNat / 2 ^ 50 = s.dev.number then outside' (f c) s else .next s
    | none => .next s
  match r with
  | .load _ ctx a size => withCtx ctx a (fun c => do
      let _ ← hubRead c a.toNat size)
  | .store _ ctx a bs => withCtx ctx a (fun c => hubWrite c true a.toNat bs false)
  | .storeCap _ ctx a x => withCtx ctx a (fun c => do
      trapIf (a.toNat % 16 != 0) 0x08 a
      hubWrite c true a.toNat (natBytes 16 x.val.toNat) (x.tag && capSealed x.val && capHas x.val permGLOBAL))
  | .atomic _ ctx a op width operand returns => withCtx ctx a (fun c => do
      trapIf (width = 0 || a.toNat % width != 0) 0x08 a
      let g := hubAgent c
      let p ← reach g a.toNat width .write returns true
      let _ ← updateAt g p a.toNat width (some 3) (fun old => combine op (8 * width) old (operand.toNat % 2 ^ (8 * width))))
  | .packet _ ctx a bs => withCtx ctx a (fun c => hubWrite c true a.toNat bs false)
  | .fullWord device ctx a number fn x => withCtx ctx a (fun c => hubFullWord c ⟨2 ^ 16, 3, device, number, ctx⟩ a.toNat fn x)
  | .barrier _ ctx a fn x => withCtx ctx a (fun c => hubBarrier c a.toNat fn x)

/-- A session is open and not lost, and no warm reset runs. -/
def sessionOpen (s : State) : Bool :=
  (match s.dev.session with | some x => x.lost.isNone | none => false) && s.dev.warmReset.isNone && s.dev.power != .d3

/-- A write of the host is performed, or must wait. -/
def hostWrite (w : HostWrite) (s : State) : Option State :=
  match findCtx s w.ctx with
  | none => some s
  | some c =>
    match hubWrite c false w.address.toNat w.data false s with
    | .ok (_, t) => some t
    | .error .wait | .error (.hold _) => none
    | .error _ => some s

/-- The host's writes in order; those that must wait are kept. -/
def hostWrites : List HostWrite → State → State
  | [], s => s
  | w :: rest, s =>
    match hostWrite w s with
    | some t => hostWrites rest t
    | none => hostWrites rest { s with net := { s.net with hostWrites := s.net.hostWrites ++ [w] } }

/-- The writes that wait are tried again. -/
def retryWrites (s : State) : State := hostWrites s.net.hostWrites { s with net := { s.net with hostWrites := [] } }

/-- HOST_UET_WRITE (14 R370): it carries the hub's clock and is performed at dev scope before any later command. -/
def execHostUetWrite (ctx : Nat) (address : DWord) (data : List Byte) (s : State) : Out :=
  if sessionOpen s then .next (hostWrites [⟨ctx, address, data⟩] (retryWrites s)) else .next s

/-- HOST_UET_READ (14 R370): what the host reads is kept with what the device sends.  DESIGN CHOICE: notes/assumptions/34.md. -/
def execHostUetRead (ctx : Nat) (address : DWord) (count : Nat) (s : State) : Out :=
  match findCtx s ctx with
  | some c =>
    if sessionOpen s then
      outside'
        (do
          let bs ← hubRead c address.toNat count
          modDev (fun d => { d with sent := d.sent ++ [⟨0, ctx, 0, 0, count, wordsOf ((count + 7) / 8) bs⟩] }))
        s
    else .next s
  | none => .next s

/-! ## Errors (13 R360) -/

/-- The place and the address of an error fit each other: L2 also holds view lines (08 R249). -/
def errorFits (m : Memory) (place : ErrorPlace) (k : Nat) : Bool :=
  match place with
  | .coreStore => keyIsCore k
  | .clusterStore => keyIsCluster k
  | .l2 => decide (k < 2 ^ 41) || (keyIsView k && (m.heldView (k / 128)).isSome)
  | .hbm | .stash => decide (k < 2 ^ 41)

/-- UNCORRECTABLE_ERROR: the granule that it touches is poisoned, in HBM under a dirty copy when it strikes there.  DEDUCED: notes/assumptions/38.md. -/
def execUncorrectableError (place : ErrorPlace) (address : Nat) (s : State) : Out :=
  if !(errorFits s.mem place address) then .next s
  else
    let g := address / 16
    let m :=
      if place = .hbm ∧ s.mem.dirty.any (fun d => d.line == address / 128) then
        { s.mem with dirty := s.mem.dirty.map (fun d =>
            if d.line = address / 128 then { d with poison := setAdd d.poison g } else d) }
      else s.mem.setPoison g
    .next { s with mem := m, dev := { s.dev with errorLog := s.dev.errorLog ++ [(place, address)] } }

/-- CORRECTED_SOFT_ERROR: logged; nothing else changes.  DEDUCED: notes/assumptions/38.md. -/
def execCorrectedSoftError (place : ErrorPlace) (address : Nat) (s : State) : Out :=
  .next { s with dev := { s.dev with correctedLog := s.dev.correctedLog ++ [(place, address)] } }

end Sys2Proof.Machine
end

