-- ==== Sys2Proof/Machine/Control.lean ====
section
/-!
DEFINITION. Machine/Control.lean: control flow, the close of a firing, traps raised by software and system registers
(04 R130 to R138).
-/

namespace Sys2Proof.Machine

/-! ## Branches -/

/-- pc := the address of the base word + IMM32 (R130). -/
def branchTo (f : Ext) : Act Unit := modCur (fun t => { t with pc := t.pc + f.imm.signExtend 64 })

/-- The test of BRP (02 R71). -/
def brpTest (sub : Nat) (p : Word) : Bool := if sub = 0 then p != 0#32 else if sub = 1 then p == 0xFFFFFFFF#32 else p == 0#32

def brpBody (f : Ext) : Act Unit := do
  let p ← readP f.c
  if brpTest f.sub.toNat p then branchTo f else advance f

def callBody (f : Ext) : Act Unit := do
  let link := nextPc (← get).cur f
  writeData f.d link
  branchTo f

def retBody (f : Ext) : Act Unit := do
  let a ← readData f.a f.ta
  trapIf (a.extractLsb' 0 2 != 0#2) 0x08 a
  modCur (fun t => { t with pc := a })

/-- JMPC (R131): a cursor that is no multiple of 4 becomes the pc as it stands.  DESIGN CHOICE: notes/assumptions/8.md. -/
def jmpcBody (f : Ext) : Act Unit := do
  let a ← readG f.a f.ta
  let cursor := capCursor a.val
  trapIf (!a.tag) 0x04 cursor
  trapIf (decide (1 < capType a.val)) 0x07 cursor
  modCur (fun t => { t with code := unsealCap a.val, pc := cursor })

/-- LOOP (R132). -/
def loopBody (f : Ext) : Act Unit := do
  let count ← readData f.a f.ta
  if count = 0#64 then advance f
  else do
    writeData f.a (count - 1#64)
    if count = 1#64 then advance f else branchTo f

/-- The code of ETRAP (R134). -/
def etrapCode (f : Ext) : DWord := if f.hasExt then f.imm.signExtend 64 else imm6 f

/-! ## System registers (01 R33) -/

/-- A word of the event vector. -/
def eventWord (events : BitVec 256) (k : Nat) : DWord := events.extractLsb' (64 * k) 64

/-- XDONE of a channel of the thread's core; 2, as at band dispatch, when no band holds the core. -/
def xdone (s : State) (channel : Nat) : Nat :=
  match findCore s s.cur.pos with
  | some c => (c.channels.getD channel ⟨2, none, [], [], none⟩).done
  | none => 2

/-- MFS. -/
def readSystem (sel : Nat) : Act DWord := do
  let s ← get
  let t := s.cur
  if sel = 0 then return t.ctxw
  else if sel = 1 then return t.pathw
  else if sel = 2 then return t.tidw
  else if sel = 3 then return t.allotw
  else if sel ≤ 7 then do
    let c ← getCtx
    return eventWord c.events (sel - 4)
  else if sel ≤ 11 then return w64 (xdone s (sel - 8))
  else if sel = 12 then do
    readGood [badTcause]
    return t.tcause
  else if sel = 13 then do
    readGood [badTpc]
    return t.tpc
  else if sel = 14 then do
    readGood [badTinfo]
    return t.tinfo
  else if sel = 15 then do
    readGood [badFstat]
    return t.fstat
  else return w64 s.dev.cycle

/-- MTS: reserved bits are discarded; TCAUSE, TPC and TINFO need SYS. -/
def writeSystem (sel : Nat) (x : DWord) : Act Unit := do
  let t := (← get).cur
  trapIf (sel != 15 && !(capHas t.code permSYS)) 0x06 (capCursor t.code)
  modCur (fun t =>
    if sel = 12 then { t with tcause := x &&& 0xFF#64, bad := setDrop t.bad badTcause }
    else if sel = 13 then { t with tpc := x &&& ~~~3#64, bad := setDrop t.bad badTpc }
    else if sel = 14 then { t with tinfo := x, bad := setDrop t.bad badTinfo }
    else { t with fstat := x &&& fstatMask, bad := setDrop t.bad badFstat })

def mfsBody (f : Ext) : Act Unit := do
  let x ← readSystem f.a.toNat
  writeData f.d x

def mtsBody (f : Ext) : Act Unit := do
  let x ← readData f.a f.ta
  writeSystem f.d.toNat x

/-! ## Full/empty states of registers (R137, R138) -/

def femptyGBody (f : Ext) : Act Unit := do
  if f.d = 0#6 then return ()
  waitIf ((gAt (← get).cur f.d).st == .pending)
  modCur (fun t => { t with g := t.g.set f.d.toNat { t.g[f.d.toNat] with st := .empty } })

def femptyVBody (f : Ext) : Act Unit := do
  waitIf ((vAt (← get).cur f.d.toNat).st == .pending)
  modCur (fun t => { t with v := t.v.setIfInBounds f.d.toNat { vAt t f.d.toNat with st := .empty } })

/-- A read of a channel would find an element within the firing's RATE. -/
def channelReady (s : State) (port : Nat) : Bool :=
  match findBand s s.cur.fid.band with
  | some b =>
    match findInstance b s.cur.fid.gang s.cur.fid.inst with
    | some i => decide (s.cur.popped.getD port 0 < inRate b port) && (i.fifos.getD port []) != []
    | none => false
  | none => false

/-- A register in neither empty state of 01 R23. -/
def holdsValue (st : RegState) : Bool := st == .full || st == .poisoned

def ftestGBody (f : Ext) : Act Unit := do
  let r := gRead (← get).cur f.a
  writeP f.d (allOnes (holdsValue r.st))

def ftestVBody (f : Ext) : Act Unit := do
  let s ← get
  let n := f.a.toNat
  writeP f.d (allOnes (if n < 28 then holdsValue (vAt s.cur n).st else channelReady s (n - 28)))

/-! ## Meanings -/

/-- BR (R130). -/
def execBr (f : Ext) (s : State) : Out :=
  jumpInstr 0x0E#6 0x0#4 f (branchTo f) s

/-- BRP (R130). -/
def execBrp (f : Ext) (s : State) : Out :=
  jumpInstr 0x0E#6 0x1#4 f (brpBody f) s

/-- CALL (R130). -/
def execCall (f : Ext) (s : State) : Out :=
  jumpInstr 0x0E#6 0x2#4 f (callBody f) s

/-- RET (R130). -/
def execRet (f : Base) (s : State) : Out :=
  jumpInstr 0x0E#6 0x3#4 f.ext (retBody f.ext) s

/-- RET_EXT (R130). -/
def execRetExt (f : Ext) (s : State) : Out :=
  jumpInstr 0x0E#6 0x3#4 f (retBody f) s

/-- JMPC (R131). -/
def execJmpc (f : Base) (s : State) : Out :=
  jumpInstr 0x0E#6 0x4#4 f.ext (jmpcBody f.ext) s

/-- JMPC_EXT (R131). -/
def execJmpcExt (f : Ext) (s : State) : Out :=
  jumpInstr 0x0E#6 0x4#4 f (jmpcBody f) s

/-- LOOP (R132). -/
def execLoop (f : Ext) (s : State) : Out :=
  jumpInstr 0x0E#6 0x5#4 f (loopBody f) s

/-- END (R133). -/
def execEndFiring (f : Base) (s : State) : Out :=
  jumpInstr 0x0E#6 0x6#4 f.ext (endDuty) s

/-- NOP (R134). -/
def execNop (f : Base) (s : State) : Out :=
  instr 0x0E#6 0x7#4 f.ext (pure ()) s

/-- ETRAP (R134). -/
def execEtrap (f : Base) (s : State) : Out :=
  instr 0x0E#6 0x8#4 f.ext (trap 0x17 (etrapCode f.ext)) s

/-- ETRAP_EXT (R134). -/
def execEtrapExt (f : Ext) (s : State) : Out :=
  instr 0x0E#6 0x8#4 f (trap 0x17 (etrapCode f)) s

/-- ERET (R135). -/
def execEret (f : Base) (s : State) : Out :=
  jumpInstr 0x0E#6 0x9#4 f.ext (eret) s

/-- MFS (R136). -/
def execMfs (f : Base) (s : State) : Out :=
  instr 0x0F#6 0x0#4 f.ext (mfsBody f.ext) s

/-- MFS_EXT (R136). -/
def execMfsExt (f : Ext) (s : State) : Out :=
  instr 0x0F#6 0x0#4 f (mfsBody f) s

/-- MTS (R136). -/
def execMts (f : Base) (s : State) : Out :=
  instr 0x0F#6 0x1#4 f.ext (mtsBody f.ext) s

/-- MTS_EXT (R136). -/
def execMtsExt (f : Ext) (s : State) : Out :=
  instr 0x0F#6 0x1#4 f (mtsBody f) s

/-- FEMPTY_G (R137). -/
def execFemptyG (f : Base) (s : State) : Out :=
  instr 0x0F#6 0x2#4 f.ext (femptyGBody f.ext) s

/-- FEMPTY_G_EXT (R137). -/
def execFemptyGExt (f : Ext) (s : State) : Out :=
  instr 0x0F#6 0x2#4 f (femptyGBody f) s

/-- FEMPTY_V (R137). -/
def execFemptyV (f : Base) (s : State) : Out :=
  instr 0x0F#6 0x3#4 f.ext (femptyVBody f.ext) s

/-- FEMPTY_V_EXT (R137). -/
def execFemptyVExt (f : Ext) (s : State) : Out :=
  instr 0x0F#6 0x3#4 f (femptyVBody f) s

/-- FTEST_G (R138). -/
def execFtestG (f : Base) (s : State) : Out :=
  instr 0x0F#6 0x4#4 f.ext (ftestGBody f.ext) s

/-- FTEST_G_EXT (R138). -/
def execFtestGExt (f : Ext) (s : State) : Out :=
  instr 0x0F#6 0x4#4 f (ftestGBody f) s

/-- FTEST_V (R138). -/
def execFtestV (f : Base) (s : State) : Out :=
  instr 0x0F#6 0x5#4 f.ext (ftestVBody f.ext) s

/-- FTEST_V_EXT (R138). -/
def execFtestVExt (f : Ext) (s : State) : Out :=
  instr 0x0F#6 0x5#4 f (ftestVBody f) s

end Sys2Proof.Machine
end

