-- ==== Sys2Proof/Machine/Service.lean ====
section
/-!
DEFINITION. Machine/Service.lean: inboxes, handlers and landing handlers (07 R227 to R232, 05 R166, 09 R283 to R286, 11 R313 to
R322), what other devices answer (05 R142, R143), ordered-atomic windows (05 R157) and the watchdogs (13 R352).
-/

namespace Sys2Proof.Machine

/-! ## Inboxes (09 R283 to R286) -/

/-- Context of a message. -/
def InMsg.ctx (m : InMsg) : Nat :=
  match m with
  | .call c => c.ctx
  | .land l => l.ctx

/-- Bytes of a spill record (R284): a header of 64 bytes and the message, rounded up to 64 bytes.  DEDUCED: notes/assumptions/26.md. -/
def InMsg.record (m : InMsg) : Nat :=
  64 + ((match m with
    | .call c => 16 * c.payload.length
    | .land l => l.bytes.length) + 63) / 64 * 64

/-- Arrivals that the owner's service thread must spill before its next handler. -/
def spillDue (o : Owner) : Bool := o.held != [] && (decide (64 ≤ o.inbox.length) || o.spill != [])

/-- Take spill-heap room of a context; none when the heap has too little. -/
def takeSpill (ctx bytes : Nat) (s : State) : Option State :=
  match findCtx s ctx with
  | none => none
  | some c =>
    if c.spillSize < c.spillUsed + bytes then none
    else some { s with ctxs := s.ctxs.map (fun x => if x.number = ctx then { x with spillUsed := x.spillUsed + bytes } else x) }

def freeSpill (ctx bytes : Nat) (s : State) : State :=
  { s with ctxs := s.ctxs.map (fun x => if x.number = ctx then { x with spillUsed := x.spillUsed - bytes } else x) }

/-- Pre-empt every band of a context by retention. -/
def preemptAll (ctx : Nat) (s : State) : State :=
  (s.bands.filter (fun b => b.ctx == ctx)).foldl (fun s b => beginPreempt b.entry false s) s

/-- The heap has no room (R286): the fault is raised once, while bands of the context are still running. -/
def spillFull (ctx : Nat) (s : State) : State :=
  let mine := s.bands.filter (fun b => b.ctx == ctx)
  if mine = [] ∨ mine.any (fun b => b.state == .running || b.state == .draining) then
    preemptAll ctx (ctxFault ctx kindSpill 0x15 0#64 0#64 0#64 0#64 s)
  else s

/-- Copy held arrivals to the owner's queue in the heap, in order, while there is room.  DEDUCED: notes/assumptions/26.md. -/
def spillHeld : List InMsg → Owner → State → State
  | [], o, s => putOwner { o with held := [] } s
  | m :: rest, o, s =>
    match takeSpill m.ctx m.record s with
    | some s => spillHeld rest { o with spill := o.spill ++ [m] } s
    | none => spillFull m.ctx (putOwner { o with held := m :: rest } s)

/-- SPILL_DUTY (R284), between two handlers. -/
def execSpillDuty (p : Pos) : State → Out := whileClocked (fun s =>
  let p := serviceOf p
  let o := ownerAt s p
  if spillDue o && threadFree s p then .next (spillHeld o.held o s) else .next s)

/-- LOOPBACK_REFILL (R285): the head of the queue moves into the inbox, ahead of any arrival. -/
def execLoopbackRefill (p : Pos) (s : State) : Out :=
  let o := ownerAt s (serviceOf p)
  match o.spill with
  | [] => .next s
  | m :: rest =>
    if o.inbox.length < 64 then
      .next (freeSpill m.ctx m.record (putOwner (settleInbox 17 { o with spill := rest, inbox := o.inbox ++ [m] }) s))
    else .next s

/-! ## Replies (07 R228, R230, R231) -/

/-- Fill a register of a firing, wherever it is held (01 R24), with the vector clock of what fills it. -/
def fillReg (f : FiringId) (n : Nat) (x : TCap) (mark : Mark) (clock : List Nat) (s : State) : State :=
  if n = 0 then s
  else modFiring f (fun t => { t with g := t.g.setIfInBounds n ⟨x.val, x.tag, .full, mark, clock⟩ }) s

def zeroCap : TCap := ⟨0#128, false⟩

/-- The outstanding call of a firing with a serial; of two, taken on different threads, the first. -/
def callOf (s : State) (f : FiringId) (serial : Word) : Option OutCall :=
  (threadOf s f).bind (fun t => t.calls.find? (fun c => c.serial == serial))

/-- The outstanding call that a reply names: by the firing, and the serial of the hardware thread that issued it (11 R322). -/
def callNamed (s : State) (f : FiringId) (thread : Nat) (serial : Word) : Option OutCall :=
  (threadOf s f).bind (fun t => t.calls.find? (fun c => c.serial == serial && c.thread == thread))

def dropCall (f : FiringId) (c : OutCall) (s : State) : State :=
  modFiring f (fun t => { t with calls := t.calls.filter (fun x => !(x.serial == c.serial && x.thread == c.thread)) }) s

/-- A reply call gets its values or the first words of a record, with its owner's clock: the caller follows that when it reads
one (R232). -/
def fillReply (f : FiringId) (c : OutCall) (values : List TCap) (mark : Mark) (clock : List Nat) (s : State) : State :=
  (List.range c.count).foldl (fun s i => fillReg f (c.reg + i) (values.getD i zeroCap) mark clock s) (dropCall f c s)

/-- An RCALLN call completes: the counter falls; the first unreported record is kept, later ones counted; RFENCE follows the
owner's clock. -/
def finishCalln (f : FiringId) (c : OutCall) (record : Option DWord) (clock : List Nat) (s : State) : State :=
  modFiring f
    (fun t =>
      { t with
        rcalln := t.rcalln - 1
        rcallRecord := match t.rcallRecord with | some w => some w | none => record
        rcallUnreported := if record.isSome then t.rcallUnreported + 1 else t.rcallUnreported
        rcallClock := clockMerge t.rcallClock clock })
    (dropCall f c s)

/-- REPLY_ARRIVAL: a serial that is not outstanding is discarded (11 R322). -/
def execReplyArrival (index : Nat) (s : State) : Out :=
  match s.net.replies[index]? with
  | none => .next s
  | some m =>
    let s := { s with net := { s.net with replies := s.net.replies.eraseIdx index } }
    match callNamed s m.caller m.thread m.serial with
    | some c => if c.count = 0 then .next s else .next (fillReply m.caller c m.values m.mark m.clock s)
    | none => .next s

/-- RCALLN_COMPLETION. -/
def execRcallnCompletion (index : Nat) (s : State) : Out :=
  match s.net.dones[index]? with
  | none => .next s
  | some m =>
    let s := { s with net := { s.net with dones := s.net.dones.eraseIdx index } }
    match callNamed s m.caller m.thread m.serial with
    | some c => if c.count = 0 then .next (finishCalln m.caller c m.record m.clock s) else .next s
    | none => .next s

/-- The timeout record of a call (R230): KIND 2, cause 0x10, STAGE 2. -/
def timeOut (f : FiringId) (c : OutCall) (s : State) : State :=
  let ws := recordWords 2 0x10 2 c.hops c.serial 0#64 0#64 c.target
  let w := ws.getD 0 0#64
  if c.count = 0 then finishCalln f c (some w) [] s
  else fillReply f c (ws.map (fun w => ⟨dataVal w, false⟩)) (.timeout w) [] s

/-- CALL_TIMEOUT (11 R321): a call to another device whose time has passed.  DEDUCED: notes/assumptions/40.md. -/
def execCallTimeout (f : FiringId) (serial : Word) (s : State) : Out :=
  match callOf s f serial with
  | some c => if c.device ≠ s.dev.number && timeoutPassed s f.ctx c.issued 4 then .next (timeOut f c s) else .next s
  | none => .next s

/-- TRANSPORT_ERROR (11 R321): on a call in RUD mode, the record comes at once. -/
def execTransportError (f : FiringId) (serial : Word) (s : State) : Out :=
  match callOf s f serial with
  | some c => if c.device ≠ s.dev.number && !c.idem then .next (timeOut f c s) else .next s
  | none => .next s

/-- The message of an outstanding call, as its thread sent it or the last handler forwarded it. -/
def callMessage (s : State) (t : Thread) (c : OutCall) : CallMsg where
  ctx := ctxOf t
  ctxw := t.ctxw
  pathw := t.pathw
  caller := t.fid
  callerDevice := s.dev.number
  serial := c.serial
  thread := c.thread
  target := ⟨dataVal c.target, false⟩
  handler := c.handler
  payload := c.payload
  count := c.count
  reply := c.count != 0
  forwarded := c.hops != 0
  hops := c.hops
  device := c.device
  owner := c.owner
  writer := writerOf t
  clock := []

/-- RUDI_REISSUE (11 R321): at each quarter of the timeout, a call to an IDEM handler of another device; at most three
times.  DEDUCED: notes/assumptions/40.md. -/
def execRudiReissue (f : FiringId) (serial : Word) (s : State) : Out :=
  match threadOf s f, callOf s f serial with
  | some t, some c =>
    if c.device ≠ s.dev.number && c.idem && decide (c.reissues < 3) && timeoutPassed s f.ctx c.issued (c.reissues + 1) then
      let s := { s with net := { s.net with calls := s.net.calls ++ [callMessage s t c] } }
      .next (modFiring f (fun t => { t with calls := t.calls.map (fun x =>
        if x.serial = serial ∧ x.thread = c.thread then { x with reissues := x.reissues + 1 } else x) }) s)
    else .next s
  | _, _ => .next s

/-- LOST_REPLY_FILL (11 R320): 1 ms after a unit was found failed, every call outstanding to it gets the timeout record.  DEDUCED: notes/assumptions/40.md. -/
def execLostReplyFill (kind : UnitKind) (number : Nat) (s : State) : Out :=
  if s.dev.failedUnits.any (fun x => x.1 == kind && x.2.1 == number && decide (x.2.2 + cyclesPerMillisecond ≤ s.dev.cycle)) then
    .next ((allThreads s).foldl
      (fun s t => (t.calls.filter (fun c => c.device == s.dev.number && unitRuns kind number c.owner)).foldl
        (fun s c => timeOut t.fid c s) s)
      s)
  else .next s

/-! ## Arrival (11 R313) -/

/-- What the owner's device sends back without running the handler, or for another device: values or a record. -/
def refuseCall (m : CallMsg) (cause stage : Nat) (clock : List Nat) (s : State) : State :=
  let ws := recordWords 1 cause stage m.hops m.serial 0#64 0#64 (capCursor m.target.val)
  let w := ws.getD 0 0#64
  answerCall m.caller m.callerDevice (m.serial, m.thread) m.reply (ws.map (fun w => ⟨dataVal w, false⟩)) (.fault w) (some w) clock s

/-- What another device answers to a call: four values, tagged only where R43 lets a tag cross, or a record.  DESIGN CHOICE: notes/assumptions/27.md. -/
def foreignAnswer (m : CallMsg) (x : FabricAnswer) (s : State) : State :=
  let value (i : Nat) : TCap :=
    let v := x.data.extractLsb' (128 * i) 128
    let tag := x.data.getLsbD (512 + i) && capSealed v && capHas v permGLOBAL
    if tag then ⟨v, true⟩ else ⟨dataVal (capCursor v), false⟩
  if x.data.getLsbD 516 then
    let w := capCursor (value 0).val
    answerCall m.caller m.callerDevice (m.serial, m.thread) m.reply
      ((List.range 4).map (fun i => ⟨dataVal (capCursor (value i).val), false⟩)) (.fault w) (some w) [] s
  else answerCall m.caller m.callerDevice (m.serial, m.thread) m.reply ((List.range 4).map value) .clear none [] s

/-- CALL_ARRIVAL: a call enters its owner's inbox or is held, calls of one thread to one owner in order; a call to another
device is answered there, or lost.  DESIGN CHOICE: notes/assumptions/27.md. -/
def execCallArrival (index : Nat) (s : State) : Out :=
  match s.net.calls[index]? with
  | none => .next s
  | some m =>
    let taken : State := { s with net := { s.net with calls := s.net.calls.eraseIdx index } }
    if m.device ≠ s.dev.number then
      match s.fabricIn with
      | x :: rest => .next (foreignAnswer m x { taken with fabricIn := rest })
      | [] => .next taken
    else if (s.net.calls.take index).any (fun x => x.caller == m.caller && x.callerDevice == m.callerDevice && x.owner == m.owner)
      then .next s
    else
      match deliver m.owner (.call m) taken with
      | some s' => .next s'
      | none => .next s

/-! ## Handlers (R227, R314, 13 R351) -/

/-- The entry allows the kind of core that an owner is on. -/
def entryAllows (e : HandlerEntry) (p : Pos) : Bool :=
  e.flags.getLsbD 0 && e.handler.tag && capType e.handler.val == 2 && e.flags.getLsbD (if p.lupin then 2 else 3)

/-- The call word in g10. -/
def callWord (m : CallMsg) : DWord :=
  w64 ((if m.forwarded then 2 ^ 49 else 0) + (if m.reply then 2 ^ 48 else 0) + m.handler * 2 ^ 32 + m.serial.toNat)

/-- The writes that a handler sees when it starts (R232): those that the call's clock covers, of its sender's own only those to
bytes of this owner.  A handler that forwards a call has performed what its clock covers. -/
def applyCall (m : CallMsg) (p : Pos) (s : State) : State :=
  { s with mem := s.mem.applyWhere (some (.agent (serviceId p))) (fun w =>
      w.toDie == p.die && w.covered m.clock &&
        (m.forwarded || w.issuer != m.caller || w.before.all (fun c => ownerOfKey s.mem c.1 == p))) }

/-- The thread on which a handler starts.  R314 gives its TID the position, SERVICE and FIRING; GANG and INSTANCE are 0.
DESIGN CHOICE: notes/assumptions/26.md. -/
def handlerThread (m : CallMsg) (e : HandlerEntry) (p : Pos) (now : Nat) : Thread :=
  let payload := (List.range 8).map (fun i => m.payload.getD i zeroCap)
  entryThread p
    (.handler ⟨m.caller, m.callerDevice, m.serial, m.thread, m.reply, m.count, m.forwarded, m.hops, m.handler, capCursor m.target.val, 0,
      m.writer⟩)
    m.caller m.ctxw m.pathw (tidWord 0 0 0 p) handlerAllot (unsealCap e.handler.val)
    (m.target :: (payload ++ [⟨dataVal (callWord m), false⟩])) now

/-- Start a call's handler, or refuse it with STAGE 0: 0x09 where the handler table or the target has no translation (11 R313),
0x06 where the entry does not allow the call (R227).  DEDUCED: notes/assumptions/26.md. -/
def startHandler (m : CallMsg) (p : Pos) (s : State) : State :=
  let refuse (cause : Nat) (s : State) : State := refuseCall m cause 0 (s.mem.clockAt (serviceEye p)) s
  match findCtx s m.ctx with
  | none => refuse 0x06 s
  | some c =>
    let s := applyCall m p s
    match handlerEntry s c m.handler with
    | none => refuse 0x09 s
    | some e =>
      if !(entryAllows e p) then refuse 0x06 s
      else if (keyOf s c none (capAddr m.target.val) 1).isNone then refuse 0x09 s
      else placeThread (handlerThread m e p s.dev.cycle) s

/-- The owner takes the head of its inbox: the message, and the state without it.  DEDUCED: notes/assumptions/26.md. -/
def takeHead (p : Pos) (s : State) : Option (InMsg × State) :=
  let o := ownerAt s p
  if spillDue o || !(threadFree s p) || !(coreWorks s (coreOf p)) then none
  else
    match o.inbox with
    | [] => none
    | m :: rest => some (m, putOwner (settleInbox 17 { o with inbox := rest }) s)

/-- HANDLER_START. -/
def execHandlerStart (p : Pos) : State → Out := whileClocked (fun s =>
  match takeHead (serviceOf p) s with
  | some (.call m, s') => .next (startHandler m (serviceOf p) s')
  | _ => .next s)

/-- CTX and PATH of the node that issued a transfer. -/
def issuerWords (s : State) (w : Writer) : DWord × DWord :=
  match w with
  | .gang b _ => match findBand s b with
    | some b => (ctxWord s.dev.number b.packet b.ctx, b.packet.path)
    | none => (0#64, 0#64)
  | .loop n => match findLoop s n with
    | some l => (l.ctxw, l.pathw)
    | none => (0#64, 0#64)
  | .foreign => (0#64, 0#64)

/-- The payload as vector registers, 128 bytes each. -/
def payloadRegs (bs : List Byte) : Vector VReg 28 :=
  (List.range 4).foldl
    (fun v i => v.setIfInBounds i ⟨BitVec.ofNat 1024 (bytesNat ((bs.drop (128 * i)).take 128)), .full⟩)
    (Vector.replicate 28 VReg.zero)

/-- Start a landing handler, or fault its transfer; GANG and INSTANCE of its TID are 0.  DEDUCED, DESIGN CHOICE: notes/assumptions/26.md. -/
def startLanding (l : LandMsg) (p : Pos) (s : State) : State :=
  match findXfer s l.core l.channel l.id with
  | none => s
  | some x =>
    match (findCtx s l.ctx).bind (fun c => handlerEntry s c l.handler) with
    | none => faultTransfer l.core l.channel l.id l.packet 0x09 s
    | some e =>
      if !(entryAllows e p) then faultTransfer l.core l.channel l.id l.packet 0x06 s
      else
        let w := issuerWords s l.writer
        let n := l.bytes.length
        let t := entryThread p (.landing ⟨l.core, l.channel, l.id, l.packet, capCursor l.dest, n, 0, l.writer⟩) x.issuer w.1 w.2
          (tidWord 0 0 0 p) handlerAllot (unsealCap e.handler.val)
          [⟨l.dest, true⟩, ⟨dataVal (w64 l.offset), false⟩, ⟨dataVal (w64 n), false⟩] s.dev.cycle
        placeThread { t with v := payloadRegs l.bytes } s

/-- LANDING_HANDLER (05 R166). -/
def execLandingHandler (p : Pos) : State → Out := whileClocked (fun s =>
  match takeHead (serviceOf p) s with
  | some (.land l, s') => .next (startLanding l (serviceOf p) s')
  | _ => .next s)

/-- A trap on the thread at a position. -/
def trapAt (p : Pos) (cause : Nat) (info : DWord) (s : State) : State :=
  let here (t : Thread) : Bool := t.pos == p && t.hold == .running
  let trap' (s : State) : State := takeTrap cause info (dropWaits (agentId s.cur) s)
  if here s.cur then trap' s else onThread here trap' s

/-- HANDLER_RUN_LIMIT (11 R317). -/
def execHandlerRunLimit (p : Pos) (s : State) : Out :=
  match threadAt s (serviceOf p) with
  | some t => if inHandler t && decide (4096 ≤ executedOf t) then .next (trapAt (serviceOf p) 0x0F 4096#64 s) else .next s
  | none => .next s

/-- HANDLER_WAIT_LIMIT (11 R317). -/
def execHandlerWaitLimit (p : Pos) (s : State) : Out :=
  match threadAt s (serviceOf p) with
  | some t =>
    match t.waitFrom with
    | some w => if inHandler t && decide (w + 2 ^ 20 ≤ s.dev.cycle) then .next (trapAt (serviceOf p) 0x19 0#64 s) else .next s
    | none => .next s
  | none => .next s

/-! ## Accesses to other devices (05 R142, R143) -/

/-- REMOTE_LOAD_TIMEOUT (R142): no answer within the remote timeout.  DESIGN CHOICE: notes/assumptions/28.md; DEDUCED: notes/assumptions/40.md. -/
def execRemoteLoadTimeout (f : FiringId) (s : State) : Out :=
  match threadOf s f with
  | some t =>
    match t.awaitsFabric with
    | some a => if t.hold = .running && timeoutPassed s f.ctx a.2 4 then .next (trapFiring f 0x10 a.1 s) else .next s
    | none => .next s
  | none => .next s

/-- REMOTE_WRITE_ACK (R143): an acknowledgement or a failure; an acknowledgement after the remote timeout counts no more (11
R321), and a failure after the firing's END goes to the host.  DESIGN CHOICE: notes/assumptions/28.md. -/
def execRemoteWriteAck (f : FiringId) (id : Nat) (ok : Bool) (s : State) : Out :=
  let good (issued : Nat) : Bool := ok && !(timeoutPassed s f.ctx issued 4)
  let s' := modFiring f
    (fun t =>
      { t with remoteStores :=
          (t.remoteStores.filter (fun r => !(r.id == id && good r.issued))).map (fun r => if r.id = id then { r with failed := true } else r) })
    s
  let mine (r : BandStore) : Bool := r.id == id && r.firing == f
  let lost := s.bands.flatMap (fun b => (b.stores.filter (fun r => mine r && !(good r.issued))).map (fun r => (b.ctx, r)))
  let s' := { s' with bands := s'.bands.map (fun b => { b with stores := b.stores.filter (fun r => !(mine r)) }) }
  .next (lost.foldl (fun s x => ctxFault x.1 kindLostwrite 0x10 x.2.pathw x.2.tidw 0#64 x.2.address s) s')

/-! ## Watchdogs (13 R352) -/

/-- The band of a firing is running or draining; the clocks stand still otherwise. -/
def clocksRun (s : State) (t : Thread) : Bool :=
  !t.stopped && (match bandOf s t with
    | some b => b.state == .running || b.state == .draining
    | none => false)

/-- WATCHDOG_WAIT: the firing traps 0x19 at its waiting instruction; a parked one on its next thread.  DESIGN CHOICE: notes/assumptions/10.md. -/
def execWatchdogWait (f : FiringId) (s : State) : Out :=
  match threadOf s f, findCtx s f.ctx with
  | some t, some c =>
    match t.waitFrom with
    | none => .next s
    | some w =>
      if clocksRun s t && !t.waitPassed && decide (w + c.waitLimit ≤ s.dev.cycle) then
        if t.hold = .parked then .next (modFiring f (fun t => { t with waitPassed := true }) (withdrawWaits f s))
        else .next (trapFiring f 0x19 0#64 s)
      else .next s
  | _, _ => .next s

/-- WATCHDOG_RUN: after it, RUN counts again from zero.  DESIGN CHOICE: notes/assumptions/10.md. -/
def execWatchdogRun (f : FiringId) (s : State) : Out :=
  match threadOf s f, findCtx s f.ctx with
  | some t, some c =>
    if clocksRun s t && decide (t.hold = .running) && c.runLimit != 0 && decide (t.runFrom + c.runLimit ≤ s.dev.cycle) then
      .next (trapFiring f 0x19 1#64 (modFiring f (fun t => { t with runFrom := s.dev.cycle }) s))
    else .next s
  | _, _ => .next s

/-! ## Ordered-atomic windows (05 R157) -/

/-- A window that no host has configured. -/
def emptyWindow : AmoqWindow := ⟨0#64, 0, 0, 0, [], [], false, []⟩

def modWindow (ctx n : Nat) (f : AmoqWindow → AmoqWindow) (s : State) : State :=
  { s with ctxs := s.ctxs.map (fun c =>
      if c.number = ctx then { c with windows := c.windows.setIfInBounds n (f (c.windows.getD n emptyWindow)) }
      else c) }

def windowOfCtx (s : State) (ctx n : Nat) : AmoqWindow :=
  match findCtx s ctx with
  | some c => c.windows.getD n emptyWindow
  | none => emptyWindow

/-- A request that its window refuses, whatever its room. -/
def amoqRefused (w : AmoqWindow) (m : AmoqMsg) : Bool :=
  w.batch == 0 || decide (m.interval < w.next) || decide (w.next + 256 ≤ m.interval) ||
    decide (w.batch ≤ (w.accepted.filter (fun x => x.interval == m.interval)).length)

/-- Room of 32 bytes in the request area. -/
def amoqRoom (w : AmoqWindow) : Bool := decide (32 * (w.accepted.length + 1) ≤ w.area)

/-- The place of a request in the logical thread order (01 R36): PATH, GANG, FIRING, INSTANCE of its thread's TID, which reads
by 12 R327 in a loop firing, and the order of issue. -/
def amoqKey (m : AmoqMsg) : List Nat :=
  let f := m.issuer
  if f.band < 2 ^ 14 then [m.path.toNat, f.gang, f.firing, f.inst, m.order]
  else [m.path.toNat, 0, f.firing % 2 ^ 16 * 2 ^ 16 + f.inst, f.gang, m.order]

def amoqInsert (m : AmoqMsg) : List AmoqMsg → List AmoqMsg
  | [] => [m]
  | x :: xs => if amoqKey m < amoqKey x then m :: x :: xs else x :: amoqInsert m xs

def amoqSort (ms : List AmoqMsg) : List AmoqMsg := ms.foldl (fun xs m => amoqInsert m xs) []

/-- A request is answered: its register gets the sum before it; an acquire follows the releases before it, and its thread's next
access waits no longer (02 R64, 08 R258). -/
def amoqGive (m : AmoqMsg) (sum : DWord) (before : List (Nat × Pos × List Nat)) (s : State) : State :=
  let s := fillReg m.issuer m.reg ⟨dataVal sum, false⟩ .clear [] s
  if m.ord.getLsbD 0 then
    let s := match threadOf s m.issuer with
      | some t => { s with mem := (s.mem.releasesFirst (eyeOf t) m.scope).followReleases (eyeOf t) m.scope before }
      | none => s
    modFiring m.issuer (fun t => { t with amoqWaits := t.amoqWaits.filter (· != m.order) }) s
  else s

/-- Answer the prefix sums of a closing interval: the counter and the releases after it. -/
def amoqReply : List AmoqMsg → DWord → List (Nat × Pos × List Nat) → State → DWord × List (Nat × Pos × List Nat) × State
  | [], running, before, s => (running, before, s)
  | m :: rest, running, before, s =>
    amoqReply rest (running + m.addend)
      (if m.ord.getLsbD 1 && s.mem.unseen != [] then before ++ [(m.scope, m.core, m.clock)] else before) (amoqGive m running before s)

/-- The oldest open interval closes when it holds BATCH requests. -/
def amoqClose (ctx n : Nat) (s : State) : Option State :=
  let w := windowOfCtx s ctx n
  let ms := w.accepted.filter (fun x => x.interval == w.next)
  if w.batch ≠ 0 ∧ w.batch ≤ ms.length then
    let (counter, before, s) := amoqReply (amoqSort ms) w.counter w.releases s
    some (modWindow ctx n
      (fun w => { w with
        counter := counter, next := w.next + 1, accepted := w.accepted.filter (fun x => x.interval != w.next), told := false,
        releases := before })
      s)
  else none

/-- The AMOQ of an accepted request has begun: its register is empty with a producer pending, and the firing goes on. -/
def amoqBegun (m : AmoqMsg) (s : State) : State :=
  modFiring m.issuer
    (fun t =>
      { t with
        g := if m.reg = 0 then t.g
          else t.g.setIfInBounds m.reg { t.g.getD m.reg GReg.zero with st := .pending }
        pc := m.resume
        amoqWaits := if m.ord.getLsbD 0 then t.amoqWaits ++ [m.order] else t.amoqWaits
        waitFrom := none })
    s

/-- A window answers a request, or holds it while its area has no room. -/
def amoqAnswer (m : AmoqMsg) (s : State) : State :=
  let ctx := m.issuer.ctx
  let w := windowOfCtx s ctx m.window
  if amoqRefused w m then trapFiring m.issuer 0x05 (w64 (m.window * 2 ^ 32 + m.interval)) s
  else if amoqRoom w && w.held == [] then
    amoqBegun m (modWindow ctx m.window (fun w => { w with accepted := w.accepted ++ [m] }) s)
  else modWindow ctx m.window (fun w => { w with held := w.held ++ [m] }) s

/-- The oldest held request is answered once there is room or it would be refused. -/
def amoqRelease (ctx n : Nat) (s : State) : Option State :=
  let w := windowOfCtx s ctx n
  match w.held with
  | [] => none
  | m :: rest =>
    if amoqRefused w m then some (trapFiring m.issuer 0x05 (w64 (m.window * 2 ^ 32 + m.interval))
      (modWindow ctx n (fun w => { w with held := rest }) s))
    else if amoqRoom w then
      some (amoqBegun m (modWindow ctx n (fun w => { w with held := rest, accepted := w.accepted ++ [m], told := false }) s))
    else none

/-- The area is full: the host hears of it once each time it fills. -/
def amoqTell (ctx n : Nat) (s : State) : State :=
  let w := windowOfCtx s ctx n
  match w.held with
  | m :: _ =>
    if w.told then s
    else modWindow ctx n (fun w => { w with told := true }) (ctxFault ctx kindAmoqarea 0x15 m.path 0#64 0#64 (w64 n) s)
  | [] => s

/-- Intervals close and held requests are answered as far as they can be. -/
def amoqSettle (ctx n : Nat) : Nat → State → State
  | 0, s => amoqTell ctx n s
  | fuel + 1, s =>
    match amoqClose ctx n s with
    | some s' => amoqSettle ctx n fuel s'
    | none =>
      match amoqRelease ctx n s with
      | some s' => amoqSettle ctx n fuel s'
      | none => amoqTell ctx n s

/-- Enough rounds: each takes an accepted or a held request. -/
def amoqFuel (w : AmoqWindow) : Nat := w.accepted.length + 2 * w.held.length + 2

/-- AMOQ_ARRIVAL. -/
def execAmoqArrival (index : Nat) (s : State) : Out :=
  match s.net.amoqs[index]? with
  | none => .next s
  | some m =>
    let s := amoqAnswer m { s with net := { s.net with amoqs := s.net.amoqs.eraseIdx index } }
    .next (amoqSettle m.issuer.ctx m.window (amoqFuel (windowOfCtx s m.issuer.ctx m.window)) s)

end Sys2Proof.Machine
end

