-- ==== Sys2Proof/Machine/HostCommands.lean ====
section
/-!
DEFINITION. Machine/HostCommands.lean: sessions and the command protocol (14 R365 to R376, R379, 13 R353, R357, R361).
-/

namespace Sys2Proof.Machine

/-! ## Statuses and replies (R366) -/

def statusOk : Nat := 0
def statusBusy : Nat := 1
def statusRefused : Nat := 2
def statusNoSession : Nat := 3
def statusAuth : Nat := 4
def statusState : Nat := 5

/-- A reply carries the command's opcode, context and SEQ. -/
def replyTo (op : Nat) (h : CmdHeader) (status : Nat) (payload : List DWord) (s : State) : State :=
  { s with dev := { s.dev with sent := s.dev.sent ++ [wordsMessage op h.context.toNat status h.seq.toNat payload] } }

/-- Bytes as 64-bit words. -/
def packBytes (bs : List Byte) : List DWord := wordsOf ((bs.length + 7) / 8) bs

/-- A reply whose payload is bytes. -/
def replyBytes (op : Nat) (h : CmdHeader) (status : Nat) (payload : List Byte) (s : State) : State :=
  { s with dev := { s.dev with sent := s.dev.sent ++ [⟨op, h.context.toNat, status, h.seq.toNat, payload.length, packBytes payload⟩] } }

/-- What a command does: a status, the reply's payload and the state after it; `report` has a payload of bytes, `later` sends no
reply now, and `waits` leaves the command for a later time. -/
inductive Answer where
  | done (status : Nat) (payload : List DWord) (s : State)
  | report (payload : List Byte) (s : State)
  | later (s : State)
  | waits

/-- A command with no effect. -/
def answered (status : Nat) (s : State) : Answer := .done status [] s

/-- Commands reach the device: its command endpoint has power, and no warm reset runs (R368, R372). -/
def commandsArrive (s : State) : Bool := s.dev.power != .d3 && s.dev.warmReset.isNone

/-- An earlier command has not been answered yet, or an earlier write of the host waits: commands execute one at a time, after
every earlier write (R370). -/
def commandPending (s : State) : Bool := s.mem.changes.any (fun x => x.reply.isSome) || s.net.hostWrites != []

/-- A header that no row of R367 answers: a reserved field or STATUS is not zero, or its OPCODE is not that of the command.
DEDUCED: notes/assumptions/33.md. -/
def headerBad (op : Nat) (h : CmdHeader) : Bool := h.reserved != 0#16 || h.status != 0#8 || h.opcode.toNat != op

/-- A command of the owning session, after the checks of R366; `always` commands are answered in minimal mode (R374).  DEDUCED: notes/assumptions/33.md. -/
def command (op : Nat) (always : Bool) (h : CmdHeader) (body : State → Answer) (s : State) : Out :=
  let answer (status : Nat) (payload : List DWord) (t : State) : Out := .next (replyTo h.opcode.toNat h status payload t)
  if !(commandsArrive s) then .next s
  else if commandPending s then .next (retryWrites s)
  else
    match s.dev.session with
    | none => answer statusNoSession [] s
    | some x =>
      if x.lost.isSome then answer statusNoSession [] s
      else if h.seq.toNat ≠ x.nextSeq then answer statusRefused [] s
      else
        let t := { s with dev := { s.dev with session := some { x with nextSeq := x.nextSeq + 1, lastCommand := s.dev.cycle } } }
        if headerBad op h then answer statusRefused [] t
        else if t.dev.minimalMode && !always then answer statusState [] t
        else
          match body t with
          | .done status payload u => answer status payload u
          | .report payload u => .next (replyBytes h.opcode.toNat h statusOk payload u)
          | .later u => .next u
          | .waits => .next s

/-- A payload whose length R367 states has another LENGTH. -/
def withLength (n : Nat) (h : CmdHeader) (body : State → Answer) (s : State) : Answer :=
  if h.length.toNat = n then body s else answered statusRefused s

/-- A command that names a context.  DEDUCED: notes/assumptions/33.md. -/
def withContext (h : CmdHeader) (body : Ctx → State → Answer) (s : State) : Answer :=
  match findCtx s h.context.toNat with
  | none => answered statusRefused s
  | some c => if c.killing then answered statusState s else body c s

def putCtx (c : Ctx) (s : State) : State := { s with ctxs := s.ctxs.map (fun x => if x.number = c.number then c else x) }

/-! ## KILL (13 R361) -/

/-- A thread of the context: a firing, a handler for one of its callers, or a landing handler. -/
def ofContext (ctx : Nat) (t : Thread) : Bool := t.duty != .idle && t.fid.ctx == ctx

/-- Steps 1 and 2: every firing and handler stops, nodes and messages are discarded, engines and loops stop. -/
def stopContext (ctx : Nat) (s : State) : State :=
  let s := ((allThreads s).filter (ofContext ctx)).foldl (fun s t => dropWaits (agentId t) s) s
  let sets := (s.loops.filter (fun l => l.ctx == ctx)).flatMap (·.set)
  let bands := (s.bands.filter (fun b => b.ctx == ctx)).map (·.entry)
  let loops := (s.loops.filter (fun l => l.ctx == ctx)).map (·.id)
  let keep (ms : List InMsg) : List InMsg := ms.filter (fun m => m.ctx != ctx)
  { s with
    cur := if ofContext ctx s.cur then { Thread.idle with pos := s.cur.pos } else s.cur
    threads := s.threads.filter (fun t => !(ofContext ctx t))
    nodes := s.nodes.filter (fun n => n.ctx != ctx)
    net :=
      { calls := s.net.calls.filter (fun m => m.ctx != ctx)
        replies := s.net.replies.filter (fun m => m.caller.ctx != ctx)
        dones := s.net.dones.filter (fun m => m.caller.ctx != ctx)
        elements := s.net.elements.filter (fun e => !(bands.contains e.band))
        rsvs := s.net.rsvs.filter (fun m => !(loops.contains m.loop))
        amoqs := s.net.amoqs.filter (fun m => m.issuer.ctx != ctx)
        hostWrites := s.net.hostWrites.filter (fun w => w.ctx != ctx) }
    owners := s.owners.map (fun o => settleInbox 17 { o with inbox := keep o.inbox, held := keep o.held, spill := keep o.spill })
    cores := (s.cores.filter (fun c => !(sets.contains c.pos))).map (fun c =>
      { c with
        channels := c.channels.map (fun ch => { ch with live := ch.live.filter (fun x => x.issuer.ctx != ctx) })
        queue := c.queue.filter (fun q => q.issuer.ctx != ctx) })
    units := s.units.map (fun u => { u with runs := u.runs.filter (fun r => r.issuer.ctx != ctx) })
    loops := s.loops.filter (fun l => l.ctx != ctx)
    bands := s.bands.map (fun b => if b.ctx = ctx then { b with state := .preempting } else b)
    ctxs := s.ctxs.map (fun c => if c.number = ctx then { c with killing := true } else c) }

/-- Steps 3 and 4: every write of the context is performed; pins, regions, allotments and the save area are released. -/
def removeContext (ctx : Nat) (s : State) : State :=
  let s := { s with mem := s.mem.applyWhere none (fun w => w.issuer.ctx == ctx) }
  let s := (s.mem.changes.filter (fun x => x.ctx == ctx)).foldl (fun s x => finishChange x s) s
  let mine := s.bands.filter (fun b => b.ctx == ctx)
  let s := mine.foldl (fun s b => releaseBand b s) s
  let held (e : Nat) : Bool := mine.any (fun b => b.entry == e)
  { s with
    savedCores := s.savedCores.filter (fun c => !(held c.band))
    savedUnits := s.savedUnits.filter (fun x => !(held x.1))
    images := s.images.filter (fun x => !(held x.band))
    mem := { s.mem with
      counts := s.mem.counts.filter (fun k => k.ctx != ctx)
      waiters := s.mem.waiters.filter (fun w => w.who.ctx != 2 ^ 16 || w.who.firing != ctx) }
    ctxs := s.ctxs.filter (fun c => c.number != ctx) }

/-- KILL.  DEDUCED: notes/assumptions/33.md. -/
def execKill (h : CmdHeader) (s : State) : Out :=
  command 0x12 false h
    (fun s => match findCtx s h.context.toNat with
      | none => answered statusRefused s
      | some c => answered statusOk (stopContext c.number s))
    s

/-- KILL_COMPLETE: the record of kind KILLED is sent once nothing of the context is left; its CAUSE, PATH and TID are 0.  DESIGN
CHOICE: notes/assumptions/33.md. -/
def execKillComplete (ctx : Nat) (s : State) : Out :=
  match findCtx s ctx with
  | none => .next s
  | some c =>
    if c.killing then .next (ctxFault ctx kindKilled 0 0#64 0#64 0#64 0#64 (removeContext ctx s)) else .next s

/-- Every context ends at once, without a record. -/
def dropContexts (s : State) : State :=
  s.ctxs.foldl (fun s c => removeContext c.number (stopContext c.number s)) s

/-! ## Sessions (R368) -/

def bytesOf256 (x : BitVec 256) : List Byte := natBytes 32 x.toNat

/-- The certificate: the public key, the part code and the vendor's signature over both (R375).  DESIGN CHOICE: notes/assumptions/36.md. -/
def deviceCertificate : List Byte :=
  let body := Config.deviceKey ++ natBytes 8 Config.partCode.toNat
  body ++ Config.vendorSign body

/-- The OPEN reply: a device nonce, the device's signature over the digest of both nonces and keys, and its certificate. -/
def openReply (r : OpenRequest) (nonce : BitVec 256) : List Byte :=
  let signed := Config.deviceSign (bytesOf256 (Config.sha3 (bytesOf256 r.nonce ++ bytesOf256 nonce ++ r.key ++ Config.deviceKey)))
  bytesOf256 nonce ++ signed ++ deviceCertificate

/-- The session opens; a latched trip is reported to it again (R380). -/
def openWith (r : OpenRequest) (s : State) : State :=
  let d := { s.dev with session := some ⟨Config.sha3 r.key, 1, 0, s.dev.cycle, none⟩ }
  let d := if d.tripLatched then hostMessage 0x82 0 d.tripPayload d else d
  { s with dev := d }

/-- Bytes of OPEN's payload: a nonce, a key, a signature and the byte of TAKEOVER.  DEDUCED: notes/assumptions/33.md. -/
def openLength : Nat := 32 + 1312 + 2420 + 1

/-- OPEN.  DEDUCED: notes/assumptions/33.md; PRESUMED: notes/assumptions/35.md; DESIGN CHOICE: notes/assumptions/36.md. -/
def execOpenSession (h : CmdHeader) (r : OpenRequest) (s : State) : Out :=
  let answer (status : Nat) (payload : List DWord) (s : State) : Out := .next (replyTo h.opcode.toNat h status payload s)
  if s.dev.power = .d3 then .next s
  else
    match s.dev.warmReset with
    | some w =>
      if r.takeover && !w.takeoverAnswered then
        answer statusBusy [] { s with dev := { s.dev with warmReset := some { w with takeoverAnswered := true } } }
      else .next s
    | none =>
      if headerBad 0x01 h || decide (h.length.toNat ≠ openLength ∨ h.seq ≠ 0#64 ∨ r.key.length ≠ 1312 ∨ r.signature.length ≠ 2420) then
        answer statusRefused [] s
      else if !(s.dev.owners.contains (Config.sha3 r.key)) ||
          !(Config.verify r.key (bytesOf256 (Config.sha3 (bytesOf256 r.nonce))) r.signature) then answer statusAuth [] s
      else if sessionOpen s && !r.takeover then answer statusBusy [] s
      else
        let nonce := Config.freeValue s.free 256
        let s := { s with free := s.free + 1 }
        .next (replyBytes h.opcode.toNat h statusOk (openReply r nonce) (openWith r s))

/-- CLOSE: the session's contexts are KILLed.  DEDUCED: notes/assumptions/33.md. -/
def execClose (h : CmdHeader) (s : State) : Out :=
  command 0x02 true h
    (fun s =>
      let t := s.ctxs.foldl (fun s c => stopContext c.number s) s
      answered statusOk { t with dev := { t.dev with session := none } })
    s

/-- KEEPALIVE. -/
def execKeepalive (h : CmdHeader) (s : State) : Out := command 0x03 true h (withLength 0 h (answered statusOk)) s

/-! ## Contexts (R369) -/

def inRange (x : Option Nat) (lo hi : Nat) : Bool :=
  match x with
  | some n => decide (lo ≤ n) && decide (n ≤ hi)
  | none => true

/-- The settable fields lie in their ranges. -/
def settableValid (r : SettableRequest) : Bool :=
  inRange r.timeoutMs 1 65535 && inRange r.waitLimit (2 ^ 16) (2 ^ 40) && (r.runLimit == some 0 || inRange r.runLimit (2 ^ 20) (2 ^ 44)) &&
    inRange r.stallInterval (2 ^ 20) (2 ^ 40)

/-- Change the settable fields; an absent one keeps its value. -/
def applySettable (r : SettableRequest) (c : Ctx) : Ctx :=
  { c with
    saveArea := (r.saveArea.map (·.1)).getD c.saveArea
    saveSize := (r.saveArea.map (·.2)).getD c.saveSize
    spillAddr := (r.spillHeap.map (·.1)).getD c.spillAddr
    spillSize := (r.spillHeap.map (fun x => x.2 * 65536)).getD c.spillSize
    timeoutMs := r.timeoutMs.getD c.timeoutMs
    waitLimit := r.waitLimit.getD c.waitLimit
    runLimit := r.runLimit.getD c.runLimit
    stallInterval := r.stallInterval.getD c.stallInterval }

/-- A fresh context with the fields of CTXCREATE and the default limits. -/
def newContext (number : Nat) (r : ContextRequest) (now : Nat) : Ctx :=
  applySettable r.settable
    { probeCtx with
      number := number
      det := r.det
      clusters := r.clusters
      lupins := r.lupins
      trapEntry := r.trapEntry
      root := r.root
      handlerTable := r.handlerTable
      adopt := r.adopt
      lastProgress := now }

/-- A capability as the host may give it a tag (01 R38 to R40): EXP and the reserved bits fit, no instruction alone creates its
OTYPE, and permission bits 14 and 15 are zero. -/
def hostCap (c : QWord) : Bool :=
  decide (capExp c ≤ 46) && c.extractLsb' 64 2 == 0#2 && capType c != 3 && capType c != 4 && capType c != 5 &&
    c.extractLsb' 126 2 == 0#2

/-- A range of bytes lies within the stores' apertures, or below them, of one device. -/
def roomAt (a n : Nat) : Bool := decide (a % 2 ^ 50 + n ≤ (if a % 2 ^ 50 / 2 ^ 40 = 0x3FF then 2 ^ 50 else 0x3FF * 2 ^ 40))

/-- The fields of CTXCREATE lie in their ranges. -/
def contextValid (s : State) (number : Nat) (r : ContextRequest) : Bool :=
  number != 0 && (findCtx s number).isNone && (!r.det || (r.clusters != 0#256 && r.lupins != 0#512)) &&
    (!r.trapEntry.tag || (capType r.trapEntry.val == 1 && hostCap r.trapEntry.val)) && decide (r.root.toNat % 256 = 0) && decide (r.root.toNat < 2 ^ 41) &&
    decide (keyOffset r.root.toNat + 8192 ≤ hbmPerDie) && roomAt r.handlerTable.toNat (4096 * 32) && settableValid r.settable

/-- CTXCREATE: without ADOPT the level-0 table begins with no entry.  DEDUCED: notes/assumptions/33.md. -/
def execCtxcreate (h : CmdHeader) (r : ContextRequest) (s : State) : Out :=
  command 0x10 false h
    (fun s =>
      if 256 ≤ s.ctxs.length then answered statusBusy s
      else if !(contextValid s h.context.toNat r) then answered statusRefused s
      else
        let s := { s with ctxs := s.ctxs ++ [newContext h.context.toNat r s.dev.cycle] }
        answered statusOk (if r.adopt then s else { s with mem := s.mem.put 4 r.root.toNat (List.replicate 8192 0#8) }))
    s

/-- The most bytes that an eviction of a band may need (13 R353). -/
def saveBound (p : Packet) : Nat :=
  let cores := gangWidth p * p.gangs
  let threads := ((List.range (gangWidth p)).map (threadsOn p)).foldl (· + ·) 0 * p.gangs
  65536 + 8192 * threads + cores * (p.coreBytes + 16384 * p.tiles + 8192) + p.gangs * (33 * p.clusterBytes / 32)

/-- The bytes that an eviction of a band needs: some, so that a context without a save area keeps its bands in retention
(13 R353).  DEDUCED: notes/assumptions/32.md. -/
def saveNeed (p : Packet) : Nat :=
  min (saveBound p) (Config.saveBytes (4 * gangWidth p * p.gangs) (gangWidth p * p.gangs) p.coreBytes p.clusterBytes p.tiles + 1)

/-- CTXSET. -/
def execCtxset (h : CmdHeader) (r : SettableRequest) (s : State) : Out :=
  command 0x11 false h
    (withContext h (fun c s =>
      let c' := applySettable r c
      if !(settableValid r) || decide (c'.spillSize < c.spillUsed) || (saveParts s c.number).any (fun x => decide (x.1 < c'.saveArea.toNat) || decide (c'.saveArea.toNat + c'.saveSize < x.1 + x.2)) then
        answered statusRefused s
      else answered statusOk (putCtx c' s)))
    s

/-! ## Translation tables and windows (13 R357, R358, 08 R250) -/

/-- An entry as it will stand once the changes in progress are complete. -/
def comingEntry (m : Memory) (k : Nat) : DWord :=
  match m.changes.reverse.find? (fun x => x.entryAt == k) with
  | some x => x.word
  | none => m.word64 k

/-- The address of the entry of a level that the walk of an address reaches, an entry whose change is in progress counting as
changed; none when a table on the way is missing.  DEDUCED: notes/assumptions/33.md. -/
def entryAddress (m : Memory) (addr : Nat) : Nat → Nat → Nat → Option Nat
  | 0, level, table => some (table + 8 * levelIndex level addr)
  | left + 1, level, table =>
    let w := comingEntry m (table + 8 * levelIndex level addr)
    if entryKind w = 1 then entryAddress m addr left (level + 1) (entryTable w) else none

/-- Reserved bits of an entry are zero.  An entry of KIND 3 or a misaligned leaf is written and traps at the access (R358).
DEDUCED: notes/assumptions/33.md. -/
def entryClean (w : DWord) : Bool := w.extractLsb' 6 2 == 0#2

/-- A host's entry as it is written: OWNED, GANG, BAND, PLACED and MIGRATING are the device's. -/
def hostEntry (w : DWord) : DWord := entryWithMigrating (entryWithOwner (w &&& ~~~0x20#64) none) false

/-- Write one entry; a leaf in force changes by R359, and the command's reply waits for it. -/
def mapOne (c : Ctx) (reply : Option HostMsg) (e : MapEntry) (s : State) : State :=
  match entryAddress s.mem e.address.toNat e.level 0 c.root.toNat with
  | none => s
  | some k =>
    let old := s.mem.word64 k
    if entryKind old = 2 ∨ s.mem.changes.any (fun x => x.entryAt == k) then
      let size := levelSize e.level
      beginChange ⟨c.number, w64 (e.address.toNat % 2 ^ 50 / size * size), size, k, hostEntry e.word, none, reply⟩ s
    else { s with mem := s.mem.put 4 k (natBytes 8 (hostEntry e.word).toNat) }

/-- Every entry in turn. -/
def mapAll (c : Ctx) (reply : HostMsg) (es : List MapEntry) (s : State) : State := es.foldl (fun s e => mapOne c (some reply) e s) s

/-- The tables that the entries need exist at each one's turn. -/
def mapValid (c : Ctx) : List MapEntry → State → Bool
  | [], _ => true
  | e :: rest, s =>
    decide (e.level ≤ 3) && decide (e.address.toNat / 2 ^ 50 = 0) && decide (e.address.toNat / 2 ^ 40 ≠ 0x3FF) && entryClean e.word &&
      (entryAddress s.mem e.address.toNat e.level 0 c.root.toNat).isSome && mapValid c rest (mapOne c none e s)

/-- MAPWRITE.  DEDUCED: notes/assumptions/33.md. -/
def execMapwrite (h : CmdHeader) (r : MapRequest) (s : State) : Out :=
  command 0x13 false h
    (withContext h (fun c s =>
      let reply := wordsMessage 0x13 c.number statusOk h.seq.toNat []
      let frameOk (x : Nat × Nat) : Bool :=
        decide (x.1 < 4) && decide (x.2 % 65536 = 0) && decide (x.2 / 2 ^ 39 = x.1) && decide (keyOffset x.2 + 65536 ≤ hbmPerDie)
      if !(mapValid c r.entries s) || !(r.frames.all frameOk) then answered statusRefused s
      else
        let c' := { c with frames := r.frames.foldl (fun fs x => fs.modify x.1 (· ++ [x.2])) c.frames }
        let t := mapAll c reply r.entries (putCtx c' s)
        if t.mem.changes.any (fun x => x.reply == some reply) then .later t else answered statusOk t))
    s

/-- A window's ranges lie in its die: stored bytes and scale records in its HBM, the view among its OFFSETs (08 R244).  DEDUCED:
notes/assumptions/16.md. -/
def windowFits (x : Window) : Bool :=
  decide (x.sbase + x.slength ≤ hbmPerDie) && decide (x.scaleBase + x.slength / 8 ≤ hbmPerDie) &&
    decide (x.vbase + x.slength * x.factor ≤ 2 ^ 39)

/-- Fields of a window setting that R250 allows. -/
def windowValid (r : WindowRequest) : Bool :=
  let w := r.words
  let reserved := w.w0.extractLsb' 39 21 == 0#21 && w.w1.extractLsb' 39 25 == 0#25 && w.w2.extractLsb' 39 25 == 0#25 &&
    w.w3.extractLsb' 39 25 == 0#25
  decide (r.die < 4) && decide (r.window < 16) && reserved &&
    (match windowOf r.die w with
     | none => true
     | some x => x.sfmt != 3 && x.sbase % 128 == 0 && x.slength % 128 == 0 && x.scaleBase % 16 == 0 &&
         x.vbase % (128 * x.factor) == 0 && windowFits x)

/-- Two windows show or scale common bytes.  DEDUCED: notes/assumptions/16.md. -/
def windowsOverlap (a b : Window) : Bool :=
  overlaps a.sbase a.slength b.sbase b.slength ||
    overlaps a.scaleBase (a.slength / 8) b.scaleBase (b.slength / 8) ||
    overlaps a.vbase (a.slength * a.factor) b.vbase (b.slength * b.factor)

/-- View lines of a window are written back before its register changes.  DEDUCED: notes/assumptions/16.md. -/
def dropViews (die : Nat) (w : Option Window) (m : Memory) : Memory :=
  match w with
  | none => m
  | some x => (m.views.filter (fun v => m.windowOfKey (128 * v.line) == some x && keyDie (128 * v.line) == die)).foldl
      (fun m v => m.viewWriteback v false) m

/-- WINDOWSET.  DEDUCED: notes/assumptions/16.md. -/
def execWindowset (h : CmdHeader) (r : WindowRequest) (s : State) : Out :=
  command 0x14 false h
    (fun s =>
      let i := 16 * r.die + r.window
      let others := (List.range 16).filterMap (fun k =>
        if k = r.window then none else windowOf r.die (s.mem.windows.getD (16 * r.die + k) ⟨0#64, 0#64, 0#64, 0#64⟩))
      let clash := match windowOf r.die r.words with
        | some x => others.any (windowsOverlap x)
        | none => false
      if !(windowValid r) || clash then answered statusRefused s
      else
        let m := dropViews r.die (windowOf r.die (s.mem.windows.getD i ⟨0#64, 0#64, 0#64, 0#64⟩)) s.mem
        answered statusOk { s with mem := { m with windows := m.windows.set i r.words } })
    s

/-! ## Ordered atomics, epochs, events, capabilities -/

/-- AMOQSET (05 R157). -/
def execAmoqset (h : CmdHeader) (r : AmoqRequest) (s : State) : Out :=
  command 0x15 false h
    (withContext h (fun c s =>
      let w := windowOfCtx s c.number r.window
      let open' := w.accepted != [] || w.held != []
      let enlarges := r.counter.isNone && r.batch.isNone && decide (w.area ≤ r.area)
      if 64 ≤ r.window ∨ !(inRange r.batch 1 1048576) then answered statusRefused s
      else if open' && !enlarges then answered statusState s
      else
        let restarts := r.counter.isSome || r.batch.isSome
        let s := modWindow c.number r.window
          (fun w =>
            { w with
              counter := r.counter.getD w.counter
              batch := r.batch.getD w.batch
              next := if restarts then 0 else w.next
              area := r.area
              told := false })
          s
        answered statusOk (amoqSettle c.number r.window (amoqFuel (windowOfCtx s c.number r.window)) s)))
    s

/-- EPOCHRESET (12 R329). -/
def execEpochreset (h : CmdHeader) (s : State) : Out :=
  command 0x16 false h
    (withContext h (fun c s =>
      if s.loops.any (fun l => l.ctx == c.number && l.state != .finished && l.state != .faulted) then answered statusState s
      else answered statusOk (putCtx { c with epoch := 1 } s)))
    s

/-- EVENT: the set mask, then the clear mask; the reply carries the vector. -/
def execEvent (h : CmdHeader) (setMask clearMask : BitVec 256) (s : State) : Out :=
  command 0x17 false h
    (withLength 64 h (withContext h (fun c s =>
      let clock := s.mem.clockAt (hubAgent c).eye
      let s := changeEvents c.number clearMask false clock (changeEvents c.number setMask true clock s)
      let events := match findCtx s c.number with | some c => c.events | none => 0#256
      .done statusOk ((List.range 4).map (eventWord events)) s)))
    s

/-- Store capabilities with their tags. -/
def storeCaps (c : Ctx) : List CapPair → Act Unit
  | [] => pure ()
  | x :: rest => do
    trapIf (!(hostCap x.cap)) 0x05 x.address
    trapIf (x.address.toNat % 16 != 0) 0x08 x.address
    let p ← reach (hubAgent c) x.address.toNat 16 .write false false
    match p with
    | .bytes _ _ | .split _ => do
      modify (performPlace 4 p (natBytes 16 x.cap.toNat) true (hubAgent c).issuer)
      storeCaps c rest
    | _ => trap 0x06 x.address

/-- CAPWRITE: all of the pairs, or none.  DEDUCED: notes/assumptions/33.md. -/
def execCapwrite (h : CmdHeader) (pairs : List CapPair) (s : State) : Out :=
  command 0x18 false h
    (withLength (24 * pairs.length) h (withContext h (fun c s =>
      if 64 < pairs.length then answered statusRefused s
      else
        match storeCaps c pairs s with
        | .ok (_, t) => answered statusOk t
        | .error .wait | .error (.hold _) => .waits
        | .error _ => answered statusRefused s)))
    s

/-! ## Nodes (R367, 07 R212) -/

/-- A spawned child, not live and not exited, that a packet's path names (09 R278).  DEDUCED: notes/assumptions/23.md. -/
def failedChild (s : State) (ctx : Nat) (path : DWord) : Option (Nat × Nat) :=
  s.bands.findSome? (fun b =>
    if b.ctx = ctx then
      (b.spawned.find? (fun k =>
        childPath b.packet.path k == some path && !(b.exited.any (·.1 == k)) &&
          !(s.nodes.any (fun n => n.parent == some b.sequence && n.child == k)) &&
          !(s.bands.any (fun x => x.parent == some b.sequence && x.child == k)))).map (fun k => (b.sequence, k))
    else none)

/-- LAUNCH from the host: its capability fields are tagged by the device.  DEDUCED: notes/assumptions/12.md. -/
def execLaunchCommand (h : CmdHeader) (packet : BitVec 2048) (s : State) : Out :=
  command 0x20 false h
    (withLength 256 h (withContext h (fun c s =>
      let ws := (List.range 32).map (fun i => packet.extractLsb' (64 * i) 64)
      let tags := (List.range 9).map (fun i => ws.getD (2 * i) 0#64 != 0#64 || ws.getD (2 * i + 1) 0#64 != 0#64)
      let p := packetOf ws tags
      let caps := (p.entry :: p.operands).all (fun x => !x.tag || hostCap x.val)
      match if caps then packetFault ws p c.det (descriptorWords s c none p.entry.val) else some (0x05, 0) with
      | some _ => answered statusRefused s
      | none =>
        let child := failedChild s c.number p.path
        match addNode c.number p (child.map (·.1)) ((child.map (·.2)).getD 0) false none (s.mem.clockAt (hubAgent c).eye) s with
        | some t => answered statusOk t
        | none => answered statusBusy s)))
    s

/-- The bands of a context that a selector names. -/
def selectedBy (s : State) (ctx : Nat) (band : Option Nat) : List Band :=
  s.bands.filter (fun b => b.ctx == ctx && (match band with | some e => b.entry == e | none => true))

/-- PREEMPT (13 R353, R354): the reply carries, for each band named, its entry, the mode it will reach and the bytes that an
eviction needs.  DEDUCED: notes/assumptions/32.md. -/
def execPreempt (h : CmdHeader) (evict : Bool) (band : Option Nat) (s : State) : Out :=
  command 0x21 false h
    (withContext h (fun c s =>
      let live (b : Band) : Bool := b.state == .running || b.state == .draining
      let xs := selectedBy s c.number band
      if band.isSome && xs == [] then answered statusRefused s
      else if band.isSome && !(xs.any live) then answered statusState s
      else
        let r := (xs.filter live).foldl
          (fun (r : List DWord × State) b =>
            let place := if evict then savePlace r.2 c (saveNeed b.packet) else none
            let t := beginPreempt b.entry place.isSome r.2
            (r.1 ++ [w64 b.entry, w64 (if place.isSome then 1 else 0), w64 (saveNeed b.packet)],
              { t with bands := t.bands.map (fun x =>
                  if x.entry = b.entry then { x with saveAt := place.map (fun k => (w64 k, saveNeed b.packet)) } else x) }))
          ([], s)
        .done statusOk r.1 r.2))
    s

/-- A saved band resumes on what it kept, or waits in the pool to be placed again.  DEDUCED: notes/assumptions/23.md. -/
def resumeOne (b : Band) (s : State) : State :=
  if b.evicted then
    if s.nodes.any (fun n => n.entry == b.entry) then s
    else
      { s with nodes := s.nodes ++ [
        { entry := b.entry
          ctx := b.ctx
          packet := b.packet
          ready := true
          entered := b.entered
          sequence := b.sequence
          readyAt := s.dev.cycle
          passed := 0
          parent := b.parent
          child := b.child
          spawned := b.bySpawn
          loop := none
          resumed := true
          clock := b.clock }] }
  else resumeBand b s

/-- RESUME (13 R356).  DEDUCED: notes/assumptions/32.md. -/
def execResume (h : CmdHeader) (band : Option Nat) (s : State) : Out :=
  command 0x22 false h
    (withContext h (fun c s =>
      let xs := selectedBy s c.number band
      if band.isSome && xs == [] then answered statusRefused s
      else if band.isSome && !(xs.any (fun b => b.state == .saved)) then answered statusState s
      else answered statusOk ((xs.filter (fun b => b.state == .saved)).foldl (fun s b => resumeOne b s) s)))
    s

/-! ## Power (R372) -/

/-- What entering a state requires.  DEDUCED: notes/assumptions/37.md. -/
def powerAllows (s : State) (target : PowerState) : Bool :=
  match target with
  | .d0 => true
  | .d1 => !(s.bands.any (fun b => b.state == .running || b.state == .draining))
  | .d2 => !(s.bands.any (fun b => !b.evicted)) && !(s.loops.any (fun l => l.state == .reserve || l.state == .commit))
  | .d3 => s.ctxs == []

/-- The transitions that the host may command. -/
def powerPath (now target : PowerState) : Bool :=
  match now with
  | .d0 => true
  | .d1 | .d2 => target == .d0 || target == .d3
  | .d3 => false

/-- Cycles of a second (00 R3).  DEDUCED: notes/assumptions/40.md. -/
def cyclesPerSecond : Nat := 850000000

/-- The sensors: a junction temperature of each compute die, cache die and the hub, a temperature of each stack, and a current of
each rail group (R372, 00 R2). -/
def sensorCount : Nat := 9 + 16 + Config.railGroups

/-- The readings of every sensor, which the spec leaves to the package.  DEDUCED: notes/assumptions/37.md. -/
def readSensors (s : State) : List DWord × State :=
  ((List.range sensorCount).map (fun i => Config.freeValue (s.free + i) 64), { s with free := s.free + sensorCount })

/-- After a trip, D0 needs every sensor to have stayed below its level for a second; after that second, whether they have, only the
package knows.  DEDUCED: notes/assumptions/37.md. -/
def cooled (target : PowerState) (s : State) : Bool × State :=
  if s.dev.tripLatched && target == .d0 then
    match s.dev.tripAt with
    | some n => if s.dev.cycle < n + cyclesPerSecond then (false, s) else let (i, s) := pick 2 s; (i != 0, s)
    | none => let (i, s) := pick 2 s; (i != 0, s)
  else (true, s)

/-- POWER.  DESIGN CHOICE: notes/assumptions/34.md; DEDUCED: notes/assumptions/37.md. -/
def execPower (h : CmdHeader) (target : PowerState) (s : State) : Out :=
  command 0x30 false h
    (fun s =>
      let (readings, s) := readSensors s
      let (cool, s) := cooled target s
      if !(powerPath s.dev.power target) || !(powerAllows s target) || !cool then .done statusState readings s
      else
        let latched := s.dev.tripLatched && target != .d0
        .done statusOk readings { s with dev := { s.dev with powerTarget := some target, tripLatched := latched } })
    s

/-! ## Reports (R371, R376, R378) -/

/-- The numbers of the kinds of unit, in the order of DEVFAULT's row (R367).  DESIGN CHOICE: notes/assumptions/34.md. -/
def kindNumber (k : UnitKind) : Nat :=
  match k with
  | .computeDie => 0
  | .cacheDie => 1
  | .stack => 2
  | .lupinCore => 3
  | .forvasLink => 4
  | .port => 5
  | .hub => 6

/-- The image that a stage runs. -/
def bootedImage (x : FirmwareStage) : FirmwareImage := if x.bootedB then x.slotB else x.slotA

/-- One entry of the capability list at an offset.  DESIGN CHOICE: notes/assumptions/34.md. -/
def capabilityEntry (id offset : Nat) (last : Bool) (content : List DWord) : List DWord :=
  let length := 8 + 8 * content.length
  w64 (id * 2 ^ 48 + 2 ^ 40 + length % 2 ^ 16 * 2 ^ 24 + (if last then 0 else offset + length)) :: content

/-- The number of a port's state.  DESIGN CHOICE: notes/assumptions/34.md. -/
def portNumber (x : PortState) : Nat :=
  match x with
  | .down => 0
  | .up => 1
  | .oneLane => 2

/-- The contents of each capability entry, a word for each value: fused-off units as kind and number, owner list digests as four
words.  DESIGN CHOICE: notes/assumptions/34.md. -/
def capabilityContent (s : State) (id : Nat) : List DWord :=
  match id with
  | 1 => Config.partCode :: Config.stepping :: s.dev.failedUnits.map (fun x => w64 (kindNumber x.1 * 2 ^ 32 + x.2.1))
  | 2 => [Config.mapVersion]
  | 3 => [w64 4, w64 256, w64 2048, w64 16, w64 512]
  | 4 => w64 24 :: s.dev.ports.map (fun x => w64 (portNumber x))
  | 5 => [w64 256, w64 16384, w64 16384, w64 4096, w64 64]
  | 6 =>
    s.dev.owners.flatMap (fun d => wordsOf 4 (bytesOf256 d)) ++ s.dev.firmware.map (fun x => w64 (bootedImage x).version) ++
      s.dev.firmware.map (fun x => w64 x.rollback)
  | _ => []

/-- The chain of R371.  DESIGN CHOICE: notes/assumptions/34.md. -/
def capabilityList (s : State) : List DWord :=
  (List.range 6).foldl
    (fun ws i => ws ++ capabilityEntry (i + 1) (8 * ws.length) (i == 5) (capabilityContent s (i + 1)))
    []

/-- CAPREAD. -/
def execCapread (h : CmdHeader) (s : State) : Out :=
  command 0x31 true h (fun s => .done statusOk (capabilityList s) s) s

/-- The words of an alert log: CYCLE, then channel, bank, row and agent.  DESIGN CHOICE: notes/assumptions/34.md. -/
def alertWords (s : State) : List DWord :=
  (List.range 16).flatMap (fun k =>
    w64 (s.dev.alertsLost.getD k 0) :: (s.dev.alerts.getD k []).flatMap (fun e =>
      [w64 e.cycle, w64 e.channel, w64 e.bank, w64 e.row, w64 (if e.sequencer then 1 else 0)]))

/-- The number of an error's place.  DESIGN CHOICE: notes/assumptions/34.md. -/
def placeNumber (x : ErrorPlace) : Nat :=
  match x with
  | .hbm => 0
  | .l2 => 1
  | .stash => 2
  | .coreStore => 3
  | .clusterStore => 4

/-- The words of each die's uncorrectable-error log: how many errors, then the place and the address of each.  DESIGN CHOICE:
notes/assumptions/34.md. -/
def errorWords (s : State) : List DWord :=
  (List.range 4).flatMap (fun die =>
    let xs := s.dev.errorLog.filter (fun x => (ownerOfKey s.mem x.2).die == die)
    w64 xs.length :: xs.flatMap (fun x => [w64 (placeNumber x.1), w64 x.2]))

/-- CRASH (R378): the last records, the error logs, the alert logs and, in minimal mode, the cause record.  DESIGN CHOICE: notes/assumptions/34.md. -/
def execCrash (h : CmdHeader) (s : State) : Out :=
  command 0x32 true h
    (fun s =>
      let words := s.dev.crash.flatMap (·.payload) ++ errorWords s ++ alertWords s
      .done statusOk (if s.dev.minimalMode then words ++ [s.dev.bootRecord] else words) s)
    s

/-- ALERTS (11 R325). -/
def execAlerts (h : CmdHeader) (clear : Bool) (s : State) : Out :=
  command 0x34 false h
    (fun s =>
      let t : State :=
        if clear then { s with dev := { s.dev with alerts := List.replicate 16 [], alertsLost := List.replicate 16 0 } } else s
      .done statusOk (alertWords s) t)
    s

def powerNumber (p : PowerState) : Nat :=
  match p with
  | .d0 => 0
  | .d1 => 1
  | .d2 => 2
  | .d3 => 3

/-- The owner list as bytes: four digests. -/
def ownerBytes (s : State) : List Byte := s.dev.owners.flatMap bytesOf256

/-- The report of R376.  DESIGN CHOICE: notes/assumptions/36.md. -/
def attestReport (s : State) (nonce : BitVec 256) : List Byte :=
  bytesOf256 nonce ++ bytesOf256 (Config.sha3 Config.deviceKey) ++
    s.dev.firmware.flatMap (fun x => bytesOf256 (bootedImage x).digest) ++
    s.dev.firmware.flatMap (fun x => natBytes 4 (bootedImage x).version) ++ bytesOf256 (Config.sha3 (ownerBytes s)) ++
    natBytes 4 (powerNumber s.dev.power + (if s.dev.minimalMode then 2 ^ 8 else 0) + (if s.dev.tripLatched then 2 ^ 9 else 0)) ++
    natBytes 8 s.dev.cycle

/-- ATTEST. -/
def execAttest (h : CmdHeader) (nonce : BitVec 256) (s : State) : Out :=
  command 0x35 true h
    (withLength 32 h (fun s =>
      let report := attestReport s nonce
      .report (report ++ Config.deviceSign (bytesOf256 (Config.sha3 report))) s))
    s

/-! ## Firmware (R367, R368, R373) -/

/-- The header's signature over its digest is the vendor's (R373). -/
def imageSigned (i : FirmwareImage) : Bool :=
  Config.sha3 (Config.firmwareKey i.image) == Config.vendorKeyDigest &&
    Config.verify (Config.firmwareKey i.image) (bytesOf256 i.digest) (Config.firmwareSignature i.image)

/-- An image passes: its digest matches, its signature verifies, and its version is not below the rollback counter.  DESIGN CHOICE: notes/assumptions/36.md. -/
def imagePasses (x : FirmwareStage) (i : FirmwareImage) : Bool :=
  i.present && i.digest == Config.sha3 (Config.firmwareBody i.image) && imageSigned i && decide (x.rollback ≤ i.version)

def discardStaging (s : State) : State :=
  { s with dev := { s.dev with staging := [], stagingStage := 0, stagingSlot := 0, stagingTotal := 0 } }

/-- The image of a new owner list carries the signature, over the digest of the list, of a key that is on the list in force (R368).
DESIGN CHOICE: notes/assumptions/36.md. -/
def ownerListSigned (owners : List (BitVec 256)) (bs : List Byte) : Bool :=
  owners.contains (Config.sha3 (Config.ownerListKey bs)) &&
    Config.verify (Config.ownerListKey bs) (bytesOf256 (Config.sha3 (bs.take 128))) (Config.ownerListSignature bs)

/-- The owner list of a stage 7 image. -/
def ownersOf (bs : List Byte) : List (BitVec 256) :=
  (List.range 4).map (fun i => BitVec.ofNat 256 (bytesNat ((bs.drop (32 * i)).take 32)))

/-- Verify a whole staged image and store it: a stage's image in the slot that did not boot, a new owner list in its place.  DESIGN CHOICE: notes/assumptions/36.md; DEDUCED: notes/assumptions/37.md. -/
def storeImageOf (stage : Nat) (bs : List Byte) (s : State) : Option State :=
  if stage = 7 then
    if ownerListSigned s.dev.owners bs then some { s with dev := { s.dev with owners := ownersOf bs } } else none
  else
    match s.dev.firmware[stage - 1]? with
    | none => none
    | some x =>
      let i : FirmwareImage := ⟨Config.firmwareVersion bs, Config.firmwareDigest bs, bs, true⟩
      if imagePasses x i then
        let x' := if x.bootedB then { x with slotA := i } else { x with slotB := i }
        some { s with dev := { s.dev with firmware := s.dev.firmware.set (stage - 1) x' } }
      else none

/-- FIRMWARE: fragments in ascending order with no gap; the last verifies and stores. -/
def execFirmware (h : CmdHeader) (f : FirmwareFragment) (s : State) : Out :=
  command 0x36 true h
    (withLength (16 + f.image.length) h (fun s =>
      let d := s.dev
      let first := d.stagingStage == 0
      let follows := if first then f.offset == 0 else (f.offset == d.staging.length && f.stage == d.stagingStage && f.slot == d.stagingSlot && f.total == d.stagingTotal)
      let stageOk := decide (1 ≤ f.stage ∧ f.stage ≤ 5) || f.stage == 7
      if !follows || !stageOk || decide (1 < f.slot) || decide (2 ^ 24 < f.total) || decide (65504 < f.image.length) ||
          decide (f.total < f.offset + f.image.length) || (f.last && f.offset + f.image.length != f.total) then
        answered statusRefused (discardStaging s)
      else
        let bs := (if first then [] else d.staging) ++ f.image
        let s : State := { s with dev := { d with staging := bs, stagingStage := f.stage, stagingSlot := f.slot, stagingTotal := f.total } }
        if f.last then
          match storeImageOf f.stage bs (discardStaging s) with
          | some t => answered statusOk t
          | none => answered statusRefused (discardStaging s)
        else answered statusOk s))
    s

/-- FABRICMAP (R365). -/
def execFabricmap (h : CmdHeader) (r : FabricRequest) (s : State) : Out :=
  command 0x37 false h
    (fun s =>
      if 16384 ≤ r.number ∨ !(r.entries.all (fun x => decide (x.1 < 16384))) then answered statusRefused s
      else if s.ctxs ≠ [] then answered statusState s
      else answered statusOk { s with dev := { s.dev with number := r.number, fabricMap := r.entries } })
    s

/-! ## Warm reset (R379) -/

/-- Lines that HBM does not hold yet are lost.  DEDUCED: notes/assumptions/37.md. -/
def loseLines (m : Memory) : Memory :=
  let lost (unit x : Nat) : Bool := m.dirty.any (fun d => x / unit == d.line)
  { m with
    cells := m.dirty.foldl (fun cs d => d.cells.foldl (fun cs c => cellPut cs c.1 c.2) cs) (m.cells.filter (fun c => !(lost 128 c.1)))
    tags := m.dirty.foldl (fun ts d => d.tags.foldl setAdd ts) (m.tags.filter (fun g => !(lost 8 g)))
    poison := m.dirty.foldl (fun ts d => d.poison.foldl setAdd ts) (m.poison.filter (fun g => !(lost 8 g)))
    dirty := []
    views := []
    unseen := []
    storeClocks := [] }

/-- A die's L2 works. -/
def dieWorks (s : State) (die : Nat) : Bool :=
  !(s.dev.failedUnits.any (fun x => (x.1 == .computeDie || x.1 == .cacheDie) && x.2.1 == die))

/-- Every dirty line of a working die is written back (R379); what others held is lost.  DEDUCED: notes/assumptions/37.md. -/
def flushLines (s : State) : Memory :=
  let m := (s.mem.views.filter (fun v => dieWorks s v.die)).foldl (fun m v => m.viewWriteback v false) s.mem
  loseLines { m with dirty := m.dirty.filter (fun d => !(dieWorks s d.die)) }

/-- No change of a leaf is in progress any more: MIGRATING is clear again (13 R357). -/
def dropChanges (m : Memory) : Memory :=
  { (m.changes.foldl (fun m x => m.put 4 x.entryAt (natBytes 8 (entryWithMigrating (m.word64 x.entryAt) false).toNat)) m) with
    changes := [] }

/-- The stores lose their contents. -/
def loseStores (m : Memory) : Memory :=
  { m with
    cells := m.cells.filter (fun c => !(keyIsStore c.1))
    tags := m.tags.filter (fun g => !(keyIsStore (16 * g)))
    poison := m.poison.filter (fun g => !(keyIsStore (16 * g)))
    full := []
    waiters := []
    storeClocks := [] }

/-- Everything on the compute dies is lost: threads, cores, queues and the pool.  DEDUCED: notes/assumptions/37.md. -/
def loseDies (s : State) : State :=
  { s with
    cur := Thread.idle
    threads := []
    mem := { loseStores s.mem with windows := List.replicate 64 ⟨0#64, 0#64, 0#64, 0#64⟩, clocks := List.replicate 5 (List.replicate 5 0), changes := [], counts := [] }
    cores := []
    savedCores := []
    savedUnits := []
    images := []
    units := []
    owners := []
    nodes := []
    bands := []
    loops := []
    net := ⟨[], [], [], [], [], [], []⟩ }

/-- WARMRESET: steps 1 to 4; the reply comes at D0.  DEDUCED: notes/assumptions/37.md. -/
def execWarmreset (h : CmdHeader) (flush : Bool) (s : State) : Out :=
  command 0x33 false h
    (fun s =>
      let s := { s with mem := dropChanges s.mem }
      let m := if flush then flushLines s else loseLines s.mem
      let s := loseDies { s with mem := m, ctxs := [] }
      .later { s with dev := { s.dev with
        power := .d2
        powerTarget := none
        tripAt := none
        throttles := []
        refresh := []
        failedUnits := s.dev.failedUnits.map (fun x => (x.1, x.2.1, 0))
        warmReset := some ⟨flush, h.seq, false⟩ } })
    s

end Sys2Proof.Machine
end

