-- ==== Sys2Proof/Machine/Join.lean ====
section
/-!
DEFINITION. Machine/Join.lean: the Factor Unit: join-tree types and partial results (07 R215 to R219), the up pass (R220, R221,
10 R289 to R299), the down pass, intersection and deltas (R222 to R224).
-/

namespace Sys2Proof.Machine

/-! ## Memory of the Factor Unit (10 R294): loads and stores of the issuing thread, atomic where they are aligned -/

/-- The accesses that n bytes at an address make: (offset, size).  DEDUCED: notes/assumptions/29.md. -/
def fxPieces (addr n : Nat) : List (Nat × Nat) := if addr % n = 0 then [(0, n)] else (List.range n).map (fun i => (i, 1))

/-- Read n bytes without a check of bounds.  DEDUCED: notes/assumptions/29.md. -/
def fxReadRaw (addr n : Nat) : Act Nat := do
  let a ← curAgent
  let rs ← (fxPieces addr n).mapM (fun x => do
    let p ← reach a (addr + x.1) x.2 .read false false
    let r ← readPlace a p (addr + x.1) x.2
    return r.1)
  return bytesNat rs.flatten

/-- Read n bytes through a capability. -/
def fxRead (c : TCap) (addr n : Nat) : Act Nat := do
  deref c addr n [permLD]
  fxReadRaw addr n

/-- Perform stores (address, bytes) after the checks of all of them. -/
def fxStore (c : TCap) (xs : List (Nat × List Byte)) : Act Unit := do
  storeElements c (xs.flatMap (fun x => (fxPieces x.1 x.2.length).map (fun p => (x.1 + p.1, (x.2.drop p.1).take p.2))))
  performOwn 3

/-! ## Types (R215, R216) -/

/-- TINFO of cause 0x0D (13 R348).  DESIGN CHOICE: notes/assumptions/10.md. -/
def joinInfo (row : Nat) (stale : Bool) (off rel : Nat) : DWord :=
  w64 (row % 2 ^ 32 * 2 ^ 32 + (if stale then 2 ^ 16 else 0) + off * 2 ^ 8 + rel % 16)

/-- Dense keys of a relation's parent edge; 1 for the root.  DEDUCED: notes/assumptions/29.md. -/
def keyCount (rels : List Relation) (r : Nat) : Nat :=
  match rels[r]? with
  | some x => if r = 0 then 1 else x.nkeys
  | none => 0

/-- The children of a relation, ascending. -/
def childrenOf (rels : List Relation) (r : Nat) : List Nat :=
  (List.range rels.length).filter (fun c => c != 0 && (match rels[c]? with | some x => x.parent == r | none => false))

/-- The relations that a type capability names at its generation (R216). -/
def slotRelations (slot : Nat) (gen : BitVec 16) (rel : Nat) : Act (List Relation) := do
  let c ← getCtx
  let t := c.types.getD slot ⟨0#16, []⟩
  trapIf (t.gen != gen) 0x0D (joinInfo 0 true 0xFF rel)
  return t.relations

/-- A type capability: its tag and type, then its generation (R218). -/
def typeRelations (a : TCap) (rel : Nat) : Act (List Relation) := do
  trapIf (!a.tag) 0x04 (capCursor a.val)
  trapIf (capType a.val != 3) 0x07 (capCursor a.val)
  slotRelations (kprSlot a.val) (kprGen a.val) rel

/-- One relation of a type capability. -/
def typeRelation (a : TCap) (r : Nat) : Act (List Relation × Relation) := do
  let rels ← typeRelations a r
  match rels[r]? with
  | some x => return (rels, x)
  | none => trap 0x0D (joinInfo 0 false 0xFF r)

/-- An entry of the descriptor in sixteen words and the tags of its first three granules. -/
def relationOf (ws : List DWord) (tags : List Bool) : Relation :=
  let w (i : Nat) : DWord := ws.getD i 0#64
  { rows := packetCap ws tags 0
    directory := packetCap ws tags 1
    delta := packetCap ws tags 2
    nrows := bitsOf (w 6) 32 32
    nkeys := bitsOf (w 6) 0 32
    rowBytes := bitsOf (w 7) 48 16
    keyOff := bitsOf (w 7) 32 16
    featOff := bitsOf (w 7) 16 16
    ffmt := bitsOf (w 7) 12 4
    fwidth := bitsOf (w 7) 0 11 + 1
    pkeyOff := bitsOf (w 8) 48 16
    heavy := bitsOf (w 8) 16 32
    parent := bitsOf (w 8) 0 8 }

/-- Offset of a reserved field of an entry that is not zero. -/
def relationReserved (ws : List DWord) : Option Nat :=
  if bitsOf (ws.getD 7 0#64) 11 1 ≠ 0 then some 0x38
  else if bitsOf (ws.getD 8 0#64) 8 8 ≠ 0 then some 0x40
  else if (ws.drop 9).any (· != 0#64) then some 0x48
  else none

/-- Depth of a relation below the root, given those of the lower ones. -/
def depths (rels : List Relation) : List Nat :=
  rels.foldl (fun ds x => ds ++ [if ds = [] then 0 else ds.getD x.parent 0 + 1]) []

/-- A capability covers n bytes from its cursor to its top. -/
def coversFrom (c : QWord) (n : Nat) : Bool :=
  decide ((capBounds c).1 ≤ capAddr c) && decide (capAddr c + n ≤ (capBounds c).2)

/-- The first check of R216 that a descriptor fails, as relation and offset.  DEDUCED: notes/assumptions/29.md. -/
def typeFault (rels : List Relation) : Option (Nat × Nat) :=
  let ks := List.range rels.length
  let at' (k : Nat) : Relation := rels.getD k (relationOf [] [])
  let usable (c : TCap) : Bool := c.tag && capHas c.val permLD && capHas c.val permJOIN
  ((ks.find? (fun k => if k = 0 then (at' k).parent != 0xFF else decide (k ≤ (at' k).parent))).map (·, 0x40)).orElse (fun _ =>
  ((ks.find? (fun k => decide (8 < (depths rels).getD k 0))).map (·, 0x40)).orElse (fun _ =>
  (ks.findSome? (fun k =>
    if !(usable (at' k).rows) then some (k, 0x00) else if !(usable (at' k).directory) then some (k, 0x10) else none)).orElse
      (fun _ =>
  (ks.findSome? (fun k =>
    if !(coversFrom (at' k).rows.val ((at' k).nrows * (at' k).rowBytes)) then some (k, 0x00)
    else if !(coversFrom (at' k).directory.val (4 * ((at' k).nkeys + 1))) then some (k, 0x10)
    else none)).orElse (fun _ =>
  (ks.find? (fun k => !([1, 2, 3, 4, 5, 7].contains (at' k).ffmt))).map (·, 0x38)))))

/-- JTLOAD (R216): tags need LDCAP (01 R40). -/
def jtloadBody (f : Ext) : Act Unit := do
  let a ← readG f.a f.ta
  let addr := capAddr a.val
  deref a addr 64 [permLD]
  let head := wordsOf 8 ((← readGranules addr 4).flatMap (·.1))
  let nrel := (head.getD 0 0#64).toNat
  trapIf (nrel == 0 || decide (16 < nrel) || (head.drop 1).any (· != 0#64)) 0x0D (joinInfo 0 false 0xFF 0)
  deref a addr (64 + 128 * nrel) [permLD]
  let gs ← readGranules (addr + 64) (8 * nrel)
  let keep := capHas a.val permLDCAP
  let entries := (List.range nrel).map (fun k =>
    let g := (gs.drop (8 * k)).take 8
    (wordsOf 16 (g.flatMap (·.1)), g.map (fun x => x.2 && keep)))
  match entries.mapIdx (fun k e => (relationReserved e.1).map (fun o => (k, o))) |>.findSome? id with
  | some (k, o) => trap 0x0D (joinInfo 0 false o k)
  | none => do
    let rels := entries.map (fun e => relationOf e.1 e.2)
    match typeFault rels with
    | some (k, o) => trap 0x0D (joinInfo 0 false o k)
    | none => do
      let slot := f.imm.toNat % 64
      let c ← getCtx
      let gen := (c.types.getD slot ⟨0#16, []⟩).gen + 1#16
      modCtx c.number (fun c => { c with types := c.types.setIfInBounds slot ⟨gen, rels⟩ })
      writeG f.d ⟨makeType nrel gen slot (capCursor a.val), true⟩

/-- JTCHK (R218). -/
def jtchkBody (f : Ext) : Act Unit := do
  let a ← readG f.a f.ta
  let b ← readG f.b f.tb
  let edge := f.imm.toNat % 16
  let width := f.imm.toNat / 16 % 2 ^ 11 + 1
  let counts := f.fmt == 14#4
  let (rels, _) ← typeRelation a edge
  let cursor := capCursor b.val
  trapIf (!b.tag) 0x04 cursor
  trapIf (capSealed b.val) 0x07 cursor
  trapIf (!(capHas b.val permLD && capHas b.val permST && capHas b.val permJOIN)) 0x06 cursor
  trapIf (cursor.toNat % 8 != 0) 0x08 cursor
  trapIf (!(coversFrom b.val (keyCount rels edge * (if counts then 8 else 4 * width)))) 0x05 cursor
  writeG f.d ⟨makeKpr (capPerms b.val) width counts edge (kprGen a.val) (kprSlot a.val) cursor, true⟩

/-! ## Rows, directories and slices (R215, R219, 10 R290) -/

/-- The N32 at an offset of a row. -/
def rowWord (x : Relation) (i off : Nat) : Act Nat :=
  fxRead x.rows (addOffset (capAddr x.rows.val) (i * x.rowBytes + off : Nat)) 4

/-- The N32 of a directory. -/
def directoryWord (x : Relation) (k : Nat) : Act Nat := fxRead x.directory (addOffset (capAddr x.directory.val) (4 * k : Nat)) 4

/-- first(k) and end(k) (R290). -/
def keyRows (x : Relation) (k : Nat) : Act (Nat × Nat) := do
  let lo ← directoryWord x k
  let hi ← directoryWord x (k + 1)
  let first := min lo x.nrows
  return (first, max first (min hi x.nrows))

def heavyOf (x : Relation) : Nat := if x.heavy = 0 then 4096 else x.heavy

/-- Slices of a key with `count` rows (R219). -/
def sliceCount (x : Relation) (count : Nat) : Nat := max 1 ((count + heavyOf x - 1) / heavyOf x)

/-- First row and row count of slice s. -/
def sliceRows (x : Relation) (first stop s : Nat) : Nat × Nat :=
  let lo := first + s * heavyOf x
  (lo, min (lo + heavyOf x) stop - lo)

/-- DESIGN CHOICE: notes/assumptions/10.md. -/
def jkeyBody (f : Ext) : Act Unit := do
  let a ← readG f.a f.ta
  let b ← readData f.b f.tb
  let r := f.imm.toNat % 16
  let (rels, x) ← typeRelation a r
  let i := b.toNat % 2 ^ 32
  trapIf (decide (x.nrows ≤ i)) 0x05 (capCursor a.val)
  let key ← if r = 0 then pure 0 else rowWord x i x.keyOff
  trapIf (decide (keyCount rels r ≤ key)) 0x0D (joinInfo i false 0xFF r)
  writeData f.d (w64 key)

/-- DESIGN CHOICE: notes/assumptions/10.md. -/
def jheavyBody (f : Ext) : Act Unit := do
  let a ← readG f.a f.ta
  let b ← readData f.b f.tb
  let r := f.imm.toNat % 16
  let (rels, x) ← typeRelation a r
  let k := b.toNat % 2 ^ 32
  trapIf (decide (keyCount rels r ≤ k)) 0x05 (capCursor a.val)
  let (first, stop) ← keyRows x k
  writeData f.d (w64 (sliceCount x (stop - first)))

def jsegBody (f : Ext) : Act Unit := do
  let a ← readG f.a f.ta
  let b ← readData f.b f.tb
  let r := f.imm.toNat % 16
  let (rels, x) ← typeRelation a r
  let k := b.toNat % 2 ^ 32
  trapIf (decide (keyCount rels r ≤ k)) 0x05 (capCursor a.val)
  let (first, stop) ← keyRows x k
  let s := b.toNat / 2 ^ 32
  trapIf (decide (sliceCount x (stop - first) ≤ s)) 0x05 (capCursor a.val)
  let rows := sliceRows x first stop s
  writeData f.d (w64 (rows.1 + rows.2 * 2 ^ 32))

/-! ## The up pass (R220) -/

/-- A child in a pass: its index, relation, and sum and count results. -/
structure PassChild where
  index : Nat
  rel : Relation
  keys : Nat
  sums : QWord
  counts : QWord
  deriving DecidableEq, Repr

/-- A pass: relation, width, OWN, the two outputs, and the children. -/
structure Pass where
  index : Nat
  rel : Relation
  width : Nat
  own : TCap
  sumOut : QWord
  countOut : QWord
  children : List PassChild
  deriving DecidableEq, Repr

/-- Element k of a sum KPR. -/
def kprSums (c : QWord) (k : Nat) : Act (List Nat) :=
  (List.range (kprWidth c)).mapM (fun j => fxReadRaw (capAddr c + k * kprStride c + 4 * j) 4)

/-- Element k of a count KPR. -/
def kprCount (c : QWord) (k : Nat) : Act Nat := fxReadRaw (capAddr c + k * 8) 8

/-- ToFp32 of a count, with its flags. -/
def countToFp32 (x : Nat) : Nat × Flags := (convert 14 1 .rne false 0 x).getD (0, Flags.none)

def rnsProduct (xs : List Nat) : Nat := xs.foldl rnsMul (rnsOfInt 1)

/-- Element-wise FP32 operation, RNE. -/
def zipFp (op : Fp → Rm → Nat → Nat → Nat → Nat × Flags) (xs ys : List Nat) : List Nat × Flags :=
  let rs := xs.zipWith (op (Fp.ofFmt 1) .rne 0) ys
  (rs.map (·.1), rs.foldl (fun x r => x ||| r.2) Flags.none)

/-- The OWN vector of a row; untagged zero means all zero.  DEDUCED: notes/assumptions/29.md. -/
def ownVector (p : Pass) (i : Nat) : Act (List Nat) := do
  if !p.own.tag && p.own.val == 0#128 then return List.replicate p.width 0
  (List.range p.width).mapM (fun j => fxRead p.own (addOffset (capAddr p.own.val) (4 * p.width * i + 4 * j : Nat)) 4)

/-- The children's keys of a row. -/
def childKeys (p : Pass) (i : Nat) : Act (List Nat) :=
  p.children.mapM (fun c => do
    let k ← rowWord p.rel i c.rel.pkeyOff
    trapIf (decide (c.keys ≤ k)) 0x0D (joinInfo i false 0xFF p.index)
    return k)

/-- A running vector, a running count, and flags. -/
structure Partial where
  vec : List Nat
  count : Nat
  flags : Flags
  deriving DecidableEq, Repr

def Partial.add (x y : Partial) : Partial :=
  let v := zipFp Fp.add x.vec y.vec
  ⟨v.1, rnsAdd x.count y.count, x.flags ||| y.flags ||| v.2⟩

def Partial.zero (width : Nat) : Partial := ⟨List.replicate width 0, 0, Flags.none⟩

/-- The vector and count of one row. -/
def rowPartial (p : Pass) (i : Nat) : Act Partial := do
  let keys ← childKeys p i
  let counts ← (p.children.zip keys).mapM (fun x => kprCount x.1.counts x.2)
  let sums ← (p.children.zip keys).mapM (fun x => kprSums x.1.sums x.2)
  let own ← ownVector p i
  let all := rnsProduct counts
  let m := countToFp32 all
  let first := zipFp Fp.mul own (List.replicate p.width m.1)
  let row := (List.range counts.length).foldl
    (fun (r : List Nat × Flags) j =>
      let other := countToFp32 (rnsProduct (counts.eraseIdx j))
      let term := zipFp Fp.mul (sums.getD j []) (List.replicate p.width other.1)
      let next := zipFp Fp.add r.1 term.1
      (next.1, r.2 ||| other.2 ||| term.2 ||| next.2))
    (first.1, m.2 ||| first.2)
  return ⟨row.1, all, row.2⟩

/-- Fold rows into a partial sum. -/
def sumRows (p : Pass) (lo n : Nat) : Act Partial :=
  ((List.range n).map (lo + ·)).foldlM (fun x i => do return x.add (← rowPartial p i)) (Partial.zero p.width)

/-- The total of a key: its slices in order (10 R299). -/
def keyTotal (p : Pass) (first stop : Nat) : Act Partial :=
  (List.range (sliceCount p.rel (stop - first))).foldlM
    (fun x s => do
      let rows := sliceRows p.rel first stop s
      return x.add (← sumRows p rows.1 rows.2))
    (Partial.zero p.width)

/-- Bit k of a DELTA bitmap. -/
def deltaBit (c : TCap) (k : Nat) : Act Bool := do return (← fxRead c (addOffset (capAddr c.val) (k / 8 : Nat)) 1).testBit (k % 8)

/-- Dirty(r, k) (R220). -/
def keyDirty (p : Pass) (k first stop : Nat) : Act Bool := do
  if ← deltaBit p.rel.delta k then return true
  ((List.range (stop - first)).map (first + ·)).foldlM
    (fun d i => do
      let keys ← childKeys p i
      (p.children.zip keys).foldlM (fun d x => do
        if x.1.rel.delta.tag then return (← deltaBit x.1.rel.delta x.2) || d else return d) d)
    false

/-- The gang that serves a key (10 R292). -/
def servingGang (k gangs : Nat) : Nat := k * 0x9E3779B9 % 2 ^ 32 * gangs / 2 ^ 32

/-- A KPR of a pass record: of the type, the edge and the kind asked for; a field that holds no KPR traps as one that does not fit.
DESIGN CHOICE: notes/assumptions/29.md. -/
def passKpr (a : TCap) (r edge : Nat) (counts : Bool) (width : Option Nat) (c : TCap) : Act QWord := do
  trapIf (!c.tag || capType c.val != 4) 0x0D (joinInfo 0 false 0xFF r)
  trapIf (kprSlot c.val != kprSlot a.val || kprGen c.val != kprGen a.val) 0x0D (joinInfo 0 true 0xFF r)
  trapIf (kprEdge c.val != edge || kprCounts c.val != counts) 0x0D (joinInfo 0 false 0xFF r)
  trapIf (match width with | some w => kprWidth c.val != w | none => false) 0x0D (joinInfo 0 false 0xFF r)
  return c.val

/-- The bytes of a KPR. -/
def kprRange (rels : List Relation) (c : QWord) : Nat × Nat := (capAddr c, keyCount rels (kprEdge c) * kprStride c)

/-- What a pass reads of a relation: rows and directory. -/
def relationRanges (rels : List Relation) (r : Nat) (x : Relation) : List (Nat × Nat) :=
  [(capAddr x.rows.val, x.nrows * x.rowBytes), (capAddr x.directory.val, 4 * (keyCount rels r + 1))]

/-- The DELTA bitmap of a relation. -/
def deltaRange (rels : List Relation) (r : Nat) (x : Relation) : List (Nat × Nat) :=
  if x.delta.tag then [(capAddr x.delta.val, (keyCount rels r + 7) / 8)] else []

/-- Read a pass record; a pass in delta mode reads the bitmaps too. -/
def readPass (a b : TCap) (r : Nat) (delta : Bool) : Act (List Relation × Pass) := do
  let (rels, x) ← typeRelation a r
  let kids := childrenOf rels r
  let addr := capAddr b.val
  deref b addr (64 + 32 * kids.length) [permLD]
  let gs ← readGranules addr (4 + 2 * kids.length)
  let keep := capHas b.val permLDCAP
  let cap (i : Nat) : TCap :=
    let g := gs.getD i ([], false)
    if g.2 && keep then ⟨BitVec.ofNat 128 (bytesNat g.1), true⟩
    else ⟨if g.2 then dataVal (w64 (bytesNat (g.1.take 8))) else BitVec.ofNat 128 (bytesNat g.1), false⟩
  let sumOut ← passKpr a r r false none (cap 1)
  let w := kprWidth sumOut
  let countOut ← passKpr a r r true none (cap 2)
  let children ← (kids.zip (List.range kids.length)).mapM (fun (c, j) => do
    let s ← passKpr a r c false (some w) (cap (4 + 2 * j))
    let n ← passKpr a r c true none (cap (5 + 2 * j))
    return (⟨c, rels.getD c (relationOf [] []), keyCount rels c, s, n⟩ : PassChild))
  let p : Pass := ⟨r, x, w, cap 0, sumOut, countOut, children⟩
  let inputs := (if p.own.tag then [(capAddr p.own.val, 4 * w * x.nrows)] else []) ++
    children.flatMap (fun c => [kprRange rels c.sums, kprRange rels c.counts]) ++ relationRanges rels r x ++
    if delta then deltaRange rels r x ++ children.flatMap (fun c => deltaRange rels c.index c.rel) else []
  let outputs := [kprRange rels sumOut, kprRange rels countOut]
  trapIf (outputs.any (fun o => inputs.any (fun i => overlaps o.1 o.2 i.1 i.2))) 0x0D (joinInfo 0 false 0xFF r)
  return (rels, p)

/-- A KPR as the capability of its storage. -/
def kprStorage (c : QWord) : TCap := ⟨c, true⟩

/-- Set bits of a DELTA bitmap: return-free ORs (R221, R224). -/
def setDeltaBit (c : TCap) (k : Nat) : Act Unit := do
  let addr := addOffset (capAddr c.val) (k / 8 : Nat)
  deref c addr 1 [permST]
  let a ← curAgent
  let p ← reach a addr 1 .write false (capHas c.val permFMTW)
  match p with
  | .remote _ => awayAtomic addr
  | _ => do
    let _ ← updateAt a p addr 1 none (fun old => old ||| 2 ^ (k % 8))

/-- JUP (R220, R221). -/
def jupBody (f : Ext) : Act Unit := do
  let a ← readG f.a f.ta
  let b ← readG f.b f.tb
  let r := f.imm.toNat % 16
  let delta := f.imm.getLsbD 4
  let (rels, p) ← readPass a b r delta
  trapIf (delta && !p.rel.delta.tag) 0x0D (joinInfo 0 false 0x20 r)
  let t := (← get).cur
  let band ← getBand
  let keys := (List.range (keyCount rels r)).filter (fun k => servingGang k band.packet.gangs == bitsOf t.tidw 14 6)
  let results ← keys.filterMapM (fun k => do
    let (first, stop) ← keyRows p.rel k
    let wanted ← if delta then keyDirty p k first stop else pure true
    if wanted then do
      let x ← keyTotal p first stop
      return some (k, x)
    else return none)
  let sums := results.flatMap (fun x => x.2.vec.mapIdx (fun j v =>
    (capAddr p.sumOut + x.1 * kprStride p.sumOut + 4 * j, natBytes 4 v)))
  let counts := results.map (fun x => (capAddr p.countOut + x.1 * 8, natBytes 8 x.2.count))
  fxStore (kprStorage p.sumOut) sums
  fxStore (kprStorage p.countOut) counts
  if delta then do
    let _ ← results.mapM (fun x => setDeltaBit p.rel.delta x.1)
    performOwn 3
  orFlags (results.foldl (fun x r => x ||| r.2.flags) Flags.none)
  writeData f.d (w64 results.length)

/-! ## The down pass, intersection and deltas (R222 to R224) -/

def jdownBody (f : Ext) : Act Unit := do
  let a ← readG f.a f.ta
  let b ← readG f.b f.tb
  let c ← readData f.c f.tc
  trapIf (!a.tag) 0x04 (capCursor a.val)
  trapIf (capType a.val != 4) 0x07 (capCursor a.val)
  let e := kprEdge a.val
  let rels ← slotRelations (kprSlot a.val) (kprGen a.val) e
  match rels[e]? with
  | none => trap 0x0D (joinInfo 0 false 0xFF e)
  | some x => do
    let side := f.imm.getLsbD 0
    let source := if side || e = 0 then x else rels.getD x.parent x
    let first := c.toNat % 2 ^ 32
    let count := c.toNat / 2 ^ 32
    trapIf (decide (source.nrows < first + count)) 0x05 (capCursor a.val)
    let size := kprStride a.val
    let dest := capAddr b.val
    deref b dest (count * size) [permST]
    let keys ← ((List.range count).map (first + ·)).mapM (fun i => do
      let k ← if e = 0 then pure 0 else rowWord source i (if side then x.keyOff else x.pkeyOff)
      trapIf (decide (keyCount rels e ≤ k)) 0x0D (joinInfo i false 0xFF e)
      return k)
    let data ← keys.mapM (fun k => do
      if kprCounts a.val then return [natBytes 8 (← kprCount a.val k)]
      else return (← kprSums a.val k).map (natBytes 4))
    let piece := if kprCounts a.val then 8 else 4
    fxStore b (data.flatten.mapIdx (fun j x => (addOffset dest (piece * j : Nat), x)))
    writeData f.d (w64 count)

/-- The N32 list from a cursor to its top, strictly ascending (R223). -/
def readList (c : TCap) (which : Nat) : Act (List Nat) := do
  let addr := capAddr c.val
  let n := ((capBounds c.val).2 - addr) / 4
  deref c addr (4 * n) [permLD]
  let xs ← (List.range n).mapM (fun j => fxReadRaw (addr + 4 * j) 4)
  match (List.range n).find? (fun j => j != 0 && decide (xs.getD j 0 ≤ xs.getD (j - 1) 0)) with
  | some j => trap 0x0D (joinInfo j false 0xFF which)
  | none => return xs

def jinterBody (f : Ext) : Act Unit := do
  let a ← readG f.a f.ta
  let b ← readG f.b f.tb
  let c ← readG f.c f.tc
  let xs ← readList a 0
  let ys ← readList b 1
  let zs := xs.filter ys.contains
  deref c (capAddr c.val) (4 * zs.length) [permST]
  fxStore c (zs.mapIdx (fun j x => (capAddr c.val + 4 * j, natBytes 4 x)))
  writeData f.d (w64 zs.length)

/-- Clear a bitmap of n bits: ordinary stores.  DEDUCED: notes/assumptions/29.md. -/
def clearDelta (c : TCap) (n : Nat) : Act Unit := do
  let base := capAddr c.val
  deref c base ((n + 7) / 8) [permST]
  let last ← if n % 8 = 0 then pure [] else do
    let x ← fxReadRaw (base + n / 8) 1
    pure [(base + n / 8, natBytes 1 (x / 2 ^ (n % 8) * 2 ^ (n % 8)))]
  fxStore c ((List.range (n / 8)).map (fun i => (base + i, [0#8])) ++ last)

def jdeltaBody (f : Ext) : Act Unit := do
  let a ← readG f.a f.ta
  let b ← readData f.b f.tb
  let r := f.imm.toNat % 16
  let (rels, x) ← typeRelation a r
  let k := b.toNat % 2 ^ 32
  let clear := f.imm.getLsbD 4
  trapIf (!clear && decide (keyCount rels r ≤ k)) 0x05 (capCursor a.val)
  trapIf (!x.delta.tag) 0x0D (joinInfo 0 false 0x20 r)
  if clear then clearDelta x.delta (keyCount rels r) else setDeltaBit x.delta k

/-! ## Meanings -/

/-- JTLOAD (R216). -/
def execJtload (f : Ext) (s : State) : Out :=
  instr 0x31#6 0x0#4 f (jtloadBody f) s

/-- JTCHK (R218). -/
def execJtchk (f : Ext) (s : State) : Out :=
  instr 0x31#6 0x1#4 f (jtchkBody f) s

/-- JKEY (R219). -/
def execJkey (f : Ext) (s : State) : Out :=
  instr 0x31#6 0x2#4 f (jkeyBody f) s

/-- JSEG (R219). -/
def execJseg (f : Ext) (s : State) : Out :=
  instr 0x31#6 0x3#4 f (jsegBody f) s

/-- JHEAVY (R219). -/
def execJheavy (f : Ext) (s : State) : Out :=
  instr 0x31#6 0x8#4 f (jheavyBody f) s

/-- JUP (R220). -/
def execJup (f : Ext) (s : State) : Out :=
  instr 0x31#6 0x4#4 f (jupBody f) s

/-- JDOWN (R222). -/
def execJdown (f : Ext) (s : State) : Out :=
  instr 0x31#6 0x5#4 f (jdownBody f) s

/-- JINTER (R223). -/
def execJinter (f : Ext) (s : State) : Out :=
  instr 0x31#6 0x6#4 f (jinterBody f) s

/-- JDELTA (R224). -/
def execJdelta (f : Ext) (s : State) : Out :=
  instr 0x31#6 0x7#4 f (jdeltaBody f) s

end Sys2Proof.Machine
end

