-- ==== Sys2Proof/Machine/Package.lean ====
section
/-!
DEFINITION. Machine/Package.lean: power, trips, boot, faults and reports of the package (14 R368 to R380, 11 R324, R325), and the
trap of an illegal encoding (02 R72).
-/

namespace Sys2Proof.Machine

/-! ## Illegal encodings -/

/-- ILLEGAL_ENCODING (02 R72): cause 0x01 with the word and the first check that fails.  DEDUCED: notes/assumptions/9.md. -/
def execIllegalEncoding (check : Nat) (word : Word) (s : State) : Out :=
  run (do
    let t := (← get).cur
    trapIf (inHandler t && decide (4096 ≤ executedOf t)) 0x0F 4096#64
    trap 0x01 (illegalInfo check word)) s

/-! ## Messages -/

/-- DESIGN CHOICE: notes/assumptions/34.md. -/
def sendMessage (opcode ctx : Nat) (payload : List DWord) (s : State) : State := { s with dev := hostMessage opcode ctx payload s.dev }

/-- HEARTBEAT (R377), not while a warm reset runs (R379).  DESIGN CHOICE: notes/assumptions/34.md. -/
def execHeartbeat (s : State) : Out :=
  if s.dev.warmReset.isSome ∨ s.dev.power = .d3 then .next s
  else .next (sendMessage 0x84 0 [w64 s.dev.cycle, w64 s.dev.faultCount] s)

/-- The older of two nodes by entry into the pool. -/
def olderNode (a b : Node) : Node := if b.entered < a.entered ∨ (b.entered = a.entered ∧ b.sequence < a.sequence) then b else a

def oldestNode : List Node → Option Node
  | [] => none
  | n :: ns => some (ns.foldl olderNode n)

/-- The rank key of a node, as if it were ready (09 R275). -/
def rankKey (s : State) (n : Node) : List DWord :=
  [w64 (if n.ready then effectivePrio s n else n.packet.prio), w64 n.entered, w64 n.ctx, w64 n.sequence]

/-- STALL (R369): nodes in the pool, no band running, draining or saved, and no change for the stall interval.  DESIGN CHOICE: notes/assumptions/34.md. -/
def execStall (ctx : Nat) (s : State) : Out :=
  match findCtx s ctx with
  | none => .next s
  | some c =>
    let nodes := s.nodes.filter (fun n => n.ctx == ctx && !n.resumed)
    let busy := s.bands.any (fun b => b.ctx == ctx && (b.state == .running || b.state == .draining || b.state == .saved))
    match (oldestNode (nodes.filter (·.ready))).orElse (fun _ => oldestNode nodes) with
    | some n =>
      let since := max c.lastProgress (nodes.foldl (fun t x => min t x.entered) n.entered)
      if busy || decide (s.dev.cycle < since + c.stallInterval) then .next s
      else
        let s := sendMessage 0x81 ctx ([w64 ctx, n.packet.path] ++ rankKey s n) s
        .next (putCtx { c with lastProgress := s.dev.cycle } s)
    | none => .next s

/-! ## Unit faults (R377, 11 R320) -/

/-- Send DEVFAULT, and keep it in the crash record.  DESIGN CHOICE: notes/assumptions/34.md; DEDUCED: notes/assumptions/39.md. -/
def reportFault (k : UnitKind) (n cycle : Nat) (s : State) : State :=
  let payload := [w64 (kindNumber k), w64 n, w64 cycle]
  { s with dev := crashAdd (wordsMessage 0x83 0 0 0 payload) (hostMessage 0x83 0 payload s.dev) }

/-- A port that failed stays fused off (R379, R380). -/
def portFailed (s : State) (port : Nat) : Bool := s.dev.failedUnits.any (fun x => x.1 == .port && x.2.1 == port)

/-- The ports, with those down that failed. -/
def fusedPorts (s : State) : List PortState := s.dev.ports.mapIdx (fun i x => if portFailed s i then .down else x)

/-- DEVFAULT: during a warm reset it is reported at D0 (R380). -/
def execDevfault (kind : UnitKind) (number : Nat) (s : State) : Out :=
  let s : State := { s with dev := { s.dev with
    failedUnits :=
      if s.dev.failedUnits.any (fun x => x.1 == kind && x.2.1 == number) then s.dev.failedUnits
      else s.dev.failedUnits ++ [(kind, number, s.dev.cycle)] } }
  let s : State := { s with dev := { s.dev with ports := fusedPorts s } }
  if s.dev.warmReset.isSome then
    .next { s with dev := { s.dev with failedAt := s.dev.failedAt ++ [(kind, number, s.dev.cycle)] } }
  else .next (reportFault kind number s.dev.cycle s)

/-- The state of a port whose link is up: in minimal mode port 0 runs one lane, and no other port is powered (R374). -/
def upState (s : State) (port : Nat) : PortState := if !s.dev.minimalMode then .up else if port = 0 then .oneLane else .down

/-- LINK_STATE_CHANGE (R364): it changes spraying, and so timing, only.  DESIGN CHOICE: notes/assumptions/43.md. -/
def execLinkStateChange (port : Nat) (up : Bool) (s : State) : Out :=
  .next { s with dev := { s.dev with
    ports := s.dev.ports.set port (if up && !(portFailed s port) then upState s port else .down) } }

/-! ## Power and trips (R372) -/

/-- The number of a sensor in TRIP.  DESIGN CHOICE: notes/assumptions/34.md. -/
def sensorNumber (x : Sensor) : Nat :=
  match x with
  | .die n => n
  | .stack n => 2 ^ 16 + n
  | .current n => 2 ^ 17 + n

/-- A trip level is reached: degrees for dies and stacks, amperes for the current. -/
def tripLevel (x : Sensor) (value : Nat) : Bool :=
  match x with
  | .die _ => decide (110 ≤ value)
  | .stack _ => decide (95 ≤ value)
  | .current _ => decide (12000 < value)

/-- Every band is pre-empted by retention; an eviction under way ends by retention (R380).  DEDUCED: notes/assumptions/32.md. -/
def preemptEvery (s : State) : State :=
  let s := s.bands.foldl (fun s b => beginPreempt b.entry false s) s
  { s with bands := s.bands.map (fun b => if b.state = .preempting then { b with evict := false, saveAt := none } else b) }

/-- The last value a sensor reported. -/
def noteSensor (x : Sensor) (value : Nat) (d : Device) : Device :=
  { d with sensors := d.sensors.filter (fun y => y.1 != x) ++ [(x, value)] }

/-- TRIP: every band is pre-empted by retention, TRIP is sent, and a device that runs goes to D1; in D1 or D2 it stays there.  The
trip is latched.  DESIGN CHOICE: notes/assumptions/34.md; DEDUCED: notes/assumptions/37.md. -/
def execTrip (sensor : Sensor) (value : Nat) (s : State) : Out :=
  if s.dev.power = .d3 || !(tripLevel sensor value) || s.dev.warmReset.isSome then .next s
  else
    let payload := [w64 (sensorNumber sensor), w64 value, 1#64]
    let s := sendMessage 0x82 0 payload (preemptEvery s)
    .next { s with dev := { noteSensor sensor value s.dev with
      tripLatched := true
      tripAt := some s.dev.cycle
      tripPayload := payload
      powerTarget := if s.dev.power = .d0 then some .d1 else s.dev.powerTarget.filter (· != .d0) } }

/-- What D3 leaves: fuses, firmware slots, the owner list and the boot counter (R372).  DEDUCED: notes/assumptions/37.md. -/
def powerOff (s : State) : State :=
  let s := loseDies { s with ctxs := [] }
  { s with
    mem := Memory.reset
    dev := { Device.reset with
      power := .d3
      firmware := s.dev.firmware
      owners := s.dev.owners
      failedStarts := s.dev.failedStarts
      bootRecord := s.dev.bootRecord
      ports := Device.reset.ports.mapIdx (fun i x => if portFailed s i then .down else x)
      failedUnits := s.dev.failedUnits.map (fun x => (x.1, x.2.1, 0))
      sent := s.dev.sent } }

/-- CRITICAL_TRIP: TRIP is sent, and the device enters D3.  DEDUCED: notes/assumptions/37.md. -/
def execCriticalTrip (die value : Nat) (s : State) : Out :=
  if s.dev.power = .d3 ∨ value < 120 then .next s
  else .next (powerOff (sendMessage 0x82 0 [w64 die, w64 value, 2#64] s))

/-- A thread record that is saved and not on a hardware thread. -/
def savedThread (t : Thread) : Bool := t.duty != .idle && t.hold != .running && !(inHandler t)

/-- D2: the compute dies lose their power, after their lines are written back: stores, cores, handlers, inboxes and format windows
are lost, and HBM, contexts and evicted bands are kept (R372).  DEDUCED: notes/assumptions/37.md. -/
def computeOff (s : State) : State :=
  { s with
    cur := if savedThread s.cur then s.cur else { Thread.idle with pos := s.cur.pos }
    threads := s.threads.filter savedThread
    mem := { loseStores (flushLines s) with windows := Memory.reset.windows }
    cores := []
    units := []
    owners := s.owners.map (fun o => { o with inbox := [], held := [] }) }

/-- POWER_STATE_REACHED: a commanded state whose entry condition holds is reached; D0 ends a cold boot with the counter of
failed starts at 0 (R374) and CYCLE at 0 (01 R33).  DEDUCED: notes/assumptions/37.md. -/
def execPowerStateReached (target : PowerState) (s : State) : Out :=
  if s.dev.powerTarget ≠ some target then .next s
  else
    let at' (p : PowerState) (s : State) : State := { s with dev := { s.dev with power := p, powerTarget := none } }
    match target with
    | .d0 => .next (at' .d0 (if s.dev.power = .d3 then { s with dev := { s.dev with failedStarts := 0, cycle := 0 } } else s))
    | .d1 =>
      if s.bands.any (fun b => b.state == .running || b.state == .draining || b.state == .preempting) then .next s
      else .next (at' .d1 s)
    | .d2 => if powerAllows s .d2 then .next (at' .d2 (computeOff s)) else .next s
    | .d3 => if powerAllows s .d3 then .next (powerOff s) else .next s

/-! ## Boot (R373, R374) -/

/-- Why a slot's image does not pass: the codes of R374. -/
def imageCode (x : FirmwareStage) (i : FirmwareImage) : Nat :=
  if !i.present then 4
  else if i.digest ≠ Config.sha3 (Config.firmwareBody i.image) then 1
  else if !(imageSigned i) then 2
  else if i.version < x.rollback then 3
  else 0

/-- The first stage, from a number on, that no slot starts; and the stages with the slot that each booted. -/
def bootStages : Nat → List FirmwareStage → Option (Nat × Nat) × List FirmwareStage
  | _, [] => (none, [])
  | n, x :: xs =>
    if imagePasses x x.slotA || imagePasses x x.slotB then
      let (failed, ys) := bootStages (n + 1) xs
      (failed, { x with bootedB := !(imagePasses x x.slotA) } :: ys)
    else (some (n, imageCode x x.slotB), x :: xs)

/-- A start fails: the counter rises and the cause record is kept. -/
def failStart (stage slots code : Nat) (s : State) : State :=
  let n := s.dev.failedStarts + 1
  { s with dev := { s.dev with
    failedStarts := n
    powerTarget := none
    bootRecord := w64 (stage * 2 ^ 24 + slots * 2 ^ 16 + code * 2 ^ 8 + min n 255) } }

/-- The slots that a stage tried: A, and B when A did not pass. -/
def slotsTried (xs : List FirmwareStage) (i : Nat) : Nat :=
  match xs[i]? with
  | some x => if x.bootedB then 3 else 1
  | none => 3

/-- COLD_BOOT: after three failed starts in minimal mode; otherwise each stage starts from slot A or else B, and the device
goes on to D0 unless the self-test of a stage fails, which only the package knows.  DEDUCED: notes/assumptions/37.md. -/
def execColdBoot (s : State) : Out :=
  if s.dev.power ≠ .d3 ∨ s.dev.powerTarget.isSome then .next s
  else if 3 ≤ s.dev.failedStarts then
    .next { s with dev := { s.dev with
      power := .d0
      minimalMode := true
      cycle := 0
      ports := s.dev.ports.mapIdx (fun i x => if i = 0 ∧ x = .up then .oneLane else .down) } }
  else
    match bootStages 1 s.dev.firmware with
    | (some (stage, code), _) => .next (failStart stage 3 code s)
    | (none, xs) =>
      let (stage, s) := pick 6 s
      if stage = 0 then .next { s with dev := { s.dev with firmware := xs, powerTarget := some .d0 } }
      else .next (failStart stage (slotsTried xs (stage - 1)) 5 s)

/-- BOOT_TIMEOUT: D0 is not reached in 10 s.  DEDUCED: notes/assumptions/37.md. -/
def execBootTimeout (s : State) : Out :=
  if s.dev.power = .d3 ∧ s.dev.powerTarget = some .d0 then
    let (i, s) := pick 5 s
    .next (failStart (i + 1) (slotsTried s.dev.firmware i) 6 s)
  else .next s

/-- MINCLEAR (R374): in minimal mode, the counter is cleared and the device starts again.  DEDUCED: notes/assumptions/33.md. -/
def execMinclear (h : CmdHeader) (s : State) : Out :=
  command 0x38 true h
    (fun s =>
      if !s.dev.minimalMode then answered statusState s
      else
        let t := powerOff s
        answered statusOk { t with dev := { t.dev with failedStarts := 0 } })
    s

/-- WARM_RESET_COMPLETE (R379): the firmware verified, the device is at D0 with its session open, and the reply is sent; DEVFAULTs
of the time of the reset follow.  Without firmware the start has failed.  DEDUCED: notes/assumptions/37.md. -/
def execWarmResetComplete (s : State) : Out :=
  match s.dev.warmReset with
  | none => .next s
  | some w =>
    match bootStages 1 s.dev.firmware with
    | (some (stage, code), _) => .next (failStart stage 3 code (powerOff s))
    | (none, xs) =>
      let s : State := { s with dev := { s.dev with
        power := .d0
        cycle := 0
        firmware := xs
        failedStarts := 0
        warmReset := none
        session := s.dev.session.map (fun x => { x with lastCommand := 0 }) } }
      let s : State := { s with dev := { s.dev with sent := s.dev.sent ++ [wordsMessage 0x33 0 statusOk w.seq.toNat []] } }
      let s : State := s.dev.failedAt.foldl (fun s x => reportFault x.1 x.2.1 x.2.2 s) s
      .next { s with dev := { s.dev with failedAt := [] } }

/-! ## Sessions that fall silent (R368) -/

/-- SESSION_LOST: no command for 2 s.  DEDUCED: notes/assumptions/33.md, notes/assumptions/40.md. -/
def execSessionLost (s : State) : Out :=
  match s.dev.session with
  | some x =>
    if x.lost.isNone && s.dev.warmReset.isNone && decide (x.lastCommand + 2 * cyclesPerSecond ≤ s.dev.cycle) then
      .next { s with dev := { s.dev with session := some { x with lost := some s.dev.cycle } } }
    else .next s
  | none => .next s

/-- ORPHAN_CONTEXT_KILL: 60 s later its contexts are KILLed, without records.  DEDUCED: notes/assumptions/33.md, notes/assumptions/40.md. -/
def execOrphanContextKill (s : State) : Out :=
  match s.dev.session.bind (·.lost) with
  | some t =>
    if t + 60 * cyclesPerSecond ≤ s.dev.cycle then
      let s := dropContexts s
      .next { s with dev := { s.dev with session := none } }
    else .next s
  | none => .next s

/-! ## Activation alerts and refresh (11 R324, R325): timing only -/

/-- ACTIVATION_ALERT: the stack's log of 256 entries keeps it or counts it as lost; its agent is limited for 65,536 cycles.  DESIGN CHOICE: notes/assumptions/43.md. -/
def execActivationAlert (stack : Nat) (entry : AlertEntry) (s : State) : Out :=
  let log := s.dev.alerts.getD stack []
  let d :=
    if log.length < 256 then { s.dev with alerts := s.dev.alerts.set stack (log ++ [{ entry with cycle := s.dev.cycle }]) }
    else { s.dev with alertsLost := s.dev.alertsLost.modify stack (· + 1) }
  .next { s with dev := { d with throttles := d.throttles ++ [⟨stack, entry.channel, entry.sequencer, s.dev.cycle + 65536⟩] } }

/-- THROTTLE_EXPIRY.  DESIGN CHOICE: notes/assumptions/43.md. -/
def execThrottleExpiry (index : Nat) (s : State) : Out :=
  match s.dev.throttles[index]? with
  | some x =>
    if x.expires ≤ s.dev.cycle then .next { s with dev := { s.dev with throttles := s.dev.throttles.eraseIdx index } } else .next s
  | none => .next s

/-- REFRESH_DUE: postponed on a bank that a lock-step command holds.  DESIGN CHOICE: notes/assumptions/43.md. -/
def execRefreshDue (channel bank : Nat) (held : Bool) (s : State) : Out :=
  if held then .next { s with dev := { s.dev with refresh := s.dev.refresh ++ [(channel, bank)] } } else .next s

/-- REFRESH_POSTPONE_LIMIT: the refresh runs now.  DESIGN CHOICE: notes/assumptions/43.md. -/
def execRefreshPostponeLimit (channel bank : Nat) (s : State) : Out :=
  .next { s with dev := { s.dev with refresh := s.dev.refresh.filter (fun x => x != (channel, bank)) } }

end Sys2Proof.Machine
end

