-- ==== Sys2Proof/Machine/Scalar.lean ====
section
/-!
DEFINITION. Machine/Scalar.lean: integer, bit-field, move, compare and predicate instructions (04 R115 to R119).
-/

namespace Sys2Proof.Machine

/-! ## Operations -/

/-- Bits [127:64] of the signed and of the unsigned product (R115). -/
def mulHigh (a b : DWord) : DWord := (a.signExtend 128 * b.signExtend 128).extractLsb' 64 64
def mulHighN (a b : DWord) : DWord := (a.setWidth 128 * b.setWidth 128).extractLsb' 64 64

/-- A shift or rotate count is taken modulo 64 (R115). -/
def shiftCount (b : DWord) : Nat := b.toNat % 64

def shl (a b : DWord) : DWord := a <<< shiftCount b
def shr (a b : DWord) : DWord := a >>> shiftCount b
def shra (a b : DWord) : DWord := a.sshiftRight (shiftCount b)
def rotl (a b : DWord) : DWord := a.rotateLeft (shiftCount b)
def rotr (a b : DWord) : DWord := a.rotateRight (shiftCount b)
def minS (a b : DWord) : DWord := if a.sle b then a else b
def maxS (a b : DWord) : DWord := if a.sle b then b else a
def minU (a b : DWord) : DWord := if a.ule b then a else b
def maxU (a b : DWord) : DWord := if a.ule b then b else a

/-- Number of leading zero bits; 64 for 0 (R117). -/
def clz64 (a : DWord) : DWord := w64 (64 - bitLen a.toNat)

/-- Trailing zero bits among the low n. -/
def trailing (a : DWord) (n : Nat) : Nat :=
  match n with
  | 0 => 0
  | k + 1 => if a.getLsbD (64 - (k + 1)) then 0 else trailing a k + 1

def ctz64 (a : DWord) : DWord := w64 (trailing a 64)

/-- One bits below position n. -/
def ones (a : DWord) (n : Nat) : Nat :=
  match n with
  | 0 => 0
  | k + 1 => ones a k + (if a.getLsbD k then 1 else 0)

def popc64 (a : DWord) : DWord := w64 (ones a 64)

/-- Bits n−1 to 0 of a number in reverse order. -/
def reverseBits (a : DWord) (n : Nat) : Nat :=
  match n with
  | 0 => 0
  | k + 1 => reverseBits a k + (if a.getLsbD k then 2 ^ (63 - k) else 0)

def brev64 (a : DWord) : DWord := w64 (reverseBits a 64)

def bswap64 (a : DWord) : DWord := w64 (bytesNat (natBytes 8 a.toNat).reverse)

/-- A width mod 64, with 0 meaning 64 (R117). -/
def fieldWidth (n : Nat) : Nat := if n % 64 = 0 then 64 else n % 64

def zext (a : DWord) (w : Nat) : DWord := w64 (a.toNat % 2 ^ w)
def sext (a : DWord) (w : Nat) : DWord := BitVec.ofInt 64 (toSigned w a.toNat)

/-- BFX: position in IMM32 [5:0] and width in [13:8]. -/
def bitExtract (a : DWord) (imm : Word) : DWord :=
  zext (a >>> (imm.extractLsb' 0 6).toNat) (fieldWidth (imm.extractLsb' 8 6).toNat)

/-- BFI: bits that would land above bit 63 are dropped. -/
def bitInsert (a b : DWord) (imm : Word) : DWord :=
  let pos := (imm.extractLsb' 0 6).toNat
  let mask := w64 (2 ^ fieldWidth (imm.extractLsb' 8 6).toNat - 1)
  (b &&& ~~~(mask <<< pos)) ||| ((a &&& mask) <<< pos)

/-! ## Shapes -/

/-- D := op(a, b) with b a register or the literal (R115). -/
def aluRR (op : DWord → DWord → DWord) (f : Ext) : Act Unit := do
  let a ← readData f.a f.ta
  let b ← readB f
  writeData f.d (op a b)

/-- As aluRR, with cause 0x16 when b is 0 (R116). -/
def divRR (op : DWord → DWord → DWord) (f : Ext) : Act Unit := do
  let a ← readData f.a f.ta
  let b ← readB f
  trapIf (b == 0#64) 0x16 0#64
  writeData f.d (op a b)

/-- D := op(a, I6). -/
def aluRI (op : DWord → DWord → DWord) (f : Ext) : Act Unit := do
  let a ← readData f.a f.ta
  writeData f.d (op a (imm6 f))

/-- D := op(a). -/
def aluR (op : DWord → DWord) (f : Ext) : Act Unit := do
  let a ← readData f.a f.ta
  writeData f.d (op a)

/-- SEL reads both A and B before it chooses by bit 0 of pC (R117). -/
def selBody (f : Ext) : Act Unit := do
  let a ← readG f.a f.ta
  let b ← readBCap f
  let p ← readP f.c
  writeG f.d (if p.getLsbD 0 then a else b)

/-- MOV copies value and tag (R117). -/
def movBody (f : Ext) : Act Unit := do
  let a ← readG f.a f.ta
  writeG f.d a

def liBody (f : Ext) : Act Unit := writeData f.d (if f.hasLit then f.lit else imm6 f)

/-- CMP.cc: all ones or zero to a predicate (R118). -/
def cmpBody (cc : DWord → DWord → Bool) (f : Ext) : Act Unit := do
  let a ← readData f.a f.ta
  let b ← readB f
  writeP f.d (allOnes (cc a b))

/-- Predicate operations (R119). -/
def predRR (op : Word → Word → Word) (f : Ext) : Act Unit := do
  let a ← readP f.a
  let b ← readP f.b
  writeP f.d (op a b)

def predR (op : Word → Word) (f : Ext) : Act Unit := do
  let a ← readP f.a
  writeP f.d (op a)

/-- PSET of a g register: its read is a read of 01 R23, which waits for a pending register; what R119 says does not wait is the
predicate.  DEDUCED: notes/assumptions/9.md. -/
def psetReg (f : Ext) : Act Unit := do
  let a ← readData f.a f.ta
  writeP f.d (a.extractLsb' 0 32)

def psetImm (f : Ext) : Act Unit := writeP f.d f.imm

/-- PGET: its write waits for an earlier producer of the g register, as every write does (01 R24).  DEDUCED: notes/assumptions/9.md. -/
def pgetBody (f : Ext) : Act Unit := do
  let a ← readP f.a
  writeData f.d (a.setWidth 64)

/-! ## Meanings -/

/-- ADD (R115). -/
def execAdd (f : Base) (s : State) : Out :=
  instr 0x01#6 0x0#4 f.ext (aluRR (fun a b => a + b) f.ext) s

/-- ADD_EXT (R115). -/
def execAddExt (f : Ext) (s : State) : Out :=
  instr 0x01#6 0x0#4 f (aluRR (fun a b => a + b) f) s

/-- SUB (R115). -/
def execSub (f : Base) (s : State) : Out :=
  instr 0x01#6 0x1#4 f.ext (aluRR (fun a b => a - b) f.ext) s

/-- SUB_EXT (R115). -/
def execSubExt (f : Ext) (s : State) : Out :=
  instr 0x01#6 0x1#4 f (aluRR (fun a b => a - b) f) s

/-- MUL (R115). -/
def execMul (f : Base) (s : State) : Out :=
  instr 0x01#6 0x2#4 f.ext (aluRR (fun a b => a * b) f.ext) s

/-- MUL_EXT (R115). -/
def execMulExt (f : Ext) (s : State) : Out :=
  instr 0x01#6 0x2#4 f (aluRR (fun a b => a * b) f) s

/-- MULH (R115). -/
def execMulh (f : Base) (s : State) : Out :=
  instr 0x01#6 0x3#4 f.ext (aluRR (fun a b => mulHigh a b) f.ext) s

/-- MULH_EXT (R115). -/
def execMulhExt (f : Ext) (s : State) : Out :=
  instr 0x01#6 0x3#4 f (aluRR (fun a b => mulHigh a b) f) s

/-- MULHN (R115). -/
def execMulhn (f : Base) (s : State) : Out :=
  instr 0x01#6 0x4#4 f.ext (aluRR (fun a b => mulHighN a b) f.ext) s

/-- MULHN_EXT (R115). -/
def execMulhnExt (f : Ext) (s : State) : Out :=
  instr 0x01#6 0x4#4 f (aluRR (fun a b => mulHighN a b) f) s

/-- DIV (R116). -/
def execDiv (f : Base) (s : State) : Out :=
  instr 0x01#6 0x5#4 f.ext (divRR (fun a b => a.sdiv b) f.ext) s

/-- DIV_EXT (R116). -/
def execDivExt (f : Ext) (s : State) : Out :=
  instr 0x01#6 0x5#4 f (divRR (fun a b => a.sdiv b) f) s

/-- DIVN (R116). -/
def execDivn (f : Base) (s : State) : Out :=
  instr 0x01#6 0x6#4 f.ext (divRR (fun a b => a / b) f.ext) s

/-- DIVN_EXT (R116). -/
def execDivnExt (f : Ext) (s : State) : Out :=
  instr 0x01#6 0x6#4 f (divRR (fun a b => a / b) f) s

/-- REM (R116). -/
def execRem (f : Base) (s : State) : Out :=
  instr 0x01#6 0x7#4 f.ext (divRR (fun a b => a.srem b) f.ext) s

/-- REM_EXT (R116). -/
def execRemExt (f : Ext) (s : State) : Out :=
  instr 0x01#6 0x7#4 f (divRR (fun a b => a.srem b) f) s

/-- REMN (R116). -/
def execRemn (f : Base) (s : State) : Out :=
  instr 0x01#6 0x8#4 f.ext (divRR (fun a b => a % b) f.ext) s

/-- REMN_EXT (R116). -/
def execRemnExt (f : Ext) (s : State) : Out :=
  instr 0x01#6 0x8#4 f (divRR (fun a b => a % b) f) s

/-- AND (R115). -/
def execAnd (f : Base) (s : State) : Out :=
  instr 0x01#6 0x9#4 f.ext (aluRR (fun a b => a &&& b) f.ext) s

/-- AND_EXT (R115). -/
def execAndExt (f : Ext) (s : State) : Out :=
  instr 0x01#6 0x9#4 f (aluRR (fun a b => a &&& b) f) s

/-- OR (R115). -/
def execOr (f : Base) (s : State) : Out :=
  instr 0x01#6 0xA#4 f.ext (aluRR (fun a b => a ||| b) f.ext) s

/-- OR_EXT (R115). -/
def execOrExt (f : Ext) (s : State) : Out :=
  instr 0x01#6 0xA#4 f (aluRR (fun a b => a ||| b) f) s

/-- XOR (R115). -/
def execXor (f : Base) (s : State) : Out :=
  instr 0x01#6 0xB#4 f.ext (aluRR (fun a b => a ^^^ b) f.ext) s

/-- XOR_EXT (R115). -/
def execXorExt (f : Ext) (s : State) : Out :=
  instr 0x01#6 0xB#4 f (aluRR (fun a b => a ^^^ b) f) s

/-- ANDN (R115). -/
def execAndn (f : Base) (s : State) : Out :=
  instr 0x01#6 0xC#4 f.ext (aluRR (fun a b => a &&& ~~~b) f.ext) s

/-- ANDN_EXT (R115). -/
def execAndnExt (f : Ext) (s : State) : Out :=
  instr 0x01#6 0xC#4 f (aluRR (fun a b => a &&& ~~~b) f) s

/-- SHL (R115). -/
def execShl (f : Base) (s : State) : Out :=
  instr 0x01#6 0xD#4 f.ext (aluRR shl f.ext) s

/-- SHL_EXT (R115). -/
def execShlExt (f : Ext) (s : State) : Out :=
  instr 0x01#6 0xD#4 f (aluRR shl f) s

/-- SHR (R115). -/
def execShr (f : Base) (s : State) : Out :=
  instr 0x01#6 0xE#4 f.ext (aluRR shr f.ext) s

/-- SHR_EXT (R115). -/
def execShrExt (f : Ext) (s : State) : Out :=
  instr 0x01#6 0xE#4 f (aluRR shr f) s

/-- SHRA (R115). -/
def execShra (f : Base) (s : State) : Out :=
  instr 0x01#6 0xF#4 f.ext (aluRR shra f.ext) s

/-- SHRA_EXT (R115). -/
def execShraExt (f : Ext) (s : State) : Out :=
  instr 0x01#6 0xF#4 f (aluRR shra f) s

/-- ROTL (R115). -/
def execRotl (f : Base) (s : State) : Out :=
  instr 0x02#6 0x0#4 f.ext (aluRR rotl f.ext) s

/-- ROTL_EXT (R115). -/
def execRotlExt (f : Ext) (s : State) : Out :=
  instr 0x02#6 0x0#4 f (aluRR rotl f) s

/-- ROTR (R115). -/
def execRotr (f : Base) (s : State) : Out :=
  instr 0x02#6 0x1#4 f.ext (aluRR rotr f.ext) s

/-- ROTR_EXT (R115). -/
def execRotrExt (f : Ext) (s : State) : Out :=
  instr 0x02#6 0x1#4 f (aluRR rotr f) s

/-- MIN (R115). -/
def execMin (f : Base) (s : State) : Out :=
  instr 0x02#6 0x2#4 f.ext (aluRR minS f.ext) s

/-- MIN_EXT (R115). -/
def execMinExt (f : Ext) (s : State) : Out :=
  instr 0x02#6 0x2#4 f (aluRR minS f) s

/-- MAX (R115). -/
def execMax (f : Base) (s : State) : Out :=
  instr 0x02#6 0x3#4 f.ext (aluRR maxS f.ext) s

/-- MAX_EXT (R115). -/
def execMaxExt (f : Ext) (s : State) : Out :=
  instr 0x02#6 0x3#4 f (aluRR maxS f) s

/-- MINN (R115). -/
def execMinn (f : Base) (s : State) : Out :=
  instr 0x02#6 0x4#4 f.ext (aluRR minU f.ext) s

/-- MINN_EXT (R115). -/
def execMinnExt (f : Ext) (s : State) : Out :=
  instr 0x02#6 0x4#4 f (aluRR minU f) s

/-- MAXN (R115). -/
def execMaxn (f : Base) (s : State) : Out :=
  instr 0x02#6 0x5#4 f.ext (aluRR maxU f.ext) s

/-- MAXN_EXT (R115). -/
def execMaxnExt (f : Ext) (s : State) : Out :=
  instr 0x02#6 0x5#4 f (aluRR maxU f) s

/-- ADDI (R115). -/
def execAddi (f : Base) (s : State) : Out :=
  instr 0x02#6 0x8#4 f.ext (aluRI (fun a b => a + b) f.ext) s

/-- ADDI_EXT (R115). -/
def execAddiExt (f : Ext) (s : State) : Out :=
  instr 0x02#6 0x8#4 f (aluRI (fun a b => a + b) f) s

/-- SHL_I6 (R115). -/
def execShlI6 (f : Base) (s : State) : Out :=
  instr 0x02#6 0x9#4 f.ext (aluRI shl f.ext) s

/-- SHL_I6_EXT (R115). -/
def execShlI6Ext (f : Ext) (s : State) : Out :=
  instr 0x02#6 0x9#4 f (aluRI shl f) s

/-- SHR_I6 (R115). -/
def execShrI6 (f : Base) (s : State) : Out :=
  instr 0x02#6 0xA#4 f.ext (aluRI shr f.ext) s

/-- SHR_I6_EXT (R115). -/
def execShrI6Ext (f : Ext) (s : State) : Out :=
  instr 0x02#6 0xA#4 f (aluRI shr f) s

/-- SHRA_I6 (R115). -/
def execShraI6 (f : Base) (s : State) : Out :=
  instr 0x02#6 0xB#4 f.ext (aluRI shra f.ext) s

/-- SHRA_I6_EXT (R115). -/
def execShraI6Ext (f : Ext) (s : State) : Out :=
  instr 0x02#6 0xB#4 f (aluRI shra f) s

/-- ROTL_I6 (R115). -/
def execRotlI6 (f : Base) (s : State) : Out :=
  instr 0x02#6 0xC#4 f.ext (aluRI rotl f.ext) s

/-- ROTL_I6_EXT (R115). -/
def execRotlI6Ext (f : Ext) (s : State) : Out :=
  instr 0x02#6 0xC#4 f (aluRI rotl f) s

/-- ROTR_I6 (R115). -/
def execRotrI6 (f : Base) (s : State) : Out :=
  instr 0x02#6 0xD#4 f.ext (aluRI rotr f.ext) s

/-- ROTR_I6_EXT (R115). -/
def execRotrI6Ext (f : Ext) (s : State) : Out :=
  instr 0x02#6 0xD#4 f (aluRI rotr f) s

/-- CLZ (R117). -/
def execClz (f : Base) (s : State) : Out :=
  instr 0x03#6 0x0#4 f.ext (aluR clz64 f.ext) s

/-- CLZ_EXT (R117). -/
def execClzExt (f : Ext) (s : State) : Out :=
  instr 0x03#6 0x0#4 f (aluR clz64 f) s

/-- CTZ (R117). -/
def execCtz (f : Base) (s : State) : Out :=
  instr 0x03#6 0x1#4 f.ext (aluR ctz64 f.ext) s

/-- CTZ_EXT (R117). -/
def execCtzExt (f : Ext) (s : State) : Out :=
  instr 0x03#6 0x1#4 f (aluR ctz64 f) s

/-- POPC (R117). -/
def execPopc (f : Base) (s : State) : Out :=
  instr 0x03#6 0x2#4 f.ext (aluR popc64 f.ext) s

/-- POPC_EXT (R117). -/
def execPopcExt (f : Ext) (s : State) : Out :=
  instr 0x03#6 0x2#4 f (aluR popc64 f) s

/-- BREV (R117). -/
def execBrev (f : Base) (s : State) : Out :=
  instr 0x03#6 0x3#4 f.ext (aluR brev64 f.ext) s

/-- BREV_EXT (R117). -/
def execBrevExt (f : Ext) (s : State) : Out :=
  instr 0x03#6 0x3#4 f (aluR brev64 f) s

/-- BSWAP (R117). -/
def execBswap (f : Base) (s : State) : Out :=
  instr 0x03#6 0x4#4 f.ext (aluR bswap64 f.ext) s

/-- BSWAP_EXT (R117). -/
def execBswapExt (f : Ext) (s : State) : Out :=
  instr 0x03#6 0x4#4 f (aluR bswap64 f) s

/-- SEXT (R117). -/
def execSext (f : Base) (s : State) : Out :=
  instr 0x03#6 0x5#4 f.ext (aluRI (fun a b => sext a (fieldWidth b.toNat)) f.ext) s

/-- SEXT_EXT (R117). -/
def execSextExt (f : Ext) (s : State) : Out :=
  instr 0x03#6 0x5#4 f (aluRI (fun a b => sext a (fieldWidth b.toNat)) f) s

/-- ZEXT (R117). -/
def execZext (f : Base) (s : State) : Out :=
  instr 0x03#6 0x6#4 f.ext (aluRI (fun a b => zext a (fieldWidth b.toNat)) f.ext) s

/-- ZEXT_EXT (R117). -/
def execZextExt (f : Ext) (s : State) : Out :=
  instr 0x03#6 0x6#4 f (aluRI (fun a b => zext a (fieldWidth b.toNat)) f) s

/-- BFX (R117). -/
def execBfx (f : Ext) (s : State) : Out :=
  instr 0x03#6 0x7#4 f (aluR (fun a => bitExtract a f.imm) f) s

/-- BFI (R117). -/
def execBfi (f : Ext) (s : State) : Out :=
  instr 0x03#6 0x8#4 f (aluRR (fun a b => bitInsert a b f.imm) f) s

/-- SEL (R117). -/
def execSel (f : Ext) (s : State) : Out :=
  instr 0x03#6 0x9#4 f (selBody f) s

/-- MOV (R117). -/
def execMov (f : Base) (s : State) : Out :=
  instr 0x04#6 0x0#4 f.ext (movBody f.ext) s

/-- MOV_EXT (R117). -/
def execMovExt (f : Ext) (s : State) : Out :=
  instr 0x04#6 0x0#4 f (movBody f) s

/-- LI (R117). -/
def execLi (f : Base) (s : State) : Out :=
  instr 0x04#6 0x1#4 f.ext (liBody f.ext) s

/-- LI_EXT (R117). -/
def execLiExt (f : Ext) (s : State) : Out :=
  instr 0x04#6 0x1#4 f (liBody f) s

/-- CMP_EQ (R118). -/
def execCmpEq (f : Base) (s : State) : Out :=
  instr 0x05#6 0x0#4 f.ext (cmpBody (fun a b => a == b) f.ext) s

/-- CMP_EQ_EXT (R118). -/
def execCmpEqExt (f : Ext) (s : State) : Out :=
  instr 0x05#6 0x0#4 f (cmpBody (fun a b => a == b) f) s

/-- CMP_NE (R118). -/
def execCmpNe (f : Base) (s : State) : Out :=
  instr 0x05#6 0x1#4 f.ext (cmpBody (fun a b => a != b) f.ext) s

/-- CMP_NE_EXT (R118). -/
def execCmpNeExt (f : Ext) (s : State) : Out :=
  instr 0x05#6 0x1#4 f (cmpBody (fun a b => a != b) f) s

/-- CMP_LT (R118). -/
def execCmpLt (f : Base) (s : State) : Out :=
  instr 0x05#6 0x2#4 f.ext (cmpBody (fun a b => a.slt b) f.ext) s

/-- CMP_LT_EXT (R118). -/
def execCmpLtExt (f : Ext) (s : State) : Out :=
  instr 0x05#6 0x2#4 f (cmpBody (fun a b => a.slt b) f) s

/-- CMP_LE (R118). -/
def execCmpLe (f : Base) (s : State) : Out :=
  instr 0x05#6 0x3#4 f.ext (cmpBody (fun a b => a.sle b) f.ext) s

/-- CMP_LE_EXT (R118). -/
def execCmpLeExt (f : Ext) (s : State) : Out :=
  instr 0x05#6 0x3#4 f (cmpBody (fun a b => a.sle b) f) s

/-- CMP_GT (R118). -/
def execCmpGt (f : Base) (s : State) : Out :=
  instr 0x05#6 0x4#4 f.ext (cmpBody (fun a b => b.slt a) f.ext) s

/-- CMP_GT_EXT (R118). -/
def execCmpGtExt (f : Ext) (s : State) : Out :=
  instr 0x05#6 0x4#4 f (cmpBody (fun a b => b.slt a) f) s

/-- CMP_GE (R118). -/
def execCmpGe (f : Base) (s : State) : Out :=
  instr 0x05#6 0x5#4 f.ext (cmpBody (fun a b => b.sle a) f.ext) s

/-- CMP_GE_EXT (R118). -/
def execCmpGeExt (f : Ext) (s : State) : Out :=
  instr 0x05#6 0x5#4 f (cmpBody (fun a b => b.sle a) f) s

/-- CMP_LTN (R118). -/
def execCmpLtn (f : Base) (s : State) : Out :=
  instr 0x05#6 0x6#4 f.ext (cmpBody (fun a b => a.ult b) f.ext) s

/-- CMP_LTN_EXT (R118). -/
def execCmpLtnExt (f : Ext) (s : State) : Out :=
  instr 0x05#6 0x6#4 f (cmpBody (fun a b => a.ult b) f) s

/-- CMP_LEN (R118). -/
def execCmpLen (f : Base) (s : State) : Out :=
  instr 0x05#6 0x7#4 f.ext (cmpBody (fun a b => a.ule b) f.ext) s

/-- CMP_LEN_EXT (R118). -/
def execCmpLenExt (f : Ext) (s : State) : Out :=
  instr 0x05#6 0x7#4 f (cmpBody (fun a b => a.ule b) f) s

/-- CMP_GTN (R118). -/
def execCmpGtn (f : Base) (s : State) : Out :=
  instr 0x05#6 0x8#4 f.ext (cmpBody (fun a b => b.ult a) f.ext) s

/-- CMP_GTN_EXT (R118). -/
def execCmpGtnExt (f : Ext) (s : State) : Out :=
  instr 0x05#6 0x8#4 f (cmpBody (fun a b => b.ult a) f) s

/-- CMP_GEN (R118). -/
def execCmpGen (f : Base) (s : State) : Out :=
  instr 0x05#6 0x9#4 f.ext (cmpBody (fun a b => b.ule a) f.ext) s

/-- CMP_GEN_EXT (R118). -/
def execCmpGenExt (f : Ext) (s : State) : Out :=
  instr 0x05#6 0x9#4 f (cmpBody (fun a b => b.ule a) f) s

/-- PAND (R119). -/
def execPand (f : Base) (s : State) : Out :=
  instr 0x0B#6 0x0#4 f.ext (predRR (fun a b => a &&& b) f.ext) s

/-- PAND_EXT (R119). -/
def execPandExt (f : Ext) (s : State) : Out :=
  instr 0x0B#6 0x0#4 f (predRR (fun a b => a &&& b) f) s

/-- POR (R119). -/
def execPor (f : Base) (s : State) : Out :=
  instr 0x0B#6 0x1#4 f.ext (predRR (fun a b => a ||| b) f.ext) s

/-- POR_EXT (R119). -/
def execPorExt (f : Ext) (s : State) : Out :=
  instr 0x0B#6 0x1#4 f (predRR (fun a b => a ||| b) f) s

/-- PXOR (R119). -/
def execPxor (f : Base) (s : State) : Out :=
  instr 0x0B#6 0x2#4 f.ext (predRR (fun a b => a ^^^ b) f.ext) s

/-- PXOR_EXT (R119). -/
def execPxorExt (f : Ext) (s : State) : Out :=
  instr 0x0B#6 0x2#4 f (predRR (fun a b => a ^^^ b) f) s

/-- PNOT (R119). -/
def execPnot (f : Base) (s : State) : Out :=
  instr 0x0B#6 0x3#4 f.ext (predR (fun a => ~~~a) f.ext) s

/-- PNOT_EXT (R119). -/
def execPnotExt (f : Ext) (s : State) : Out :=
  instr 0x0B#6 0x3#4 f (predR (fun a => ~~~a) f) s

/-- PMOV (R119). -/
def execPmov (f : Base) (s : State) : Out :=
  instr 0x0B#6 0x4#4 f.ext (predR (fun a => a) f.ext) s

/-- PMOV_EXT (R119). -/
def execPmovExt (f : Ext) (s : State) : Out :=
  instr 0x0B#6 0x4#4 f (predR (fun a => a) f) s

/-- PSET (R119). -/
def execPset (f : Base) (s : State) : Out :=
  instr 0x0B#6 0x5#4 f.ext (psetReg f.ext) s

/-- PSET_EXT (R119). -/
def execPsetExt (f : Ext) (s : State) : Out :=
  instr 0x0B#6 0x5#4 f (psetImm f) s

/-- PGET (R119). -/
def execPget (f : Base) (s : State) : Out :=
  instr 0x0B#6 0x6#4 f.ext (pgetBody f.ext) s

/-- PGET_EXT (R119). -/
def execPgetExt (f : Ext) (s : State) : Out :=
  instr 0x0B#6 0x6#4 f (pgetBody f) s

end Sys2Proof.Machine
end

