-- ==== Sys2Proof/Machine/Vector.lean ====
section
/-!
DEFINITION. Machine/Vector.lean: vector arithmetic, compare, conversion, reduction, permutation (06 R174 to R190), and vector
and bitmap-sparse memory (R191, R192, 05 R171).
-/

namespace Sys2Proof.Machine

/-! ## Elements (01 R26, R50) -/

/-- Element j of w bits. -/
def element (x : VWord) (w j : Nat) : Nat := x.toNat / 2 ^ (w * j) % 2 ^ w

def elementsOf (x : VWord) (w n : Nat) : List Nat := (List.range n).map (element x w)

/-- Elements of w bits, element 0 lowest. -/
def packNat (w : Nat) (xs : List Nat) : Nat := xs.foldr (fun a r => a % 2 ^ w + 2 ^ w * r) 0

def packElements (w : Nat) (xs : List Nat) : VWord := BitVec.ofNat 1024 (packNat w xs)

/-- Elements of w bits in a v register of the thread's kind of core. -/
def vCount (t : Thread) (w : Nat) : Nat := 8 * vBytes t / w

def fmtOf (f : Ext) : Nat := f.fmt.toNat
def widthOf (f : Ext) : Nat := fmtBits f.fmt.toNat

/-- The bits of a selector predicate for n elements (R175). -/
def selected (p : Word) (w n : Nat) : List Bool := (List.range n).map (predBit p w)

/-- D as it is written: an element without a result, or governed off, keeps its contents (01 R25, R29). -/
def blend (old : VWord) (p : Word) (w : Nat) (xs : List (Option Nat)) : VWord :=
  packElements w (xs.mapIdx (fun j x => if predBit p w j then x.getD (element old w j) else element old w j))

/-- Some element keeps its contents. -/
def keepsSome (p : Word) (w : Nat) (xs : List (Option Nat)) : Bool :=
  (xs.mapIdx (fun j x => predBit p w j && x.isSome)).any (fun written => !written)

/-- A register that came back poisoned stays so while an element of it keeps its contents (13 R362).  DEDUCED:
notes/assumptions/32.md. -/
def writeElements (f : Ext) (w : Nat) (xs : List (Option Nat)) : Act Unit := do
  let t := (← get).cur
  let d := vAt t f.d.toNat
  let p := governing t f
  writeVAs f.d.toNat ⟨blend d.val p w xs, if d.st == .poisoned && keepsSome p w xs then .poisoned else .full⟩

/-- Flags of the active elements (R176). -/
def activeFlags (p : Word) (w : Nat) (rs : List (Nat × Flags)) : Flags :=
  (rs.mapIdx (fun j r => if predBit p w j then r.2 else Flags.none)).foldl (· ||| ·) Flags.none

/-- The results of all elements, and the flags of the active ones. -/
def writeResults (f : Ext) (w : Nat) (rs : List (Nat × Flags)) : Act Unit := do
  orFlags (activeFlags (governing (← get).cur f) w rs)
  writeElements f w (rs.map (fun r => some r.1))

def exact (x : Nat) : Nat × Flags := (x, Flags.none)

/-! ## Element-wise shapes: `op` takes the draw, then the elements -/

def vecR (op : Nat → Nat → Nat × Flags) (f : Ext) : Act Unit := do
  let w := widthOf f
  let a ← readV f.a f.ta
  let n := vCount (← get).cur w
  let ds ← takeDraws f.rm n
  writeResults f w (ds.mapIdx (fun j d => op d (element a w j)))

def vecRR (op : Nat → Nat → Nat → Nat × Flags) (f : Ext) : Act Unit := do
  let w := widthOf f
  let a ← readV f.a f.ta
  let b ← readV f.b f.tb
  let n := vCount (← get).cur w
  let ds ← takeDraws f.rm n
  writeResults f w (ds.mapIdx (fun j d => op d (element a w j) (element b w j)))

def vecRRR (op : Nat → Nat → Nat → Nat → Nat × Flags) (f : Ext) : Act Unit := do
  let w := widthOf f
  let a ← readV f.a f.ta
  let b ← readV f.b f.tb
  let c ← readV f.c f.tc
  let n := vCount (← get).cur w
  let ds ← takeDraws f.rm n
  writeResults f w (ds.mapIdx (fun j d => op d (element a w j) (element b w j) (element c w j)))

def rmOf (f : Ext) : Rm := Rm.ofCode f.rm.toNat

/-- One floating-point operation of two elements. -/
def vecFp (op : Fp → Rm → Nat → Nat → Nat → Nat × Flags) (f : Ext) : Act Unit := vecRR (op (fpFmt f) (rmOf f)) f

/-- VFMA, VFMS, VFNMA. -/
def vecFma (np nc : Bool) (f : Ext) : Act Unit := vecRRR (fun d a b c => (fpFmt f).fma (rmOf f) d np nc a b c) f

/-- An integer or bit operation of two elements: w, a, b. -/
def vecInt (op : Nat → Nat → Nat → Nat) (f : Ext) : Act Unit := vecRR (fun _ a b => exact (op (widthOf f) a b % 2 ^ widthOf f)) f

/-- The smaller or larger of two integer elements. -/
def intExtreme (fmt : Nat) (max : Bool) (a b : Nat) : Nat := if decide (intValue fmt b < intValue fmt a) != max then b else a

/-! ## Compare and select -/

/-- The relation of a compare code on w-bit integers (02 R71). -/
def intRelation (cc w a b : Nat) : Bool :=
  match cc with
  | 0 => a == b
  | 1 => a != b
  | 2 => decide (toSigned w a < toSigned w b)
  | 3 => decide (toSigned w a ≤ toSigned w b)
  | 4 => decide (toSigned w b < toSigned w a)
  | 5 => decide (toSigned w b ≤ toSigned w a)
  | 6 => decide (a < b)
  | 7 => decide (a ≤ b)
  | 8 => decide (b < a)
  | _ => decide (b ≤ a)

/-- The elements of w bits behind bit k of a predicate result (R181). -/
def groupOf (w n k : Nat) : List Nat :=
  (List.range n).filter (fun j => if w = 64 then j == k / 2 else j / (32 / w) == k)

/-- A predicate result: governed bits receive the conjunction of their elements' results. -/
def groupResult (old p : Word) (w : Nat) (rs : List Bool) : Word :=
  BitVec.ofNat 32 (packNat 1 ((List.range 32).map (fun k =>
    let js := groupOf w rs.length k
    let bit := match js with
      | [] => old.getLsbD k
      | j :: _ => if predBit p w j then js.all (fun i => rs.getD i false) else old.getLsbD k
    if bit then 1 else 0)))

/-- A predicate that came back poisoned stays so while a bit of it keeps its value (13 R362).  DEDUCED:
notes/assumptions/32.md. -/
def writeGroups (f : Ext) (w : Nat) (rs : List Bool) : Act Unit := do
  let t := (← get).cur
  let g (old : Word) : Word := groupResult old (governing t f) w rs
  writeP f.d (g (pRead t f.d.toNat))
  if g 0#32 ≠ g 0xFFFFFFFF#32 then modCur (fun u => { u with bad := t.bad })

/-- DEDUCED: notes/assumptions/20.md. -/
def vcmpBody (f : Ext) : Act Unit := do
  let w := widthOf f
  let a ← readV f.a f.ta
  let b ← readV f.b f.tb
  let n := vCount (← get).cur w
  writeGroups f w ((List.range n).map (fun j => intRelation f.sub.toNat w (element a w j) (element b w j)))

def vfcmpBody (f : Ext) : Act Unit := do
  let w := widthOf f
  let a ← readV f.a f.ta
  let b ← readV f.b f.tb
  let t := (← get).cur
  let rs := (List.range (vCount t w)).map (fun j => (fpFmt f).relation f.sub.toNat (element a w j) (element b w j))
  orFlags (activeFlags (governing t f) w (rs.map (fun r => (0, r.2))))
  writeGroups f w (rs.map (·.1))

def vselBody (f : Ext) : Act Unit := do
  let w := widthOf f
  let a ← readV f.a f.ta
  let b ← readV f.b f.tb
  let p ← readP f.c
  let n := vCount (← get).cur w
  writeElements f w ((List.range n).map (fun j => some (if predBit p w j then element a w j else element b w j)))

/-! ## Conversions (R183, R184) -/

/-- Pairs (source element, destination element) of a conversion under PART. -/
def convertPairs (bits ws wd part : Nat) : List (Nat × Nat) :=
  let n := bits / max ws wd
  (List.range n).map (fun j => if wd < ws then (j, part * n + j) else if ws < wd then (part * n + j, j) else (j, j))

/-- VCVT and VRNCVT from format `src` to format `dst`. -/
def vconvert (src dst : Nat) (sat : Bool) (f : Ext) : Act Unit := do
  let ws := fmtBits src
  let wd := fmtBits dst
  let a ← readV f.a f.ta
  let t := (← get).cur
  let pairs := convertPairs (8 * vBytes t) ws wd f.imm.toNat
  let ds ← takeDraws f.rm pairs.length
  let rs := (pairs.zip ds).filterMap (fun x =>
    if predBit (governing t f) wd x.1.2 then
      some (x.1, convert src dst (rmOf f) sat x.2 (element a ws x.1.1))
    else none)
  match rs.find? (fun r => r.2.isNone) with
  | some r => trap 0x0C (rangeInfo (numValue src (element a ws r.1.1)).isNan dst src r.1.2)
  | none => do
    orFlags (rs.foldl (fun x r => x ||| (r.2.getD (exact 0)).2) Flags.none)
    writeElements f wd ((List.range (vCount t wd)).map (fun j =>
      ((rs.find? (fun r => r.1.2 == j)).bind (·.2)).map (·.1)))

/-- DESIGN CHOICE: notes/assumptions/10.md. -/
def vcvtBody (f : Ext) : Act Unit := vconvert (f.sub.extractLsb' 0 4).toNat (fmtOf f) (f.sub.getLsbD 4) f

def vrncvtBody (f : Ext) : Act Unit := if f.sub = 0#8 then vconvert (fmtOf f) 14 false f else vconvert 14 (fmtOf f) false f

/-! ## The order of sums (03 R104, R105) -/

/-- a + b in a format: the draw, a, b. -/
def sumOp (fmt : Nat) (rm : Rm) (d a b : Nat) : Nat × Flags :=
  if fmt < 7 then (Fp.ofFmt fmt).add rm d a b
  else if fmt = 14 then exact (rnsAdd a b)
  else exact ((a + b) % 2 ^ intWidth fmt)

/-- The smaller or larger of two elements. -/
def extremeOp (fmt : Nat) (max : Bool) (_ a b : Nat) : Nat × Flags :=
  if fmt < 7 then (Fp.ofFmt fmt).minMax max a b else exact (intExtreme fmt max a b)

/-- The result over no active lane; `op` is SUB of VRED. -/
def emptyReduction (op fmt : Nat) : Nat :=
  if op = 0 then 0
  else if fmt < 7 then (Fp.ofFmt fmt).signBit (op == 2) + (Fp.ofFmt fmt).infCode
  else ofInt (intWidth fmt) (if op = 1 then intMax fmt else intMin fmt)

/-- One node of the tree. -/
def treeNode (op : Nat → Nat → Nat → Nat × Flags) (d : Nat) (x y : Option Nat) : Option Nat × Flags :=
  match x, y with
  | some a, some b => (some (op d a b).1, (op d a b).2)
  | some a, none => (some a, Flags.none)
  | none, b => (b, Flags.none)

/-- One level of the tree. -/
def treeLevel (op : Nat → Nat → Nat → Nat × Flags) : List (Option Nat) → List Nat → List (Option Nat) × Flags
  | x :: y :: xs, ds =>
    let r := treeNode op (ds.headD 0) x y
    let s := treeLevel op xs ds.tail
    (r.1 :: s.1, r.2 ||| s.2)
  | xs, _ => (xs, Flags.none)

/-- The pairwise tree over lanes, level by level; one draw a node.  DEDUCED: notes/assumptions/20.md. -/
def tree (op : Nat → Nat → Nat → Nat × Flags) : Nat → List (Option Nat) → List Nat → Option Nat × Flags
  | 0, xs, _ => (xs.headD none, Flags.none)
  | k + 1, xs, ds =>
    let r := treeLevel op xs ds
    let s := tree op k r.1 (ds.drop (xs.length / 2))
    (s.1, r.2 ||| s.2)

/-- Levels that suffice for every element count. -/
def treeLevels : Nat := 8

/-- RNS64 results are canonical (R92). -/
def canonical (fmt x : Nat) : Nat := if fmt = 14 then rnsAdd x 0 else x

/-- The lanes that a test accepts, of elements of w bits. -/
def lanes (a : VWord) (w n : Nat) (active : Nat → Bool) : List (Option Nat) :=
  (List.range n).map (fun j => if active j then some (element a w j) else none)

def vredBody (f : Ext) : Act Unit := do
  let w := widthOf f
  let a ← readV f.a f.ta
  let t := (← get).cur
  let n := vCount t w
  let ds ← takeDraws f.rm (n - 1)
  let op := if f.sub = 0#8 then sumOp (fmtOf f) (rmOf f) else extremeOp (fmtOf f) (f.sub == 2#8)
  let r := tree op treeLevels (lanes a w n (predBit (governing t f) w)) ds
  orFlags r.2
  writeData f.d (extendCode (fmtOf f) (canonical (fmtOf f) (r.1.getD (emptyReduction f.sub.toNat (fmtOf f)))))

/-- The serial chain: element j of the result, or none where it is governed off. -/
def chain (op : Nat → Nat → Nat → Nat × Flags) (fmt : Nat) (active restart : Nat → Bool) :
    Nat → Nat → List Nat → List Nat → List (Option Nat) × Flags
  | j, run, a :: xs, d :: ds =>
    let run := if restart j then 0 else run
    if active j then
      let r := op d run a
      let s := chain op fmt active restart (j + 1) r.1 xs ds
      (some (canonical fmt r.1) :: s.1, r.2 ||| s.2)
    else
      let s := chain op fmt active restart (j + 1) run xs ds
      (none :: s.1, s.2)
  | _, _, _, _ => ([], Flags.none)

/-- VSCAN, and VSEGSCAN with its heads. -/
def scanWith (heads : Word → Nat → Bool) (f : Ext) : Act Unit := do
  let w := widthOf f
  let a ← readV f.a f.ta
  let t := (← get).cur
  let n := vCount t w
  let sel ← readP f.c
  let ds ← takeDraws f.rm n
  let r := chain (sumOp (fmtOf f) (rmOf f)) (fmtOf f) (predBit (governing t f) w) (heads sel) 0 0 (elementsOf a w n) ds
  orFlags r.2
  writeElements f w r.1

def vscanBody (f : Ext) : Act Unit := scanWith (fun _ _ => false) f

def vsegscanBody (f : Ext) : Act Unit := scanWith (fun p j => predBit p (widthOf f) j) f

/-- The heads of the segments (R187). -/
def segmentHeads (p : Word) (w n : Nat) : List Nat := (List.range n).filter (fun j => j == 0 || predBit p w j)

/-- An active element that is no head receives 0, also in a segment whose head is governed off.  DESIGN CHOICE:
notes/assumptions/20.md. -/
def vsegsumBody (f : Ext) : Act Unit := do
  let w := widthOf f
  let a ← readV f.a f.ta
  let t := (← get).cur
  let n := vCount t w
  let heads := segmentHeads (← readP f.c) w n
  let ds ← takeDraws f.rm (heads.length * (n - 1))
  let on (j : Nat) : Bool := predBit (governing t f) w j
  let sums := heads.mapIdx (fun i h =>
    let stop := (heads.find? (fun k => decide (h < k))).getD n
    if on h then
      let r := tree (sumOp (fmtOf f) (rmOf f)) treeLevels (lanes a w n (fun j => on j && decide (h ≤ j) && decide (j < stop)))
        (ds.drop (i * (n - 1)))
      (h, r.1, r.2)
    else (h, none, Flags.none))
  orFlags (sums.foldl (fun x r => x ||| r.2.2) Flags.none)
  writeElements f w ((List.range n).map (fun j =>
    match sums.find? (fun r => r.1 == j) with
    | some r => r.2.1.map (canonical (fmtOf f))
    | none => some 0))

/-! ## Permutation, sorting and moves (R189, R190) -/

def vpermBody (f : Ext) : Act Unit := do
  let w := widthOf f
  let a ← readV f.a f.ta
  let b ← readV f.b f.tb
  let n := vCount (← get).cur w
  writeElements f w ((List.range n).map (fun j => some (element a w (element b w j % n))))

def vbcastBody (f : Ext) : Act Unit := do
  let w := widthOf f
  let a ← readData f.a f.ta
  let n := vCount (← get).cur w
  writeElements f w (List.replicate n (some (a.toNat % 2 ^ w)))

def vslideBody (f : Ext) : Act Unit := do
  let w := widthOf f
  let a ← readV f.a f.ta
  let b ← readV f.b f.tb
  let n := vCount (← get).cur w
  let at' (i : Nat) : Nat := if i < n then element a w i else element b w (i - n)
  writeElements f w ((List.range n).map (fun j => some (at' (j + f.imm.toNat))))

/-- Selected elements below j. -/
def selectedBelow (p : Word) (w j : Nat) : Nat := ((List.range j).filter (predBit p w)).length

def vcompBody (f : Ext) : Act Unit := do
  let w := widthOf f
  let a ← readV f.a f.ta
  let p ← readP f.c
  let n := vCount (← get).cur w
  let xs := ((List.range n).filter (predBit p w)).map (element a w)
  writeElements f w ((List.range n).map (fun j => some (xs.getD j 0)))

def vexpdBody (f : Ext) : Act Unit := do
  let w := widthOf f
  let a ← readV f.a f.ta
  let p ← readP f.c
  let n := vCount (← get).cur w
  writeElements f w ((List.range n).map (fun j => some (if predBit p w j then element a w (selectedBelow p w j) else 0)))

def viotaBody (f : Ext) : Act Unit := do
  let w := widthOf f
  let p ← readP f.c
  let n := vCount (← get).cur w
  writeElements f w ((List.range n).map (fun j => some (selectedBelow p w j)))

def vpopcBody (f : Ext) : Act Unit := do
  let w := widthOf f
  let p ← readP f.c
  let t := (← get).cur
  writeData f.d (w64 (selectedBelow (p &&& governing t f) w (vCount t w)))

def vmovgBody (f : Ext) : Act Unit := do
  let a ← readV f.a f.ta
  writeData f.d (extendCode (fmtOf f) (element a (widthOf f) f.imm.toNat))

def vmovvBody (f : Ext) : Act Unit := do
  let w := widthOf f
  let a ← readData f.a f.ta
  let n := vCount (← get).cur w
  writeElements f w ((List.range n).map (fun j => if j = f.imm.toNat then some (a.toNat % 2 ^ w) else none))

/-- The place of a key in the order of VSORT. -/
def sortKey (fmt code : Nat) : Nat :=
  let w := fmtBits fmt
  if fmt < 7 then (if code.testBit (w - 1) then 2 ^ w - 1 - code else code + 2 ^ (w - 1))
  else if fmtSigned fmt then (code + 2 ^ (w - 1)) % 2 ^ w
  else code

/-- Insert a pair (key, index) before the first pair whose key is larger. -/
def insertKey (x : Nat × Nat) : List (Nat × Nat) → List (Nat × Nat)
  | [] => [x]
  | y :: ys => if x.1 < y.1 then x :: y :: ys else y :: insertKey x ys

/-- The indices in rank order; equal keys keep ascending index order. -/
def rankOrder (keys : List Nat) : List Nat :=
  ((keys.mapIdx (fun i k => (k, i))).foldl (fun xs x => insertKey x xs) []).map (·.2)

def vsortBody (f : Ext) : Act Unit := do
  let w := widthOf f
  let a ← readV f.a f.ta
  let n := vCount (← get).cur w
  let keys := (elementsOf a w n).map (fun x =>
    if f.imm.getLsbD 0 then 2 ^ w - 1 - sortKey (fmtOf f) x else sortKey (fmtOf f) x)
  writeElements f w ((rankOrder keys).map some)

/-! ## Vector memory (R191, R192): elements are at least a byte; a byte of FMT 0x6 is a pair of elements, which one
predicate bit governs -/

def memWidth (f : Ext) : Nat := max 8 (widthOf f)

/-- The checks of the active elements in ascending order: tag, seal, bounds, permission, alignment, translation. -/
def elementPlaces (c : TCap) (js : List Nat) (addr : Nat → Nat) (size perm : Nat) (kind : Kind) : Act (List (Nat × Place)) := do
  let a ← curAgent
  js.mapM (fun j => do
    derefAligned c (addr j) size [perm]
    let p ← reach a (addr j) size kind true (capHas c.val permFMTW)
    return (j, p))

/-- Indices of the active elements of memory. -/
def activeElements (t : Thread) (f : Ext) : List Nat :=
  (List.range (vCount t (memWidth f))).filter (predBit (governing t f) (memWidth f))

def vloadAt (f : Ext) (c : TCap) (addr : Nat → Nat) : Act Unit := do
  let t := (← get).cur
  let w := memWidth f
  let ps ← elementPlaces c (activeElements t f) addr (w / 8) permLD .read
  let a ← curAgent
  let xs ← ps.mapM (fun x => do
    let r ← readPlace a x.2 (addr x.1) (w / 8)
    return (x.1, bytesNat r.1))
  writeElements f w ((List.range (vCount t w)).map (fun j => (xs.find? (fun x => x.1 == j)).map (·.2)))

/-- The aligned line, outside the stores, that elements of a size fill (08 R249). -/
def wholeLine (ps : List Place) (size : Nat) : Option Nat :=
  let keys := ps.filterMap (fun p => match p with | .bytes k _ => some k | _ => none)
  match keys.head? with
  | none => none
  | some k =>
    let l := k / 128
    if !(keyIsStore k) && (List.range 128).all (fun i => keys.any (fun k => decide (k ≤ 128 * l + i) && decide (128 * l + i < k + size)))
    then some l else none

def vstoreAt (f : Ext) (c : TCap) (addr : Nat → Nat) : Act Unit := do
  let t := (← get).cur
  let w := memWidth f
  let x ← readV f.d f.tb
  let ps ← elementPlaces c (activeElements t f) addr (w / 8) permST .write
  let a ← curAgent
  let _ ← ps.mapM (fun y => writePlace a y.2 (addr y.1) (natBytes (w / 8) (element x w y.1)) false none)
  if ps.all (fun y => element x w y.1 == 0) then
    match wholeLine (ps.map (·.2)) (w / 8) with
    | some l => modMem (·.markZero l)
    | none => pure ()

/-- cursor(A) + IMM32. -/
def vectorBase (c : TCap) (f : Ext) : Nat := addOffset (capAddr c.val) f.imm.toInt

/-- Element j of consecutive elements. -/
def unitAddress (c : TCap) (f : Ext) (j : Nat) : Nat := addOffset (vectorBase c f) (j * (memWidth f / 8) : Nat)

/-- Element j at a signed index. -/
def indexAddress (c : TCap) (f : Ext) (x : VWord) (j : Nat) : Nat :=
  addOffset (vectorBase c f) (toSigned (widthOf f) (element x (widthOf f) j) * (widthOf f / 8 : Nat))

/-- Element j at a signed stride. -/
def strideAddress (c : TCap) (f : Ext) (stride : DWord) (j : Nat) : Nat := addOffset (vectorBase c f) ((j : Int) * stride.toInt)

def vldBody (f : Ext) : Act Unit := do
  let c ← readG f.a f.ta
  vloadAt f c (unitAddress c f)

def vstBody (f : Ext) : Act Unit := do
  let c ← readG f.a f.ta
  vstoreAt f c (unitAddress c f)

def vldxBody (f : Ext) : Act Unit := do
  let c ← readG f.a f.ta
  let x ← readV f.c f.tc
  vloadAt f c (indexAddress c f x)

def vstxBody (f : Ext) : Act Unit := do
  let c ← readG f.a f.ta
  let x ← readV f.c f.tc
  vstoreAt f c (indexAddress c f x)

def vldsBody (f : Ext) : Act Unit := do
  let c ← readG f.a f.ta
  let x ← readData f.c f.tc
  vloadAt f c (strideAddress c f x)

def vstsBody (f : Ext) : Act Unit := do
  let c ← readG f.a f.ta
  let x ← readData f.c f.tc
  vstoreAt f c (strideAddress c f x)

/-! ## Bitmap-sparse records (05 R171) -/

/-- Bytes of the mask of n elements. -/
def maskBytes (n : Nat) : Nat := max 8 (n / 8)

/-- Bytes of a record with k kept elements of w bits. -/
def recordBytes (n w k : Nat) : Nat := maskBytes n + (w * k + 63) / 64 * 8

/-- The mask of a record: its checks (0x04, 0x07, 0x05, 0x06, 0x08).  Besides ST or LD a sparse store or load needs XFER, which grants
its use (01 R40); R171 names no permission.  DEDUCED: notes/assumptions/20.md. -/
def recordMask (c : TCap) (addr n : Nat) (perm : Nat) : Act Unit := do
  deref c addr (maskBytes n) [perm, permXFER]
  trapIf (addr % 8 != 0) 0x08 (w64 addr)

/-- A record that runs past the top of A. -/
def recordTop (c : TCap) (addr size : Nat) : Act Unit := do
  let top := (capBounds c.val).2
  trapIf (decide (top < addr + size)) 0x11 (w64 top)

/-- The 8-byte words of a record, as (address, place). -/
def recordPlaces (c : TCap) (addr first count : Nat) (kind : Kind) : Act (List (Nat × Place)) := do
  let a ← curAgent
  ((List.range count).map (fun i => addr + 8 * (first + i))).mapM (fun x => do
    let p ← reach a x 8 kind true (capHas c.val permFMTW)
    return (x, p))

/-- Read words of a record as one number. -/
def readRecord (c : TCap) (addr first count : Nat) : Act Nat := do
  let ps ← recordPlaces c addr first count .read
  let a ← curAgent
  let xs ← ps.mapM (fun x => do
    let r ← readPlace a x.2 x.1 8
    return bytesNat r.1)
  return packNat 64 xs

def stbmBody (f : Ext) : Act Unit := do
  let c ← readG f.a f.ta
  let x ← readV f.b f.tb
  let t := (← get).cur
  let w := widthOf f
  let n := vCount t w
  let addr := vectorBase c f
  recordMask c addr n permST
  let kept := (List.range n).filter (fun j => predBit (governing t f) w j && element x w j != 0)
  let size := recordBytes n w kept.length
  recordTop c addr size
  let mask := packNat 1 ((List.range n).map (fun j => if kept.contains j then 1 else 0))
  let record := mask + 2 ^ (8 * maskBytes n) * packNat w (kept.map (element x w))
  let ps ← recordPlaces c addr 0 (size / 8) .write
  let a ← curAgent
  let _ ← ps.mapM (fun y => writePlace a y.2 y.1 (natBytes 8 (record / 2 ^ (8 * (y.1 - addr)))) false none)
  writeData f.d (w64 size)

/-- DEDUCED: notes/assumptions/20.md. -/
def ldbmBody (f : Ext) : Act Unit := do
  let c ← readG f.a f.ta
  let t := (← get).cur
  let w := widthOf f
  let n := vCount t w
  let addr := vectorBase c f
  recordMask c addr n permLD
  let m := maskBytes n
  let mask ← readRecord c addr 0 (m / 8)
  let kept := (List.range n).filter mask.testBit
  let size := recordBytes n w kept.length
  recordTop c addr size
  let values ← readRecord c addr (m / 8) ((size - m) / 8)
  writeElements f w ((List.range n).map (fun j =>
    some (if mask.testBit j then values / 2 ^ (w * (kept.filter (fun k => decide (k < j))).length) % 2 ^ w else 0)))

/-! ## Meanings -/

/-- VADD (R178). -/
def execVadd (f : Ext) (s : State) : Out :=
  instr 0x20#6 0x0#4 f (vecFp Fp.add f) s

/-- VSUB (R178). -/
def execVsub (f : Ext) (s : State) : Out :=
  instr 0x20#6 0x1#4 f (vecFp Fp.sub f) s

/-- VMUL (R178). -/
def execVmul (f : Ext) (s : State) : Out :=
  instr 0x20#6 0x2#4 f (vecFp Fp.mul f) s

/-- VDIV (R178). -/
def execVdiv (f : Ext) (s : State) : Out :=
  instr 0x20#6 0x6#4 f (vecFp Fp.div f) s

/-- VFMA (R178). -/
def execVfma (f : Ext) (s : State) : Out :=
  instr 0x20#6 0x3#4 f (vecFma false false f) s

/-- VFMS (R178). -/
def execVfms (f : Ext) (s : State) : Out :=
  instr 0x20#6 0x4#4 f (vecFma false true f) s

/-- VFNMA (R178). -/
def execVfnma (f : Ext) (s : State) : Out :=
  instr 0x20#6 0x5#4 f (vecFma true false f) s

/-- VSQRT (R178). -/
def execVsqrt (f : Ext) (s : State) : Out :=
  instr 0x20#6 0x7#4 f (vecR ((fpFmt f).sqrt (rmOf f)) f) s

/-- VMIN (R178). -/
def execVmin (f : Ext) (s : State) : Out :=
  instr 0x20#6 0x8#4 f (vecFp (fun p _ _ a b => p.minMax false a b) f) s

/-- VMAX (R178). -/
def execVmax (f : Ext) (s : State) : Out :=
  instr 0x20#6 0x9#4 f (vecFp (fun p _ _ a b => p.minMax true a b) f) s

/-- VABS (R178). -/
def execVabs (f : Ext) (s : State) : Out :=
  instr 0x20#6 0xA#4 f (vecR (fun _ a => exact (a % 2 ^ (widthOf f - 1))) f) s

/-- VNEG (R178). -/
def execVneg (f : Ext) (s : State) : Out :=
  instr 0x20#6 0xB#4 f (vecR (fun _ a => exact ((fpFmt f).negate a)) f) s

/-- VRCP (R179). -/
def execVrcp (f : Ext) (s : State) : Out :=
  instr 0x21#6 0x0#4 f (vecR (fun _ a => transcendental 0 (fmtOf f) a) f) s

/-- VRSQ (R179). -/
def execVrsq (f : Ext) (s : State) : Out :=
  instr 0x21#6 0x1#4 f (vecR (fun _ a => transcendental 1 (fmtOf f) a) f) s

/-- VEXP2 (R179). -/
def execVexp2 (f : Ext) (s : State) : Out :=
  instr 0x21#6 0x2#4 f (vecR (fun _ a => transcendental 2 (fmtOf f) a) f) s

/-- VLOG2 (R179). -/
def execVlog2 (f : Ext) (s : State) : Out :=
  instr 0x21#6 0x3#4 f (vecR (fun _ a => transcendental 3 (fmtOf f) a) f) s

/-- VSIGM (R179). -/
def execVsigm (f : Ext) (s : State) : Out :=
  instr 0x21#6 0x4#4 f (vecR (fun _ a => transcendental 4 (fmtOf f) a) f) s

/-- VTANH (R179). -/
def execVtanh (f : Ext) (s : State) : Out :=
  instr 0x21#6 0x5#4 f (vecR (fun _ a => transcendental 5 (fmtOf f) a) f) s

/-- VIADD (R180). -/
def execViadd (f : Ext) (s : State) : Out :=
  instr 0x24#6 0x0#4 f (vecInt (fun _ a b => a + b) f) s

/-- VISUB (R180). -/
def execVisub (f : Ext) (s : State) : Out :=
  instr 0x24#6 0x1#4 f (vecInt (fun w a b => a + 2 ^ w - b) f) s

/-- VIMUL (R180). -/
def execVimul (f : Ext) (s : State) : Out :=
  instr 0x24#6 0x2#4 f (vecInt (fun _ a b => a * b) f) s

/-- VIMIN (R180). -/
def execVimin (f : Ext) (s : State) : Out :=
  instr 0x24#6 0x3#4 f (vecInt (fun _ a b => intExtreme (fmtOf f) false a b) f) s

/-- VIMAX (R180). -/
def execVimax (f : Ext) (s : State) : Out :=
  instr 0x24#6 0x4#4 f (vecInt (fun _ a b => intExtreme (fmtOf f) true a b) f) s

/-- VAND (R180). -/
def execVand (f : Ext) (s : State) : Out :=
  instr 0x24#6 0x5#4 f (vecInt (fun _ a b => a &&& b) f) s

/-- VOR (R180). -/
def execVor (f : Ext) (s : State) : Out :=
  instr 0x24#6 0x6#4 f (vecInt (fun _ a b => a ||| b) f) s

/-- VXOR (R180). -/
def execVxor (f : Ext) (s : State) : Out :=
  instr 0x24#6 0x7#4 f (vecInt (fun _ a b => a ^^^ b) f) s

/-- VSHL (R180). -/
def execVshl (f : Ext) (s : State) : Out :=
  instr 0x24#6 0x8#4 f (vecInt (fun w a b => a * 2 ^ (b % w)) f) s

/-- VSHR (R180). -/
def execVshr (f : Ext) (s : State) : Out :=
  instr 0x24#6 0x9#4 f (vecInt (fun w a b => a / 2 ^ (b % w)) f) s

/-- VSHRA (R180). -/
def execVshra (f : Ext) (s : State) : Out :=
  instr 0x24#6 0xA#4 f (vecInt (fun w a b => ofInt w (toSigned w a / (2 ^ (b % w) : Nat))) f) s

/-- VCMP (R181). -/
def execVcmp (f : Ext) (s : State) : Out :=
  instr 0x25#6 0x0#4 f (vcmpBody f) s

/-- VFCMP (R181). -/
def execVfcmp (f : Ext) (s : State) : Out :=
  instr 0x25#6 0x1#4 f (vfcmpBody f) s

/-- VSEL (R182). -/
def execVsel (f : Ext) (s : State) : Out :=
  instr 0x25#6 0x2#4 f (vselBody f) s

/-- VCVT (R183). -/
def execVcvt (f : Ext) (s : State) : Out :=
  instr 0x26#6 0x0#4 f (vcvtBody f) s

/-- VRNCVT (R184). -/
def execVrncvt (f : Ext) (s : State) : Out :=
  instr 0x26#6 0x1#4 f (vrncvtBody f) s

/-- VRNADD (R185). -/
def execVrnadd (f : Ext) (s : State) : Out :=
  instr 0x26#6 0x2#4 f (vecRR (fun _ a b => exact (rnsAdd a b)) f) s

/-- VRNMUL (R185). -/
def execVrnmul (f : Ext) (s : State) : Out :=
  instr 0x26#6 0x3#4 f (vecRR (fun _ a b => exact (rnsMul a b)) f) s

/-- VRED (R186). -/
def execVred (f : Ext) (s : State) : Out :=
  instr 0x27#6 0x0#4 f (vredBody f) s

/-- VSCAN (R186). -/
def execVscan (f : Ext) (s : State) : Out :=
  instr 0x27#6 0x1#4 f (vscanBody f) s

/-- VSEGSUM (R187). -/
def execVsegsum (f : Ext) (s : State) : Out :=
  instr 0x27#6 0x2#4 f (vsegsumBody f) s

/-- VSEGSCAN (R187). -/
def execVsegscan (f : Ext) (s : State) : Out :=
  instr 0x27#6 0x3#4 f (vsegscanBody f) s

/-- VPERM (R189). -/
def execVperm (f : Ext) (s : State) : Out :=
  instr 0x28#6 0x0#4 f (vpermBody f) s

/-- VBCAST (R189). -/
def execVbcast (f : Ext) (s : State) : Out :=
  instr 0x28#6 0x1#4 f (vbcastBody f) s

/-- VSLIDE (R189). -/
def execVslide (f : Ext) (s : State) : Out :=
  instr 0x28#6 0x2#4 f (vslideBody f) s

/-- VCOMP (R189). -/
def execVcomp (f : Ext) (s : State) : Out :=
  instr 0x28#6 0x3#4 f (vcompBody f) s

/-- VEXPD (R189). -/
def execVexpd (f : Ext) (s : State) : Out :=
  instr 0x28#6 0x4#4 f (vexpdBody f) s

/-- VSORT (R190). -/
def execVsort (f : Ext) (s : State) : Out :=
  instr 0x28#6 0x5#4 f (vsortBody f) s

/-- VIOTA (R189). -/
def execViota (f : Ext) (s : State) : Out :=
  instr 0x28#6 0x6#4 f (viotaBody f) s

/-- VPOPC (R189). -/
def execVpopc (f : Ext) (s : State) : Out :=
  instr 0x28#6 0x7#4 f (vpopcBody f) s

/-- VMOVG (R189). -/
def execVmovg (f : Ext) (s : State) : Out :=
  instr 0x28#6 0x8#4 f (vmovgBody f) s

/-- VMOVV (R189). -/
def execVmovv (f : Ext) (s : State) : Out :=
  instr 0x28#6 0x9#4 f (vmovvBody f) s

/-- VLD (R191). -/
def execVld (f : Ext) (s : State) : Out :=
  instr 0x29#6 0x0#4 f (vldBody f) s

/-- VST (R191). -/
def execVst (f : Ext) (s : State) : Out :=
  instr 0x29#6 0x1#4 f (vstBody f) s

/-- VLDX (R191). -/
def execVldx (f : Ext) (s : State) : Out :=
  instr 0x29#6 0x2#4 f (vldxBody f) s

/-- VSTX (R191). -/
def execVstx (f : Ext) (s : State) : Out :=
  instr 0x29#6 0x3#4 f (vstxBody f) s

/-- VLDS (R191). -/
def execVlds (f : Ext) (s : State) : Out :=
  instr 0x29#6 0x4#4 f (vldsBody f) s

/-- VSTS (R191). -/
def execVsts (f : Ext) (s : State) : Out :=
  instr 0x29#6 0x5#4 f (vstsBody f) s

/-- STBM (R171). -/
def execStbm (f : Ext) (s : State) : Out :=
  instr 0x1A#6 0x0#4 f (stbmBody f) s

/-- LDBM (R171). -/
def execLdbm (f : Ext) (s : State) : Out :=
  instr 0x1A#6 0x1#4 f (ldbmBody f) s

end Sys2Proof.Machine
end

