-- ==== Sys2Proof/Machine/Dispatch.lean ====
section
/-!
DEFINITION. Machine/Dispatch.lean: one arm per constructor of `Instr`, each a call of its meaning.
-/

namespace Sys2Proof.Machine

def exec (i : Instr) (s : State) : Host.Outcome State Fault Refusal :=
  match i with
  | .add f => Sys2Proof.Machine.execAdd f s
  | .addExt f => Sys2Proof.Machine.execAddExt f s
  | .sub f => Sys2Proof.Machine.execSub f s
  | .subExt f => Sys2Proof.Machine.execSubExt f s
  | .mul f => Sys2Proof.Machine.execMul f s
  | .mulExt f => Sys2Proof.Machine.execMulExt f s
  | .mulh f => Sys2Proof.Machine.execMulh f s
  | .mulhExt f => Sys2Proof.Machine.execMulhExt f s
  | .mulhn f => Sys2Proof.Machine.execMulhn f s
  | .mulhnExt f => Sys2Proof.Machine.execMulhnExt f s
  | .div f => Sys2Proof.Machine.execDiv f s
  | .divExt f => Sys2Proof.Machine.execDivExt f s
  | .divn f => Sys2Proof.Machine.execDivn f s
  | .divnExt f => Sys2Proof.Machine.execDivnExt f s
  | .rem f => Sys2Proof.Machine.execRem f s
  | .remExt f => Sys2Proof.Machine.execRemExt f s
  | .remn f => Sys2Proof.Machine.execRemn f s
  | .remnExt f => Sys2Proof.Machine.execRemnExt f s
  | .and f => Sys2Proof.Machine.execAnd f s
  | .andExt f => Sys2Proof.Machine.execAndExt f s
  | .or f => Sys2Proof.Machine.execOr f s
  | .orExt f => Sys2Proof.Machine.execOrExt f s
  | .xor f => Sys2Proof.Machine.execXor f s
  | .xorExt f => Sys2Proof.Machine.execXorExt f s
  | .andn f => Sys2Proof.Machine.execAndn f s
  | .andnExt f => Sys2Proof.Machine.execAndnExt f s
  | .shl f => Sys2Proof.Machine.execShl f s
  | .shlExt f => Sys2Proof.Machine.execShlExt f s
  | .shr f => Sys2Proof.Machine.execShr f s
  | .shrExt f => Sys2Proof.Machine.execShrExt f s
  | .shra f => Sys2Proof.Machine.execShra f s
  | .shraExt f => Sys2Proof.Machine.execShraExt f s
  | .rotl f => Sys2Proof.Machine.execRotl f s
  | .rotlExt f => Sys2Proof.Machine.execRotlExt f s
  | .rotr f => Sys2Proof.Machine.execRotr f s
  | .rotrExt f => Sys2Proof.Machine.execRotrExt f s
  | .min f => Sys2Proof.Machine.execMin f s
  | .minExt f => Sys2Proof.Machine.execMinExt f s
  | .max f => Sys2Proof.Machine.execMax f s
  | .maxExt f => Sys2Proof.Machine.execMaxExt f s
  | .minn f => Sys2Proof.Machine.execMinn f s
  | .minnExt f => Sys2Proof.Machine.execMinnExt f s
  | .maxn f => Sys2Proof.Machine.execMaxn f s
  | .maxnExt f => Sys2Proof.Machine.execMaxnExt f s
  | .addi f => Sys2Proof.Machine.execAddi f s
  | .addiExt f => Sys2Proof.Machine.execAddiExt f s
  | .shlI6 f => Sys2Proof.Machine.execShlI6 f s
  | .shlI6Ext f => Sys2Proof.Machine.execShlI6Ext f s
  | .shrI6 f => Sys2Proof.Machine.execShrI6 f s
  | .shrI6Ext f => Sys2Proof.Machine.execShrI6Ext f s
  | .shraI6 f => Sys2Proof.Machine.execShraI6 f s
  | .shraI6Ext f => Sys2Proof.Machine.execShraI6Ext f s
  | .rotlI6 f => Sys2Proof.Machine.execRotlI6 f s
  | .rotlI6Ext f => Sys2Proof.Machine.execRotlI6Ext f s
  | .rotrI6 f => Sys2Proof.Machine.execRotrI6 f s
  | .rotrI6Ext f => Sys2Proof.Machine.execRotrI6Ext f s
  | .clz f => Sys2Proof.Machine.execClz f s
  | .clzExt f => Sys2Proof.Machine.execClzExt f s
  | .ctz f => Sys2Proof.Machine.execCtz f s
  | .ctzExt f => Sys2Proof.Machine.execCtzExt f s
  | .popc f => Sys2Proof.Machine.execPopc f s
  | .popcExt f => Sys2Proof.Machine.execPopcExt f s
  | .brev f => Sys2Proof.Machine.execBrev f s
  | .brevExt f => Sys2Proof.Machine.execBrevExt f s
  | .bswap f => Sys2Proof.Machine.execBswap f s
  | .bswapExt f => Sys2Proof.Machine.execBswapExt f s
  | .sext f => Sys2Proof.Machine.execSext f s
  | .sextExt f => Sys2Proof.Machine.execSextExt f s
  | .zext f => Sys2Proof.Machine.execZext f s
  | .zextExt f => Sys2Proof.Machine.execZextExt f s
  | .bfx f => Sys2Proof.Machine.execBfx f s
  | .bfi f => Sys2Proof.Machine.execBfi f s
  | .sel f => Sys2Proof.Machine.execSel f s
  | .mov f => Sys2Proof.Machine.execMov f s
  | .movExt f => Sys2Proof.Machine.execMovExt f s
  | .li f => Sys2Proof.Machine.execLi f s
  | .liExt f => Sys2Proof.Machine.execLiExt f s
  | .cmpEq f => Sys2Proof.Machine.execCmpEq f s
  | .cmpEqExt f => Sys2Proof.Machine.execCmpEqExt f s
  | .cmpNe f => Sys2Proof.Machine.execCmpNe f s
  | .cmpNeExt f => Sys2Proof.Machine.execCmpNeExt f s
  | .cmpLt f => Sys2Proof.Machine.execCmpLt f s
  | .cmpLtExt f => Sys2Proof.Machine.execCmpLtExt f s
  | .cmpLe f => Sys2Proof.Machine.execCmpLe f s
  | .cmpLeExt f => Sys2Proof.Machine.execCmpLeExt f s
  | .cmpGt f => Sys2Proof.Machine.execCmpGt f s
  | .cmpGtExt f => Sys2Proof.Machine.execCmpGtExt f s
  | .cmpGe f => Sys2Proof.Machine.execCmpGe f s
  | .cmpGeExt f => Sys2Proof.Machine.execCmpGeExt f s
  | .cmpLtn f => Sys2Proof.Machine.execCmpLtn f s
  | .cmpLtnExt f => Sys2Proof.Machine.execCmpLtnExt f s
  | .cmpLen f => Sys2Proof.Machine.execCmpLen f s
  | .cmpLenExt f => Sys2Proof.Machine.execCmpLenExt f s
  | .cmpGtn f => Sys2Proof.Machine.execCmpGtn f s
  | .cmpGtnExt f => Sys2Proof.Machine.execCmpGtnExt f s
  | .cmpGen f => Sys2Proof.Machine.execCmpGen f s
  | .cmpGenExt f => Sys2Proof.Machine.execCmpGenExt f s
  | .cadd f => Sys2Proof.Machine.execCadd f s
  | .caddExt f => Sys2Proof.Machine.execCaddExt f s
  | .cseta f => Sys2Proof.Machine.execCseta f s
  | .csetaExt f => Sys2Proof.Machine.execCsetaExt f s
  | .cbound f => Sys2Proof.Machine.execCbound f s
  | .cboundExt f => Sys2Proof.Machine.execCboundExt f s
  | .cboundx f => Sys2Proof.Machine.execCboundx f s
  | .cboundxExt f => Sys2Proof.Machine.execCboundxExt f s
  | .candp f => Sys2Proof.Machine.execCandp f s
  | .candpExt f => Sys2Proof.Machine.execCandpExt f s
  | .cseal f => Sys2Proof.Machine.execCseal f s
  | .csealExt f => Sys2Proof.Machine.execCsealExt f s
  | .cunseal f => Sys2Proof.Machine.execCunseal f s
  | .cunsealExt f => Sys2Proof.Machine.execCunsealExt f s
  | .cget f => Sys2Proof.Machine.execCget f s
  | .cgetExt f => Sys2Proof.Machine.execCgetExt f s
  | .cclear f => Sys2Proof.Machine.execCclear f s
  | .cclearExt f => Sys2Proof.Machine.execCclearExt f s
  | .ctest f => Sys2Proof.Machine.execCtest f s
  | .ctestExt f => Sys2Proof.Machine.execCtestExt f s
  | .csub f => Sys2Proof.Machine.execCsub f s
  | .csubExt f => Sys2Proof.Machine.execCsubExt f s
  | .pand f => Sys2Proof.Machine.execPand f s
  | .pandExt f => Sys2Proof.Machine.execPandExt f s
  | .por f => Sys2Proof.Machine.execPor f s
  | .porExt f => Sys2Proof.Machine.execPorExt f s
  | .pxor f => Sys2Proof.Machine.execPxor f s
  | .pxorExt f => Sys2Proof.Machine.execPxorExt f s
  | .pnot f => Sys2Proof.Machine.execPnot f s
  | .pnotExt f => Sys2Proof.Machine.execPnotExt f s
  | .pmov f => Sys2Proof.Machine.execPmov f s
  | .pmovExt f => Sys2Proof.Machine.execPmovExt f s
  | .pset f => Sys2Proof.Machine.execPset f s
  | .psetExt f => Sys2Proof.Machine.execPsetExt f s
  | .pget f => Sys2Proof.Machine.execPget f s
  | .pgetExt f => Sys2Proof.Machine.execPgetExt f s
  | .fadd f => Sys2Proof.Machine.execFadd f s
  | .fsub f => Sys2Proof.Machine.execFsub f s
  | .fmul f => Sys2Proof.Machine.execFmul f s
  | .ffma f => Sys2Proof.Machine.execFfma f s
  | .fdiv f => Sys2Proof.Machine.execFdiv f s
  | .fsqrt f => Sys2Proof.Machine.execFsqrt f s
  | .fmin f => Sys2Proof.Machine.execFmin f s
  | .fmax f => Sys2Proof.Machine.execFmax f s
  | .fcmp f => Sys2Proof.Machine.execFcmp f s
  | .fcvt f => Sys2Proof.Machine.execFcvt f s
  | .fclass f => Sys2Proof.Machine.execFclass f s
  | .br f => Sys2Proof.Machine.execBr f s
  | .brp f => Sys2Proof.Machine.execBrp f s
  | .call f => Sys2Proof.Machine.execCall f s
  | .ret f => Sys2Proof.Machine.execRet f s
  | .retExt f => Sys2Proof.Machine.execRetExt f s
  | .jmpc f => Sys2Proof.Machine.execJmpc f s
  | .jmpcExt f => Sys2Proof.Machine.execJmpcExt f s
  | .loop f => Sys2Proof.Machine.execLoop f s
  | .endFiring f => Sys2Proof.Machine.execEndFiring f s
  | .nop f => Sys2Proof.Machine.execNop f s
  | .etrap f => Sys2Proof.Machine.execEtrap f s
  | .etrapExt f => Sys2Proof.Machine.execEtrapExt f s
  | .eret f => Sys2Proof.Machine.execEret f s
  | .mfs f => Sys2Proof.Machine.execMfs f s
  | .mfsExt f => Sys2Proof.Machine.execMfsExt f s
  | .mts f => Sys2Proof.Machine.execMts f s
  | .mtsExt f => Sys2Proof.Machine.execMtsExt f s
  | .femptyG f => Sys2Proof.Machine.execFemptyG f s
  | .femptyGExt f => Sys2Proof.Machine.execFemptyGExt f s
  | .femptyV f => Sys2Proof.Machine.execFemptyV f s
  | .femptyVExt f => Sys2Proof.Machine.execFemptyVExt f s
  | .ftestG f => Sys2Proof.Machine.execFtestG f s
  | .ftestGExt f => Sys2Proof.Machine.execFtestGExt f s
  | .ftestV f => Sys2Proof.Machine.execFtestV f s
  | .ftestVExt f => Sys2Proof.Machine.execFtestVExt f s
  | .ldI8 f => Sys2Proof.Machine.execLdI8 f s
  | .ldI8Ext f => Sys2Proof.Machine.execLdI8Ext f s
  | .ldN8 f => Sys2Proof.Machine.execLdN8 f s
  | .ldN8Ext f => Sys2Proof.Machine.execLdN8Ext f s
  | .ldI16 f => Sys2Proof.Machine.execLdI16 f s
  | .ldI16Ext f => Sys2Proof.Machine.execLdI16Ext f s
  | .ldN16 f => Sys2Proof.Machine.execLdN16 f s
  | .ldN16Ext f => Sys2Proof.Machine.execLdN16Ext f s
  | .ldI32 f => Sys2Proof.Machine.execLdI32 f s
  | .ldI32Ext f => Sys2Proof.Machine.execLdI32Ext f s
  | .ldN32 f => Sys2Proof.Machine.execLdN32 f s
  | .ldN32Ext f => Sys2Proof.Machine.execLdN32Ext f s
  | .ld64 f => Sys2Proof.Machine.execLd64 f s
  | .ld64Ext f => Sys2Proof.Machine.execLd64Ext f s
  | .ldc f => Sys2Proof.Machine.execLdc f s
  | .ldcExt f => Sys2Proof.Machine.execLdcExt f s
  | .lda32 f => Sys2Proof.Machine.execLda32 f s
  | .lda32Ext f => Sys2Proof.Machine.execLda32Ext f s
  | .lda64 f => Sys2Proof.Machine.execLda64 f s
  | .lda64Ext f => Sys2Proof.Machine.execLda64Ext f s
  | .st8 f => Sys2Proof.Machine.execSt8 f s
  | .st8Ext f => Sys2Proof.Machine.execSt8Ext f s
  | .st16 f => Sys2Proof.Machine.execSt16 f s
  | .st16Ext f => Sys2Proof.Machine.execSt16Ext f s
  | .st32 f => Sys2Proof.Machine.execSt32 f s
  | .st32Ext f => Sys2Proof.Machine.execSt32Ext f s
  | .st64 f => Sys2Proof.Machine.execSt64 f s
  | .st64Ext f => Sys2Proof.Machine.execSt64Ext f s
  | .stc f => Sys2Proof.Machine.execStc f s
  | .stcExt f => Sys2Proof.Machine.execStcExt f s
  | .stl32 f => Sys2Proof.Machine.execStl32 f s
  | .stl32Ext f => Sys2Proof.Machine.execStl32Ext f s
  | .stl64 f => Sys2Proof.Machine.execStl64 f s
  | .stl64Ext f => Sys2Proof.Machine.execStl64Ext f s
  | .ldf f => Sys2Proof.Machine.execLdf f s
  | .ldfExt f => Sys2Proof.Machine.execLdfExt f s
  | .ldfk f => Sys2Proof.Machine.execLdfk f s
  | .ldfkExt f => Sys2Proof.Machine.execLdfkExt f s
  | .ste f => Sys2Proof.Machine.execSte f s
  | .steExt f => Sys2Proof.Machine.execSteExt f s
  | .stfx f => Sys2Proof.Machine.execStfx f s
  | .stfxExt f => Sys2Proof.Machine.execStfxExt f s
  | .feq f => Sys2Proof.Machine.execFeq f s
  | .feqExt f => Sys2Proof.Machine.execFeqExt f s
  | .sload f => Sys2Proof.Machine.execSload f s
  | .sloadExt f => Sys2Proof.Machine.execSloadExt f s
  | .sldG f => Sys2Proof.Machine.execSldG f s
  | .sldGExt f => Sys2Proof.Machine.execSldGExt f s
  | .sldV f => Sys2Proof.Machine.execSldV f s
  | .sldVExt f => Sys2Proof.Machine.execSldVExt f s
  | .sstG f => Sys2Proof.Machine.execSstG f s
  | .sstGExt f => Sys2Proof.Machine.execSstGExt f s
  | .sstV f => Sys2Proof.Machine.execSstV f s
  | .sstVExt f => Sys2Proof.Machine.execSstVExt f s
  | .stash f => Sys2Proof.Machine.execStash f s
  | .stashExt f => Sys2Proof.Machine.execStashExt f s
  | .unstash f => Sys2Proof.Machine.execUnstash f s
  | .unstashExt f => Sys2Proof.Machine.execUnstashExt f s
  | .stashwb f => Sys2Proof.Machine.execStashwb f s
  | .stashwbExt f => Sys2Proof.Machine.execStashwbExt f s
  | .pref f => Sys2Proof.Machine.execPref f s
  | .prefExt f => Sys2Proof.Machine.execPrefExt f s
  | .clzero f => Sys2Proof.Machine.execClzero f s
  | .clzeroExt f => Sys2Proof.Machine.execClzeroExt f s
  | .clwb f => Sys2Proof.Machine.execClwb f s
  | .clwbExt f => Sys2Proof.Machine.execClwbExt f s
  | .clinv f => Sys2Proof.Machine.execClinv f s
  | .clinvExt f => Sys2Proof.Machine.execClinvExt f s
  | .amo f => Sys2Proof.Machine.execAmo f s
  | .amocas f => Sys2Proof.Machine.execAmocas f s
  | .amon f => Sys2Proof.Machine.execAmon f s
  | .amof f => Sys2Proof.Machine.execAmof f s
  | .amoq f => Sys2Proof.Machine.execAmoq f s
  | .fence f => Sys2Proof.Machine.execFence f s
  | .fencex f => Sys2Proof.Machine.execFencex f s
  | .binit f => Sys2Proof.Machine.execBinit f s
  | .binitExt f => Sys2Proof.Machine.execBinitExt f s
  | .barr f => Sys2Proof.Machine.execBarr f s
  | .barrExt f => Sys2Proof.Machine.execBarrExt f s
  | .barrx f => Sys2Proof.Machine.execBarrx f s
  | .barrxExt f => Sys2Proof.Machine.execBarrxExt f s
  | .bwait f => Sys2Proof.Machine.execBwait f s
  | .bwaitExt f => Sys2Proof.Machine.execBwaitExt f s
  | .btest f => Sys2Proof.Machine.execBtest f s
  | .btestExt f => Sys2Proof.Machine.execBtestExt f s
  | .bbytes f => Sys2Proof.Machine.execBbytes f s
  | .bbytesExt f => Sys2Proof.Machine.execBbytesExt f s
  | .xcopy f => Sys2Proof.Machine.execXcopy f s
  | .xcopyt f => Sys2Proof.Machine.execXcopyt f s
  | .xwait f => Sys2Proof.Machine.execXwait f s
  | .xwaitExt f => Sys2Proof.Machine.execXwaitExt f s
  | .xstat f => Sys2Proof.Machine.execXstat f s
  | .xstatExt f => Sys2Proof.Machine.execXstatExt f s
  | .xcancel f => Sys2Proof.Machine.execXcancel f s
  | .xcancelExt f => Sys2Proof.Machine.execXcancelExt f s
  | .xgath f => Sys2Proof.Machine.execXgath f s
  | .stbm f => Sys2Proof.Machine.execStbm f s
  | .ldbm f => Sys2Proof.Machine.execLdbm f s
  | .handover f => Sys2Proof.Machine.execHandover f s
  | .handoverExt f => Sys2Proof.Machine.execHandoverExt f s
  | .ownq f => Sys2Proof.Machine.execOwnq f s
  | .ownqExt f => Sys2Proof.Machine.execOwnqExt f s
  | .vadd f => Sys2Proof.Machine.execVadd f s
  | .vsub f => Sys2Proof.Machine.execVsub f s
  | .vmul f => Sys2Proof.Machine.execVmul f s
  | .vfma f => Sys2Proof.Machine.execVfma f s
  | .vfms f => Sys2Proof.Machine.execVfms f s
  | .vfnma f => Sys2Proof.Machine.execVfnma f s
  | .vdiv f => Sys2Proof.Machine.execVdiv f s
  | .vsqrt f => Sys2Proof.Machine.execVsqrt f s
  | .vmin f => Sys2Proof.Machine.execVmin f s
  | .vmax f => Sys2Proof.Machine.execVmax f s
  | .vabs f => Sys2Proof.Machine.execVabs f s
  | .vneg f => Sys2Proof.Machine.execVneg f s
  | .vrcp f => Sys2Proof.Machine.execVrcp f s
  | .vrsq f => Sys2Proof.Machine.execVrsq f s
  | .vexp2 f => Sys2Proof.Machine.execVexp2 f s
  | .vlog2 f => Sys2Proof.Machine.execVlog2 f s
  | .vsigm f => Sys2Proof.Machine.execVsigm f s
  | .vtanh f => Sys2Proof.Machine.execVtanh f s
  | .viadd f => Sys2Proof.Machine.execViadd f s
  | .visub f => Sys2Proof.Machine.execVisub f s
  | .vimul f => Sys2Proof.Machine.execVimul f s
  | .vimin f => Sys2Proof.Machine.execVimin f s
  | .vimax f => Sys2Proof.Machine.execVimax f s
  | .vand f => Sys2Proof.Machine.execVand f s
  | .vor f => Sys2Proof.Machine.execVor f s
  | .vxor f => Sys2Proof.Machine.execVxor f s
  | .vshl f => Sys2Proof.Machine.execVshl f s
  | .vshr f => Sys2Proof.Machine.execVshr f s
  | .vshra f => Sys2Proof.Machine.execVshra f s
  | .vcmp f => Sys2Proof.Machine.execVcmp f s
  | .vfcmp f => Sys2Proof.Machine.execVfcmp f s
  | .vsel f => Sys2Proof.Machine.execVsel f s
  | .vcvt f => Sys2Proof.Machine.execVcvt f s
  | .vrncvt f => Sys2Proof.Machine.execVrncvt f s
  | .vrnadd f => Sys2Proof.Machine.execVrnadd f s
  | .vrnmul f => Sys2Proof.Machine.execVrnmul f s
  | .vred f => Sys2Proof.Machine.execVred f s
  | .vscan f => Sys2Proof.Machine.execVscan f s
  | .vsegsum f => Sys2Proof.Machine.execVsegsum f s
  | .vsegscan f => Sys2Proof.Machine.execVsegscan f s
  | .vperm f => Sys2Proof.Machine.execVperm f s
  | .vbcast f => Sys2Proof.Machine.execVbcast f s
  | .vslide f => Sys2Proof.Machine.execVslide f s
  | .vcomp f => Sys2Proof.Machine.execVcomp f s
  | .vexpd f => Sys2Proof.Machine.execVexpd f s
  | .vsort f => Sys2Proof.Machine.execVsort f s
  | .viota f => Sys2Proof.Machine.execViota f s
  | .vpopc f => Sys2Proof.Machine.execVpopc f s
  | .vmovg f => Sys2Proof.Machine.execVmovg f s
  | .vmovv f => Sys2Proof.Machine.execVmovv f s
  | .vld f => Sys2Proof.Machine.execVld f s
  | .vst f => Sys2Proof.Machine.execVst f s
  | .vldx f => Sys2Proof.Machine.execVldx f s
  | .vstx f => Sys2Proof.Machine.execVstx f s
  | .vlds f => Sys2Proof.Machine.execVlds f s
  | .vsts f => Sys2Proof.Machine.execVsts f s
  | .mma f => Sys2Proof.Machine.execMma f s
  | .mmas f => Sys2Proof.Machine.execMmas f s
  | .mmar f => Sys2Proof.Machine.execMmar f s
  | .mzero f => Sys2Proof.Machine.execMzero f s
  | .mrd f => Sys2Proof.Machine.execMrd f s
  | .mwr f => Sys2Proof.Machine.execMwr f s
  | .mrqt f => Sys2Proof.Machine.execMrqt f s
  | .mwait f => Sys2Proof.Machine.execMwait f s
  | .mwaitExt f => Sys2Proof.Machine.execMwaitExt f s
  | .mqstat f => Sys2Proof.Machine.execMqstat f s
  | .mqstatExt f => Sys2Proof.Machine.execMqstatExt f s
  | .send f => Sys2Proof.Machine.execSend f s
  | .sendv f => Sys2Proof.Machine.execSendv f s
  | .pcount f => Sys2Proof.Machine.execPcount f s
  | .pcountExt f => Sys2Proof.Machine.execPcountExt f s
  | .launch f => Sys2Proof.Machine.execLaunch f s
  | .spawn f => Sys2Proof.Machine.execSpawn f s
  | .joinc f => Sys2Proof.Machine.execJoinc f s
  | .evset f => Sys2Proof.Machine.execEvset f s
  | .evclr f => Sys2Proof.Machine.execEvclr f s
  | .evtest f => Sys2Proof.Machine.execEvtest f s
  | .evtestExt f => Sys2Proof.Machine.execEvtestExt f s
  | .jtload f => Sys2Proof.Machine.execJtload f s
  | .jtchk f => Sys2Proof.Machine.execJtchk f s
  | .jkey f => Sys2Proof.Machine.execJkey f s
  | .jseg f => Sys2Proof.Machine.execJseg f s
  | .jheavy f => Sys2Proof.Machine.execJheavy f s
  | .jup f => Sys2Proof.Machine.execJup f s
  | .jdown f => Sys2Proof.Machine.execJdown f s
  | .jinter f => Sys2Proof.Machine.execJinter f s
  | .jdelta f => Sys2Proof.Machine.execJdelta f s
  | .rcall f => Sys2Proof.Machine.execRcall f s
  | .rcalln f => Sys2Proof.Machine.execRcalln f s
  | .rreply f => Sys2Proof.Machine.execRreply f s
  | .rfwd f => Sys2Proof.Machine.execRfwd f s
  | .rfence f => Sys2Proof.Machine.execRfence f s
  | .rfenceExt f => Sys2Proof.Machine.execRfenceExt f s
  | .rcstat f => Sys2Proof.Machine.execRcstat f s
  | .rcstatExt f => Sys2Proof.Machine.execRcstatExt f s
  | .nmcfg f => Sys2Proof.Machine.execNmcfg f s
  | .nmrun f => Sys2Proof.Machine.execNmrun f s
  | .nmwait f => Sys2Proof.Machine.execNmwait f s
  | .nmwaitExt f => Sys2Proof.Machine.execNmwaitExt f s
  | .mbpost f => Sys2Proof.Machine.execMbpost f s
  | .mbwait f => Sys2Proof.Machine.execMbwait f s
  | .mbwaitExt f => Sys2Proof.Machine.execMbwaitExt f s
  | .rlbegin f => Sys2Proof.Machine.execRlbegin f s
  | .rsv f => Sys2Proof.Machine.execRsv f s
  | .rchk f => Sys2Proof.Machine.execRchk f s
  | .rlfail f => Sys2Proof.Machine.execRlfail f s
  | .rlend f => Sys2Proof.Machine.execRlend f s
  | .rlendExt f => Sys2Proof.Machine.execRlendExt f s
  | .rlstat f => Sys2Proof.Machine.execRlstat f s
  | .rlstatExt f => Sys2Proof.Machine.execRlstatExt f s
  | .illegalEncoding check word => Sys2Proof.Machine.execIllegalEncoding check word s
  | .openSession h r => Sys2Proof.Machine.execOpenSession h r s
  | .close h => Sys2Proof.Machine.execClose h s
  | .keepalive h => Sys2Proof.Machine.execKeepalive h s
  | .ctxcreate h r => Sys2Proof.Machine.execCtxcreate h r s
  | .ctxset h r => Sys2Proof.Machine.execCtxset h r s
  | .kill h => Sys2Proof.Machine.execKill h s
  | .killComplete ctx => Sys2Proof.Machine.execKillComplete ctx s
  | .mapwrite h r => Sys2Proof.Machine.execMapwrite h r s
  | .windowset h r => Sys2Proof.Machine.execWindowset h r s
  | .amoqset h r => Sys2Proof.Machine.execAmoqset h r s
  | .epochreset h => Sys2Proof.Machine.execEpochreset h s
  | .event h setMask clearMask => Sys2Proof.Machine.execEvent h setMask clearMask s
  | .capwrite h pairs => Sys2Proof.Machine.execCapwrite h pairs s
  | .launchCommand h packet => Sys2Proof.Machine.execLaunchCommand h packet s
  | .preempt h evict band => Sys2Proof.Machine.execPreempt h evict band s
  | .resume h band => Sys2Proof.Machine.execResume h band s
  | .power h target => Sys2Proof.Machine.execPower h target s
  | .capread h => Sys2Proof.Machine.execCapread h s
  | .crash h => Sys2Proof.Machine.execCrash h s
  | .warmreset h flush => Sys2Proof.Machine.execWarmreset h flush s
  | .warmResetComplete => Sys2Proof.Machine.execWarmResetComplete s
  | .alerts h clear => Sys2Proof.Machine.execAlerts h clear s
  | .attest h nonce => Sys2Proof.Machine.execAttest h nonce s
  | .firmware h f => Sys2Proof.Machine.execFirmware h f s
  | .fabricmap h r => Sys2Proof.Machine.execFabricmap h r s
  | .minclear h => Sys2Proof.Machine.execMinclear h s
  | .hostUetWrite ctx address data => Sys2Proof.Machine.execHostUetWrite ctx address data s
  | .hostUetRead ctx address count => Sys2Proof.Machine.execHostUetRead ctx address count s
  | .stall ctx => Sys2Proof.Machine.execStall ctx s
  | .heartbeat => Sys2Proof.Machine.execHeartbeat s
  | .trip sensor value => Sys2Proof.Machine.execTrip sensor value s
  | .criticalTrip die value => Sys2Proof.Machine.execCriticalTrip die value s
  | .powerStateReached target => Sys2Proof.Machine.execPowerStateReached target s
  | .devfault kind number => Sys2Proof.Machine.execDevfault kind number s
  | .lostReplyFill kind number => Sys2Proof.Machine.execLostReplyFill kind number s
  | .sessionLost => Sys2Proof.Machine.execSessionLost s
  | .orphanContextKill => Sys2Proof.Machine.execOrphanContextKill s
  | .coldBoot => Sys2Proof.Machine.execColdBoot s
  | .bootTimeout => Sys2Proof.Machine.execBootTimeout s
  | .linkStateChange port up => Sys2Proof.Machine.execLinkStateChange port up s
  | .uncorrectableError place address => Sys2Proof.Machine.execUncorrectableError place address s
  | .activationAlert stack entry => Sys2Proof.Machine.execActivationAlert stack entry s
  | .throttleExpiry index => Sys2Proof.Machine.execThrottleExpiry index s
  | .refreshDue channel bank held => Sys2Proof.Machine.execRefreshDue channel bank held s
  | .refreshPostponeLimit channel bank => Sys2Proof.Machine.execRefreshPostponeLimit channel bank s
  | .watchdogWait f => Sys2Proof.Machine.execWatchdogWait f s
  | .watchdogRun f => Sys2Proof.Machine.execWatchdogRun f s
  | .park f => Sys2Proof.Machine.execPark f s
  | .handlerRunLimit p => Sys2Proof.Machine.execHandlerRunLimit p s
  | .handlerWaitLimit p => Sys2Proof.Machine.execHandlerWaitLimit p s
  | .remoteLoadTimeout f => Sys2Proof.Machine.execRemoteLoadTimeout f s
  | .remoteWriteAck f id ok => Sys2Proof.Machine.execRemoteWriteAck f id ok s
  | .callTimeout f serial => Sys2Proof.Machine.execCallTimeout f serial s
  | .rudiReissue f serial => Sys2Proof.Machine.execRudiReissue f serial s
  | .callArrival index => Sys2Proof.Machine.execCallArrival index s
  | .handlerStart p => Sys2Proof.Machine.execHandlerStart p s
  | .replyArrival index => Sys2Proof.Machine.execReplyArrival index s
  | .rcallnCompletion index => Sys2Proof.Machine.execRcallnCompletion index s
  | .spillDuty p => Sys2Proof.Machine.execSpillDuty p s
  | .loopbackRefill p => Sys2Proof.Machine.execLoopbackRefill p s
  | .copyPacket core channel id packet => Sys2Proof.Machine.execCopyPacket core channel id packet s
  | .copyPacketTimeout core channel id packet => Sys2Proof.Machine.execCopyPacketTimeout core channel id packet s
  | .landingHandler p => Sys2Proof.Machine.execLandingHandler p s
  | .matrixGrant die cluster => Sys2Proof.Machine.execMatrixGrant die cluster s
  | .pipelineStop core => Sys2Proof.Machine.execPipelineStop core s
  | .elementArrival index => Sys2Proof.Machine.execElementArrival index s
  | .firingStart band gang inst thread => Sys2Proof.Machine.execFiringStart band gang inst thread s
  | .parkedRestore f thread => Sys2Proof.Machine.execParkedRestore f thread s
  | .poolDispatch => Sys2Proof.Machine.execPoolDispatch s
  | .bandDispatch band => Sys2Proof.Machine.execBandDispatch band s
  | .bandDrain band => Sys2Proof.Machine.execBandDrain band s
  | .bandExit band => Sys2Proof.Machine.execBandExit band s
  | .bandSaved band => Sys2Proof.Machine.execBandSaved band s
  | .loopDispatch loop => Sys2Proof.Machine.execLoopDispatch loop s
  | .windowStart loop => Sys2Proof.Machine.execWindowStart loop s
  | .rsvPerform index => Sys2Proof.Machine.execRsvPerform index s
  | .roundBarrier loop => Sys2Proof.Machine.execRoundBarrier loop s
  | .round2End loop => Sys2Proof.Machine.execRound2End loop s
  | .amoqArrival index => Sys2Proof.Machine.execAmoqArrival index s
  | .directoryRecall line invalidate => Sys2Proof.Machine.execDirectoryRecall line invalidate s
  | .dirtyLineEviction line => Sys2Proof.Machine.execDirtyLineEviction line s
  | .writeVisibility id => Sys2Proof.Machine.execWriteVisibility id s
  | .pageMigration ctx address die => Sys2Proof.Machine.execPageMigration ctx address die s
  | .leafChangeRelease index => Sys2Proof.Machine.execLeafChangeRelease index s
  | .transportError f serial => Sys2Proof.Machine.execTransportError f serial s
  | .remoteAccessArrival r => Sys2Proof.Machine.execRemoteAccessArrival r s
  | .correctedSoftError place address => Sys2Proof.Machine.execCorrectedSoftError place address s

end Sys2Proof.Machine
end

