-- ==== Sys2Proof/Machine/Step.lean ====
section
/-!
DEFINITION. Machine/Step.lean: one step of the machine.  State.turns says which agent moves; when it names none, the
current thread issues; when that thread cannot, only CYCLE advances (notes/assumptions/1.md).
-/

namespace Sys2Proof.Machine

/-- CYCLE advances by an amount the spec leaves open (01 R33; notes/assumptions/5.md). -/
def tickCycle (s : State) : State :=
  { s with free := s.free + 1, dev := { s.dev with cycle := s.dev.cycle + Config.cycleStep s.free } }

/-- A step's outcome with CYCLE advanced. -/
def ticked (o : Out) : Out :=
  match o with
  | .next s => .next (tickCycle s)
  | .fault f => .fault f
  | .refused r => .refused r

/-- The current thread fetches, decodes and executes one instruction.  DESIGN CHOICE: notes/assumptions/1.md. -/
noncomputable def issue (s : State) : Out :=
  if mayIssue s s.cur then
    let t := landResults s
    if mayIssue t t.cur then
      match fetchInstr t with
      | .ok (i, u) => exec i (hearReplies i u)
      | .error o => o
    else .next t
  else .next s

/-- One step.  DESIGN CHOICE: notes/assumptions/1.md. -/
noncomputable def step (s : State) : Host.Outcome State Fault Refusal :=
  match s.turns with
  | [] => ticked (issue { s with late := [] })
  | .event e late :: rest => ticked (exec e { s with turns := rest, late := late })
  | .issue p late :: rest =>
    match selectThread p { s with turns := rest, late := late } with
    | some t => ticked (issue t)
    | none => ticked (.next { s with turns := rest })
  | .shows id viewer :: rest => ticked (.next (showWrite id viewer { s with turns := rest }))

/-- `s` with an instruction, given by its table bits, placed where the next step fetches it (notes/assumptions/1.md). -/
def State.withFetchWord (s : State) (nbits w : Nat) : State := withTableWord s nbits w

end Sys2Proof.Machine
end

