-- ==== Sys2Proof/Safety.lean ====
section
/-!
DEFINITION. Safety.lean: what a safe step is, and the words that statements use for the conditions under which an
instruction has its effect and for that effect on the issuing thread.
-/

namespace Sys2Proof

open Machine

/-- A step that neither faults nor is refused. -/
def Advances (s : State) : Prop := ∃ t, step s = .next t

/-- Memory is in its canonical form. -/
def MemoryCanonical (s : State) : Prop := s.mem.wf = true

/-! ## When an instruction has its effect -/

/-- No item among those of a saved image came back poisoned (13 R362): p registers, stream slots, special registers. -/
def Sound (items : List Nat) (s : State) : Prop := holdsBad items s.cur = false

/-- What precedes every effect lets the form pass: the refusals of a handler (11 R316, R317), check 10 (02 R72), the register
allotment (01 R47), and a governing predicate and draws that did not come back poisoned (13 R362). -/
def FormAdmitted (op : BitVec 6) (fn : BitVec 4) (f : Ext) (s : State) : Prop :=
  (inHandler s.cur = true → executedOf s.cur < 4096 ∧ handlerPermits op.toNat fn.toNat = true) ∧
  unitMissing s.cur op.toNat fn.toNat = false ∧
  (formFor op fn f.len).bind (fun r => outside s r f) = none ∧
  Sound (predItems f.pred.toNat) s ∧ (f.rm = 5#3 → Sound [badSto] s)

/-- The governing predicate lets the instruction run (01 R29); a form whose predicate governs elements always runs. -/
def FormEnabled (op : BitVec 6) (fn : BitVec 4) (f : Ext) (s : State) : Prop :=
  (elementwise op.toNat fn.toNat || (governing s.cur f).getLsbD 0) = true

/-- An instruction passes the common checks and its predicate; commands and events have none. -/
def Runs (i : Instr) (s : State) : Prop :=
  match i.fields with
  | some (op, fn, f) => FormAdmitted op fn f s ∧ FormEnabled op fn f s
  | none => True

/-- The state in which an instruction that has passed the common checks acts: it counts toward a handler's limit and waits
no longer. -/
def begun (s : State) : State := { s with cur := beginInstr s.cur }

/-- The pc moves past the instruction's words. -/
def past (f : Ext) (s : State) : State := { s with cur := { s.cur with pc := nextPc s.cur f } }

/-! ## Registers -/

/-- A g register as the machine reads it: g0 is zero, untagged and full (01 R21). -/
def regOf (s : State) (n : BitVec 6) : GReg := gRead s.cur n

/-- A read of a g register gives its value (01 R23, 07 R230). -/
def Readable (s : State) (n : BitVec 6) (tb : Bool) : Prop :=
  (regOf s n).st = .full ∧ ((regOf s n).mark = .clear ∨ tb = false)

/-- The value and tag that a g register holds. -/
def regCap (s : State) (n : BitVec 6) : TCap := ⟨(regOf s n).val, (regOf s n).tag⟩

/-- The 64 data bits of a g register (01 R20). -/
def regData (s : State) (n : BitVec 6) : DWord := capCursor (regOf s n).val

/-- A write to a g register need not wait for a producer (01 R24). -/
def Writable (s : State) (n : BitVec 6) : Prop := n = 0#6 ∨ (gAt s.cur n).st ≠ .pending

/-- The state with a g register written; a write to g0 is discarded (01 R21). -/
def setReg (n : BitVec 6) (x : TCap) (s : State) : State :=
  if n = 0#6 then s else { s with cur := { s.cur with g := s.cur.g.set n.toNat ⟨x.val, x.tag, .full, .clear, []⟩ } }

/-- The state with a data result written: bits [127:64] zero, tag clear (01 R20). -/
def setData (n : BitVec 6) (x : DWord) (s : State) : State := setReg n ⟨dataVal x, false⟩ s

/-- The B operand is at hand: the literal, or a readable register (02 R54). -/
def BReadable (s : State) (f : Ext) : Prop := f.hasLit = true ∨ Readable s f.b f.tb

/-- The B operand's data. -/
def bData (s : State) (f : Ext) : DWord := if f.hasLit then f.lit else regData s f.b

/-- The B operand with its tag; a literal has none. -/
def bCap (s : State) (f : Ext) : TCap := if f.hasLit then ⟨dataVal f.lit, false⟩ else regCap s f.b

/-- A predicate register as read; p0 is all ones (01 R28). -/
def predOf (s : State) (n : BitVec 6) : Word := pRead s.cur n.toNat

/-- A read of a predicate register gives its value: it did not come back poisoned (13 R362). -/
def PReadable (s : State) (n : BitVec 6) : Prop := Sound (predItems n.toNat) s

/-- A read of a stream slot gives its contents, and those of the slots that index it (13 R362). -/
def SlotReadable (s : State) (n : Nat) : Prop := Sound ((slotChain s.cur 8 n).map badSlot) s

/-- The state with a predicate register written, which is good again (13 R362); a write to p0 is discarded (01 R28). -/
def setPred (n : BitVec 6) (x : Word) (s : State) : State :=
  if n = 0#6 then s
  else { s with cur := { s.cur with p := s.cur.p.setIfInBounds n.toNat x, bad := setDrop s.cur.bad (badP n.toNat) } }

/-! ## Flags, draws and traps -/

/-- The state with flags set by OR (01 R48). -/
def setFlags (fs : Flags) (s : State) : State := { s with cur := { s.cur with fstat := s.cur.fstat ||| fs.setWidth 64 } }

/-- The draws that a form with rounding code `rm` takes, and the state of the generator after them (03 R96). -/
def drawsOf (rm : BitVec 3) (n : Nat) (s : State) : List Nat × DWord :=
  if rm = 5#3 then drawList s.cur.sto n else (List.replicate n 0, s.cur.sto)

/-- The state after n draws. -/
def afterDraws (rm : BitVec 3) (n : Nat) (s : State) : State :=
  { s with cur := { s.cur with sto := (drawsOf rm n s).2 } }

/-- The one draw of a scalar form. -/
def drawOf (rm : BitVec 3) (s : State) : Nat := (drawsOf rm 1 s).1.getD 0 0

/-- The state after a trap of the issuing thread: what the instruction waited for is withdrawn, and nothing else of it
stays (00 R14, 13 R343). -/
def afterTrap (cause : Nat) (info : DWord) (s : State) : State := takeTrap cause info (dropWaits (agentId s.cur) s)

/-! ## Accesses to memory -/

/-- Every earlier write of the thread is performed at a scope (08 R258). -/
def performed (scope : Nat) (s : State) : State :=
  { s with mem := s.mem.performAt (eyeOf s.cur) scope (fun w => w.issuer == agentId s.cur) }

/-- The thread's earlier releases are performed, as an acquire at a scope begins (08 R258). -/
def released (scope : Nat) (s : State) : State := { s with mem := s.mem.releasesFirst (eyeOf s.cur) scope }

/-- The checks of Deref pass (01 R41). -/
def DerefPasses (c : TCap) (addr size : Nat) (perms : List Nat) : Prop :=
  c.tag = true ∧ capType c.val = 0 ∧ (capBounds c.val).1 ≤ addr ∧ addr + size ≤ (capBounds c.val).2 ∧
    ∀ p ∈ perms, capHas c.val p = true

/-- An access of the issuing thread, its capability checked, passes translation and the checks after it, and reaches a place:
the state then is `t` (05 R141, R150, R164, R168, R169, 11 R317, 12 R332, 13 R358).  `checked` accesses fall under the
writer rule; `fmtw` is the capability's FMTW bit. -/
def Reaches (s : State) (addr size : Nat) (kind : Kind) (checked fmtw : Bool) (p : Place) (t : State) : Prop :=
  ∃ a, curAgent s = .ok (a, s) ∧ reach a addr size kind checked fmtw s = .ok (p, t)

/-- The bytes of `m'` are those of `m` but for `bs` at `k`: the written bytes read back, to the eye that wrote them too, and every
other byte, every tag of an untouched granule and every full/empty bit is as before. -/
def WritesBytes (e : Eye) (k : Nat) (bs : List Byte) (tag : Bool) (m m' : Memory) : Prop :=
  (∀ j, j < bs.length → cellGet m'.cells (k + j) = bs.getD j 0#8 ∧ m'.seen e (k + j) = bs.getD j 0#8) ∧
  (∀ a, a < k ∨ k + bs.length ≤ a → cellGet m'.cells a = cellGet m.cells a ∧ m'.seen e a = m.seen e a) ∧
  (∀ g, g < k / 16 ∨ (k + bs.length - 1) / 16 < g → (g ∈ m'.tags ↔ g ∈ m.tags)) ∧
  (∀ g, k / 16 ≤ g → g ≤ (k + bs.length - 1) / 16 → (g ∈ m'.tags ↔ tag = true ∧ g = k / 16)) ∧
  m'.full = m.full

/-- The bytes of `m'` are those of `m` but for `bs` at `k`, in the write order of their locations; the tags of the granules
they touch are clear and every other tag and every full/empty bit is as before. -/
def WritesCells (k : Nat) (bs : List Byte) (m m' : Memory) : Prop :=
  (∀ j, j < bs.length → cellGet m'.cells (k + j) = bs.getD j 0#8) ∧
  (∀ a, a < k ∨ k + bs.length ≤ a → cellGet m'.cells a = cellGet m.cells a) ∧
  (∀ g, g ∈ m'.tags ↔ g ∈ m.tags ∧ (g < k / 16 ∨ (k + bs.length - 1) / 16 < g)) ∧ m'.full = m.full

/-- Two memories hold the same bytes, tags, poison and full/empty bits. -/
def SameBytes (m m' : Memory) : Prop := m.cells = m'.cells ∧ m.tags = m'.tags ∧ m.poison = m'.poison ∧ m.full = m'.full

/-- Memory as a write of n bytes at a key finds it: the view lines over them are recalled (08 R252). -/
def cleared (m : Memory) (k n : Nat) : Memory := if keyIsStore k then m else m.recallViews k n true

/-- No view line of a format window is held over the bytes: a store's bytes have no views (08 R252). -/
def NoViews (k : Nat) (m : Memory) : Prop := keyIsStore k = true ∨ m.views = []

end Sys2Proof
end

