-- ==== Sys2Proof/WellFormed.lean ====
section
/-!
DEFINITION. WellFormed.lean: the instructions that pass the checks 1 to 8 of 02 R72 on a core of a kind.
-/

namespace Sys2Proof

/-- The first check that an instruction's fields fail, on a core of the given kind; none when they pass, and for commands
and events, which carry no fields.  A row of more than one word has no LEN 00.  Fields of words that LEN does not call for must be zero, since no word holds them. -/
def Instr.failure (lupin : Bool) (i : Instr) : Option Nat :=
  match i.fields with
  | none => none
  | some (op, fn, f) =>
    match if i.isLong && f.len == 0#2 then none else formFor op fn f.len with
    | none => some 3
    | some r => if f.normal then r.firstFailure lupin f else some 6

/-- An instruction that a decoder can yield, on a core of the given kind. -/
def Instr.wf (lupin : Bool) (i : Instr) : Bool := (i.failure lupin).isNone

/-- An instruction that a decoder of a cluster core can yield. -/
def WellFormed (i : Instr) : Prop := i.wf false = true

end Sys2Proof
end

