-- ==== Sys2Proof/Certificates/Slice0/Obligations.lean ====
section
/-!
DEFINITION. Certificates/Slice0/Obligations.lean: the statements about the model, each citing the rules of spec/ it formalises.
-/

/-! ## Scalar integer instructions (04 R115 to R119) -/

namespace Sys2Proof

open Machine

/-- A form that reads A and B and writes a data result to D completes with the value `g`. -/
def TwoSource (i : Instr) (f : Ext) (g : DWord → DWord → DWord) : Prop :=
  ∀ s, Runs i s → Readable s f.a f.ta → BReadable s f → Writable s f.d →
    exec i s = .next (past f (setData f.d (g (regData s f.a) (bData s f)) (begun s)))

/-- A form that reads A and writes a data result to D completes with the value `g`. -/
def OneSource (i : Instr) (f : Ext) (g : DWord → DWord) : Prop :=
  ∀ s, Runs i s → Readable s f.a f.ta → Writable s f.d →
    exec i s = .next (past f (setData f.d (g (regData s f.a)) (begun s)))

/-- A compare completes: all ones in the predicate D when the condition holds, zero when it does not. -/
def Compares (i : Instr) (f : Ext) (cc : DWord → DWord → Bool) : Prop :=
  ∀ s, Runs i s → Readable s f.a f.ta → BReadable s f →
    exec i s = .next (past f (setPred f.d (if cc (regData s f.a) (bData s f) then 0xFFFFFFFF#32 else 0#32) (begun s)))

/-- A predicate operation completes with the value `g`; a source that came back poisoned traps with cause 0x12 (13 R362). -/
def TwoPredicates (i : Instr) (f : Ext) (g : Word → Word → Word) : Prop :=
  ∀ s, Runs i s →
    (PReadable s f.a → PReadable s f.b →
      exec i s = .next (past f (setPred f.d (g (predOf s f.a) (predOf s f.b)) (begun s)))) ∧
    (¬ (PReadable s f.a ∧ PReadable s f.b) → exec i s = .next (afterTrap 0x12 0#64 s))

def OnePredicate (i : Instr) (f : Ext) (g : Word → Word) : Prop :=
  ∀ s, Runs i s →
    (PReadable s f.a → exec i s = .next (past f (setPred f.d (g (predOf s f.a)) (begun s)))) ∧
    (¬ PReadable s f.a → exec i s = .next (afterTrap 0x12 0#64 s))

/-- Bits [127:64] of a product of two numbers (04 R115). -/
def productHigh (x y : Int) : DWord := BitVec.ofInt 64 (x * y / 2 ^ 64)

/-- The smaller and the larger of two, by an order. -/
def smaller (le : DWord → DWord → Bool) (a b : DWord) : DWord := if le a b then a else b
def larger (le : DWord → DWord → Bool) (a b : DWord) : DWord := if le a b then b else a

/-- I6 sign-extended (02 R52). -/
def immediate6 (f : Ext) : DWord := f.b.signExtend 64

/-- A width mod 64, with 0 meaning 64 (04 R117). -/
def widthOf (n : Nat) : Nat := if n % 64 = 0 then 64 else n % 64

end Sys2Proof

open Sys2Proof Sys2Proof.Machine

/-- 04 R115: ADD, SUB, MUL, MULH, MULHN and the logic forms, with a register or a literal, write Operation(a, b) mod 2^64 to
D and nothing else but the pc; a write to g0 is discarded (01 R21). -/
def Sys2Proof.IntegerArithmeticWritesOperationPart : Prop :=
  (∀ f, TwoSource (.add f) f.ext (fun a b => a + b)) ∧ (∀ f, TwoSource (.addExt f) f (fun a b => a + b)) ∧
  (∀ f, TwoSource (.sub f) f.ext (fun a b => a - b)) ∧ (∀ f, TwoSource (.subExt f) f (fun a b => a - b)) ∧
  (∀ f, TwoSource (.mul f) f.ext (fun a b => a * b)) ∧ (∀ f, TwoSource (.mulExt f) f (fun a b => a * b)) ∧
  (∀ f, TwoSource (.mulh f) f.ext (fun a b => productHigh a.toInt b.toInt)) ∧
  (∀ f, TwoSource (.mulhExt f) f (fun a b => productHigh a.toInt b.toInt)) ∧
  (∀ f, TwoSource (.mulhn f) f.ext (fun a b => productHigh a.toNat b.toNat)) ∧
  (∀ f, TwoSource (.mulhnExt f) f (fun a b => productHigh a.toNat b.toNat)) ∧
  (∀ f, TwoSource (.and f) f.ext (fun a b => a &&& b)) ∧ (∀ f, TwoSource (.andExt f) f (fun a b => a &&& b)) ∧
  (∀ f, TwoSource (.or f) f.ext (fun a b => a ||| b)) ∧ (∀ f, TwoSource (.orExt f) f (fun a b => a ||| b)) ∧
  (∀ f, TwoSource (.xor f) f.ext (fun a b => a ^^^ b)) ∧ (∀ f, TwoSource (.xorExt f) f (fun a b => a ^^^ b)) ∧
  (∀ f, TwoSource (.andn f) f.ext (fun a b => a &&& ~~~b)) ∧ (∀ f, TwoSource (.andnExt f) f (fun a b => a &&& ~~~b)) ∧
  (∀ f, OneSource (.addi f) f.ext (fun a => a + immediate6 f.ext)) ∧
  (∀ f, OneSource (.addiExt f) f (fun a => a + immediate6 f)) ∧
  (∀ f, TwoSource (.min f) f.ext (smaller BitVec.sle)) ∧ (∀ f, TwoSource (.minExt f) f (smaller BitVec.sle)) ∧
  (∀ f, TwoSource (.max f) f.ext (larger BitVec.sle)) ∧ (∀ f, TwoSource (.maxExt f) f (larger BitVec.sle)) ∧
  (∀ f, TwoSource (.minn f) f.ext (smaller BitVec.ule)) ∧ (∀ f, TwoSource (.minnExt f) f (smaller BitVec.ule)) ∧
  (∀ f, TwoSource (.maxn f) f.ext (larger BitVec.ule)) ∧ (∀ f, TwoSource (.maxnExt f) f (larger BitVec.ule))

/-- 04 R115: shifts and rotates take their count modulo 64, from a register, a literal or I6. -/
def Sys2Proof.ShiftsTakeTheCountModulo64Part : Prop :=
  (∀ f, TwoSource (.shl f) f.ext (fun a b => a <<< (b.toNat % 64))) ∧
  (∀ f, TwoSource (.shlExt f) f (fun a b => a <<< (b.toNat % 64))) ∧
  (∀ f, TwoSource (.shr f) f.ext (fun a b => a >>> (b.toNat % 64))) ∧
  (∀ f, TwoSource (.shrExt f) f (fun a b => a >>> (b.toNat % 64))) ∧
  (∀ f, TwoSource (.shra f) f.ext (fun a b => a.sshiftRight (b.toNat % 64))) ∧
  (∀ f, TwoSource (.shraExt f) f (fun a b => a.sshiftRight (b.toNat % 64))) ∧
  (∀ f, TwoSource (.rotl f) f.ext (fun a b => a <<< (b.toNat % 64) ||| a >>> (64 - b.toNat % 64))) ∧
  (∀ f, TwoSource (.rotlExt f) f (fun a b => a <<< (b.toNat % 64) ||| a >>> (64 - b.toNat % 64))) ∧
  (∀ f, TwoSource (.rotr f) f.ext (fun a b => a >>> (b.toNat % 64) ||| a <<< (64 - b.toNat % 64))) ∧
  (∀ f, TwoSource (.rotrExt f) f (fun a b => a >>> (b.toNat % 64) ||| a <<< (64 - b.toNat % 64))) ∧
  (∀ f, OneSource (.shlI6 f) f.ext (fun a => a <<< f.b.toNat)) ∧
  (∀ f, OneSource (.shlI6Ext f) f (fun a => a <<< f.b.toNat)) ∧
  (∀ f, OneSource (.shrI6 f) f.ext (fun a => a >>> f.b.toNat)) ∧
  (∀ f, OneSource (.shrI6Ext f) f (fun a => a >>> f.b.toNat)) ∧
  (∀ f, OneSource (.shraI6 f) f.ext (fun a => a.sshiftRight f.b.toNat)) ∧
  (∀ f, OneSource (.shraI6Ext f) f (fun a => a.sshiftRight f.b.toNat)) ∧
  (∀ f, OneSource (.rotlI6 f) f.ext (fun a => a <<< f.b.toNat ||| a >>> (64 - f.b.toNat))) ∧
  (∀ f, OneSource (.rotlI6Ext f) f (fun a => a <<< f.b.toNat ||| a >>> (64 - f.b.toNat))) ∧
  (∀ f, OneSource (.rotrI6 f) f.ext (fun a => a >>> f.b.toNat ||| a <<< (64 - f.b.toNat))) ∧
  (∀ f, OneSource (.rotrI6Ext f) f (fun a => a >>> f.b.toNat ||| a <<< (64 - f.b.toNat)))

namespace Sys2Proof

open Machine

/-- A division form: with a divisor that is not 0 it completes with the value `g`; with the divisor 0 it traps with cause
0x16 and writes nothing else (04 R116). -/
def Divides (i : Instr) (f : Ext) (g : DWord → DWord → DWord) : Prop :=
  ∀ s, Runs i s → Readable s f.a f.ta → BReadable s f → Writable s f.d →
    (bData s f ≠ 0#64 →
      exec i s = .next (past f (setData f.d (g (regData s f.a) (bData s f)) (begun s)))) ∧
    (bData s f = 0#64 → exec i s = .next (afterTrap 0x16 0#64 s))

end Sys2Proof

/-- 04 R115, R116: division rounds toward zero, the remainder has the sign of a, −2^63 by −1 gives −2^63 and remainder 0, and
a divisor of 0 traps with cause 0x16 and writes nothing. -/
def Sys2Proof.DivisionRoundsTowardZeroPart : Prop :=
  (∀ f, Divides (.div f) f.ext (fun a b => BitVec.ofInt 64 (a.toInt.tdiv b.toInt))) ∧
  (∀ f, Divides (.divExt f) f (fun a b => BitVec.ofInt 64 (a.toInt.tdiv b.toInt))) ∧
  (∀ f, Divides (.divn f) f.ext (fun a b => BitVec.ofNat 64 (a.toNat / b.toNat))) ∧
  (∀ f, Divides (.divnExt f) f (fun a b => BitVec.ofNat 64 (a.toNat / b.toNat))) ∧
  (∀ f, Divides (.rem f) f.ext (fun a b => BitVec.ofInt 64 (a.toInt - b.toInt * a.toInt.tdiv b.toInt))) ∧
  (∀ f, Divides (.remExt f) f (fun a b => BitVec.ofInt 64 (a.toInt - b.toInt * a.toInt.tdiv b.toInt))) ∧
  (∀ f, Divides (.remn f) f.ext (fun a b => BitVec.ofNat 64 (a.toNat - b.toNat * (a.toNat / b.toNat)))) ∧
  (∀ f, Divides (.remnExt f) f (fun a b => BitVec.ofNat 64 (a.toNat - b.toNat * (a.toNat / b.toNat))))

/-- 04 R115, R116: ADD, SUB, MUL, MULH, MULHN, the logic forms, minimum and maximum, shifts and rotates write their operation modulo 2^64; DIV, DIVN,
REM and REMN round toward zero and trap with cause 0x16 when b is 0; none changes anything else. -/
def Obligations.IntegerFormsWriteOperation : Prop :=
  Sys2Proof.IntegerArithmeticWritesOperationPart ∧ Sys2Proof.ShiftsTakeTheCountModulo64Part ∧ Sys2Proof.DivisionRoundsTowardZeroPart

namespace Sys2Proof

open Machine

/-- The number of zero bits of `a` before its first one bit, when `bit 0`, `bit 1`, … are its bits in the order of the count;
64 when it has none. -/
def CountsZeros (a : DWord) (bit : Nat → Bool) (n : Nat) : Prop :=
  n ≤ 64 ∧ (∀ j, j < n → bit j = false) ∧ (n < 64 → bit n = true) ∧ (a = 0#64 → n = 64)

/-- The bits w − 1 to 0 of a value, sign-extended to 64 bits. -/
def signField (a : DWord) (w : Nat) : DWord :=
  BitVec.ofInt 64 (if a.getLsbD (w - 1) then (a.toNat % 2 ^ w : Nat) - (2 ^ w : Nat) else (a.toNat % 2 ^ w : Nat))

/-- The one-source bit operations complete with some value that `good` describes. -/
def OneSourceGood (i : Instr) (f : Ext) (good : DWord → DWord → Prop) : Prop :=
  ∀ s, Runs i s → Readable s f.a f.ta → Writable s f.d →
    ∃ v, good (regData s f.a) v ∧ exec i s = .next (past f (setData f.d v (begun s)))

def ClzGood (a v : DWord) : Prop := CountsZeros a (fun j => a.getLsbD (63 - j)) v.toNat
def CtzGood (a v : DWord) : Prop := CountsZeros a (fun j => a.getLsbD j) v.toNat
def PopcGood (a v : DWord) : Prop := v.toNat = ((List.range 64).filter (fun j => a.getLsbD j)).length
def BrevGood (a v : DWord) : Prop := ∀ i, i < 64 → v.getLsbD i = a.getLsbD (63 - i)
def BswapGood (a v : DWord) : Prop := ∀ i, i < 8 → v.extractLsb' (8 * i) 8 = a.extractLsb' (8 * (7 - i)) 8

/-- Bit j of BFX and of BFI (04 R117). -/
def BfxGood (imm : Word) (a v : DWord) : Prop :=
  ∀ j, j < 64 → v.getLsbD j =
    (decide (j < widthOf (imm.extractLsb' 8 6).toNat) && a.getLsbD (j + (imm.extractLsb' 0 6).toNat))

def bfiBit (imm : Word) (a b : DWord) (j : Nat) : Bool :=
  if (imm.extractLsb' 0 6).toNat ≤ j ∧ j < (imm.extractLsb' 0 6).toNat + widthOf (imm.extractLsb' 8 6).toNat then
    a.getLsbD (j - (imm.extractLsb' 0 6).toNat)
  else b.getLsbD j

end Sys2Proof

/-- 04 R117: the bit counts, reversals, extensions and field operations of OP 0x03. -/
def Obligations.BitFieldFormsCompute : Prop :=
  (∀ f, OneSourceGood (.clz f) f.ext ClzGood) ∧ (∀ f, OneSourceGood (.clzExt f) f ClzGood) ∧
  (∀ f, OneSourceGood (.ctz f) f.ext CtzGood) ∧ (∀ f, OneSourceGood (.ctzExt f) f CtzGood) ∧
  (∀ f, OneSourceGood (.popc f) f.ext PopcGood) ∧ (∀ f, OneSourceGood (.popcExt f) f PopcGood) ∧
  (∀ f, OneSourceGood (.brev f) f.ext BrevGood) ∧ (∀ f, OneSourceGood (.brevExt f) f BrevGood) ∧
  (∀ f, OneSourceGood (.bswap f) f.ext BswapGood) ∧ (∀ f, OneSourceGood (.bswapExt f) f BswapGood) ∧
  (∀ f, OneSource (.sext f) f.ext (fun a => signField a (widthOf f.b.toNat))) ∧
  (∀ f, OneSource (.sextExt f) f (fun a => signField a (widthOf f.b.toNat))) ∧
  (∀ f, OneSource (.zext f) f.ext (fun a => BitVec.ofNat 64 (a.toNat % 2 ^ widthOf f.b.toNat))) ∧
  (∀ f, OneSource (.zextExt f) f (fun a => BitVec.ofNat 64 (a.toNat % 2 ^ widthOf f.b.toNat))) ∧
  (∀ f, OneSourceGood (.bfx f) f (BfxGood f.imm)) ∧
  (∀ f s, Runs (.bfi f) s → Readable s f.a f.ta → BReadable s f → Writable s f.d →
    ∃ v : DWord, (∀ j, j < 64 → v.getLsbD j = bfiBit f.imm (regData s f.a) (bData s f) j) ∧
      exec (.bfi f) s = .next (past f (setData f.d v (begun s))))

/-- 04 R117, R119: MOV and SEL copy all 128 bits and the tag, a literal chosen by SEL is untagged; LI writes I6
sign-extended or the 64-bit literal; PGET a predicate zero-extended. -/
def Sys2Proof.MovesCopyValueAndTagPart : Prop :=
  (∀ f s, Runs (.mov f) s → Readable s f.a f.ta → Writable s f.d →
    exec (.mov f) s = .next (past f.ext (setReg f.d (regCap s f.a) (begun s)))) ∧
  (∀ f s, Runs (.movExt f) s → Readable s f.a f.ta → Writable s f.d →
    exec (.movExt f) s = .next (past f (setReg f.d (regCap s f.a) (begun s)))) ∧
  (∀ f s, Runs (.sel f) s → Readable s f.a f.ta → BReadable s f → PReadable s f.c → Writable s f.d →
    exec (.sel f) s = .next (past f (setReg f.d
      (if (predOf s f.c).getLsbD 0 then regCap s f.a else bCap s f) (begun s)))) ∧
  (∀ f s, Runs (.li f) s → Writable s f.d →
    exec (.li f) s = .next (past f.ext (setData f.d (immediate6 f.ext) (begun s)))) ∧
  (∀ f s, Runs (.liExt f) s → Writable s f.d →
    exec (.liExt f) s = .next (past f (setData f.d (if f.hasLit then f.lit else immediate6 f) (begun s)))) ∧
  (∀ f s, Runs (.pget f) s → PReadable s f.a → Writable s f.d →
    exec (.pget f) s = .next (past f.ext (setData f.d ((predOf s f.a).setWidth 64) (begun s)))) ∧
  (∀ f s, Runs (.pgetExt f) s → PReadable s f.a → Writable s f.d →
    exec (.pgetExt f) s = .next (past f (setData f.d ((predOf s f.a).setWidth 64) (begun s))))

/-- 04 R118: a compare writes all ones to its predicate when the condition holds and zero when it does not; EQ and NE
compare bits, LT, LE, GT and GE signed values, LTN, LEN, GTN and GEN unsigned ones; a write to p0 is discarded. -/
def Obligations.ComparesWriteAPredicate : Prop :=
  (∀ f, Compares (.cmpEq f) f.ext (fun a b => decide (a = b))) ∧
  (∀ f, Compares (.cmpEqExt f) f (fun a b => decide (a = b))) ∧
  (∀ f, Compares (.cmpNe f) f.ext (fun a b => decide (a ≠ b))) ∧
  (∀ f, Compares (.cmpNeExt f) f (fun a b => decide (a ≠ b))) ∧
  (∀ f, Compares (.cmpLt f) f.ext (fun a b => decide (a.toInt < b.toInt))) ∧
  (∀ f, Compares (.cmpLtExt f) f (fun a b => decide (a.toInt < b.toInt))) ∧
  (∀ f, Compares (.cmpLe f) f.ext (fun a b => decide (a.toInt ≤ b.toInt))) ∧
  (∀ f, Compares (.cmpLeExt f) f (fun a b => decide (a.toInt ≤ b.toInt))) ∧
  (∀ f, Compares (.cmpGt f) f.ext (fun a b => decide (b.toInt < a.toInt))) ∧
  (∀ f, Compares (.cmpGtExt f) f (fun a b => decide (b.toInt < a.toInt))) ∧
  (∀ f, Compares (.cmpGe f) f.ext (fun a b => decide (b.toInt ≤ a.toInt))) ∧
  (∀ f, Compares (.cmpGeExt f) f (fun a b => decide (b.toInt ≤ a.toInt))) ∧
  (∀ f, Compares (.cmpLtn f) f.ext (fun a b => decide (a.toNat < b.toNat))) ∧
  (∀ f, Compares (.cmpLtnExt f) f (fun a b => decide (a.toNat < b.toNat))) ∧
  (∀ f, Compares (.cmpLen f) f.ext (fun a b => decide (a.toNat ≤ b.toNat))) ∧
  (∀ f, Compares (.cmpLenExt f) f (fun a b => decide (a.toNat ≤ b.toNat))) ∧
  (∀ f, Compares (.cmpGtn f) f.ext (fun a b => decide (b.toNat < a.toNat))) ∧
  (∀ f, Compares (.cmpGtnExt f) f (fun a b => decide (b.toNat < a.toNat))) ∧
  (∀ f, Compares (.cmpGen f) f.ext (fun a b => decide (b.toNat ≤ a.toNat))) ∧
  (∀ f, Compares (.cmpGenExt f) f (fun a b => decide (b.toNat ≤ a.toNat)))

/-- 04 R119: the predicate instructions act on all 32 bits and never wait; a write to p0 is discarded. A source that a restore
left poisoned traps with cause 0x12 (13 R362); TINFO is 0 there by the model's choice (notes/assumptions/32.md). -/
def Sys2Proof.PredicateFormsActOnAllBitsPart : Prop :=
  (∀ f, TwoPredicates (.pand f) f.ext (fun a b => a &&& b)) ∧ (∀ f, TwoPredicates (.pandExt f) f (fun a b => a &&& b)) ∧
  (∀ f, TwoPredicates (.por f) f.ext (fun a b => a ||| b)) ∧ (∀ f, TwoPredicates (.porExt f) f (fun a b => a ||| b)) ∧
  (∀ f, TwoPredicates (.pxor f) f.ext (fun a b => a ^^^ b)) ∧ (∀ f, TwoPredicates (.pxorExt f) f (fun a b => a ^^^ b)) ∧
  (∀ f, OnePredicate (.pnot f) f.ext (fun a => ~~~a)) ∧ (∀ f, OnePredicate (.pnotExt f) f (fun a => ~~~a)) ∧
  (∀ f, OnePredicate (.pmov f) f.ext (fun a => a)) ∧ (∀ f, OnePredicate (.pmovExt f) f (fun a => a)) ∧
  (∀ f s, Runs (.pset f) s → Readable s f.a f.ta →
    exec (.pset f) s = .next (past f.ext (setPred f.d ((regData s f.a).extractLsb' 0 32) (begun s)))) ∧
  (∀ f s, Runs (.psetExt f) s → exec (.psetExt f) s = .next (past f (setPred f.d f.imm (begun s))))

/-! ## Capabilities (01 R38 to R42, 04 R124 to R129) -/

namespace Sys2Proof

open Machine

/-- CADD and CSETA complete with the cursor `g`: still a capability when A is one and the cursor stays in the window, data
otherwise; a sealed capability traps with cause 0x07 (04 R124, R125). -/
def MovesCursor (i : Instr) (f : Ext) (g : DWord → DWord → DWord) : Prop :=
  ∀ s, Runs i s → Readable s f.a f.ta → BReadable s f → Writable s f.d →
    (((regCap s f.a).tag = false ∨ capType (regCap s f.a).val = 0) →
      exec i s = .next (past f (setReg f.d
        (let x := g (regData s f.a) (bData s f)
         if (regCap s f.a).tag = true ∧ capRepresentable (regCap s f.a).val x.toNat = true then
           ⟨(regCap s f.a).val.extractLsb' 64 64 ++ x, true⟩
         else ⟨dataVal x, false⟩) (begun s)))) ∧
    ((regCap s f.a).tag = true ∧ capType (regCap s f.a).val ≠ 0 →
      exec i s = .next (afterTrap 0x07 (regData s f.a) s))

/-- The exponent and rounded bounds of CBOUND fit A (04 R126). -/
def BoundsFit (a : QWord) (len : Nat) (e base top : Nat) : Prop :=
  e ≤ 46 ∧ capAddr a + len ≤ 2 ^ 64 ∧ (capBounds a).1 ≤ base ∧ top ≤ (capBounds a).2

/-- E = max(0, ⌈log2 b⌉ − 17), increased by one when the rounded length reaches 2^(E+18), and the bounds rounded outward to
multiples of 2^E (04 R126). -/
def CboundResult (base len e lo hi : Nat) : Prop :=
  ∃ e0, (2 ^ (e0 + 17) ≥ len) ∧ (0 < e0 → 2 ^ (e0 + 16) < len) ∧
    (e = e0 ∨ e = e0 + 1) ∧
    (e = e0 ↔ (base + len + 2 ^ e0 - 1) / 2 ^ e0 * 2 ^ e0 - base / 2 ^ e0 * 2 ^ e0 < 2 ^ (e0 + 18)) ∧
    lo = base / 2 ^ e * 2 ^ e ∧ hi = (base + len + 2 ^ e - 1) / 2 ^ e * 2 ^ e

/-- CBOUND, and CBOUNDX where the bounds are exact, completes with the new bounds encoded in BASEM and TOPM at E. -/
def NarrowsBounds (i : Instr) (f : Ext) (exact : Bool) : Prop :=
  ∀ s e lo hi, Runs i s → Readable s f.a f.ta → BReadable s f → Writable s f.d →
    (regCap s f.a).tag = true → capType (regCap s f.a).val = 0 →
    CboundResult (regData s f.a).toNat (bData s f).toNat e lo hi →
    (BoundsFit (regCap s f.a).val (bData s f).toNat e lo hi →
      (exact = true → lo = (regData s f.a).toNat ∧ hi = (regData s f.a).toNat + (bData s f).toNat) →
      exec i s = .next (past f (setReg f.d
        ⟨(regCap s f.a).val.extractLsb' 108 20 ++ BitVec.ofNat 6 e ++ BitVec.ofNat 18 (lo / 2 ^ e) ++
          BitVec.ofNat 18 (hi / 2 ^ e) ++ 0#2 ++ regData s f.a, true⟩ (begun s)))) ∧
    (¬ (BoundsFit (regCap s f.a).val (bData s f).toNat e lo hi ∧
        (exact = true → lo = (regData s f.a).toNat ∧ hi = (regData s f.a).toNat + (bData s f).toNat)) →
      exec i s = .next (afterTrap 0x05 (regData s f.a) s))

/-- CSEAL completes: A with OTYPE the cursor of B, when A is unsealed and B grants SEAL of a type that CSEAL may give. -/
def Seals (i : Instr) (f : Ext) : Prop :=
  ∀ s t, Runs i s → Readable s f.a f.ta → Readable s f.b f.tb → Writable s f.d →
    (regCap s f.a).tag = true → capType (regCap s f.a).val = 0 →
    (regCap s f.b).tag = true → capType (regCap s f.b).val = 0 →
    t = (regData s f.b).toNat → t ∈ [1, 2, 6, 7, 8, 9, 10, 11, 12, 13, 14, 15] →
    (capBounds (regCap s f.b).val).1 ≤ t → t + 1 ≤ (capBounds (regCap s f.b).val).2 → capHas (regCap s f.b).val permSEAL = true →
    exec i s = .next (past f (setReg f.d ⟨capWithType (regCap s f.a).val t, true⟩ (begun s)))

/-- CUNSEAL completes: A with OTYPE 0, when B grants UNSEAL of A's type and that type is not 3, 4 or 5. -/
def Unseals (i : Instr) (f : Ext) : Prop :=
  ∀ s t, Runs i s → Readable s f.a f.ta → Readable s f.b f.tb → Writable s f.d →
    (regCap s f.a).tag = true → capType (regCap s f.a).val = t → t ∈ [1, 2, 6, 7, 8, 9, 10, 11, 12, 13, 14, 15] →
    (regCap s f.b).tag = true → capType (regCap s f.b).val = 0 → (regData s f.b).toNat = t →
    (capBounds (regCap s f.b).val).1 ≤ t → t + 1 ≤ (capBounds (regCap s f.b).val).2 → capHas (regCap s f.b).val permUNSEAL = true →
    exec i s = .next (past f (setReg f.d ⟨capWithType (regCap s f.a).val 0, true⟩ (begun s)))

/-- CANDP completes: PERMS AND b[15:0], every other field and the tag kept. -/
def AndsPermissions (i : Instr) (f : Ext) : Prop :=
  ∀ s, Runs i s → Readable s f.a f.ta → BReadable s f → Writable s f.d →
    (regCap s f.a).tag = true → capType (regCap s f.a).val = 0 →
    exec i s = .next (past f (setReg f.d
      ⟨(capPerms (regCap s f.a).val &&& (bData s f).extractLsb' 0 16) ++ (regCap s f.a).val.extractLsb' 0 112, true⟩ (begun s)))

/-- The field that CGET returns by code (04 R128), for a register whose OTYPE is neither 3 nor 4. -/
def cgetField (c : TCap) (code : Nat) : DWord :=
  match code with
  | 0 => capCursor c.val
  | 1 => BitVec.ofNat 64 (capBounds c.val).1
  | 2 => BitVec.ofNat 64 (min ((capBounds c.val).2 - (capBounds c.val).1) (2 ^ 64 - 1))
  | 3 => (capPerms c.val).setWidth 64
  | 4 => BitVec.ofNat 64 (capType c.val)
  | 5 => BitVec.ofNat 64 (capExp c.val)
  | 6 => if c.tag then 1#64 else 0#64
  | _ => capCursor c.val - BitVec.ofNat 64 (capBounds c.val).1

/-- CGET completes for every register (11 R217 decodes the bounds of types 3 and 4; this statement gives the value for the
others). -/
def GetsField (i : Instr) (f : Ext) : Prop :=
  ∀ s, Runs i s → Readable s f.a f.ta → Writable s f.d →
    ∃ v, exec i s = .next (past f (setData f.d v (begun s))) ∧
      (capType (regCap s f.a).val ≠ 3 → capType (regCap s f.a).val ≠ 4 → f.b.toNat < 8 → v = cgetField (regCap s f.a) f.b.toNat)

/-- The four relations of CTEST (04 R129), for registers whose OTYPE is neither 3 nor 4. -/
def ctestBit (a b : TCap) (n : Nat) : Bool :=
  match n with
  | 0 => a.tag && b.tag
  | 1 => decide ((capBounds a.val).1 ≤ (capBounds b.val).1 ∧ (capBounds b.val).2 ≤ (capBounds a.val).2)
  | 2 => decide (capPerms b.val &&& ~~~(capPerms a.val) = 0#16)
  | 3 => decide (capType a.val = 0)
  | _ => false

/-- CTEST completes for every pair of registers. -/
def TestsRelations (i : Instr) (f : Ext) : Prop :=
  ∀ s, Runs i s → Readable s f.a f.ta → Readable s f.b f.tb →
    ∃ v, exec i s = .next (past f (setPred f.d v (begun s))) ∧
      ((∀ n ∈ [f.a, f.b], capType (regCap s n).val ≠ 3 ∧ capType (regCap s n).val ≠ 4) →
        ((∀ n, n < 4 → ctestBit (regCap s f.a) (regCap s f.b) n = true) → v = 0xFFFFFFFF#32) ∧
        ((∃ n, n < 4 ∧ ctestBit (regCap s f.a) (regCap s f.b) n = false) →
          ∀ j, j < 32 → v.getLsbD j = ctestBit (regCap s f.a) (regCap s f.b) j))

end Sys2Proof

/-- 04 R124, R125: CADD and CSETA move the cursor; the tag is kept inside the representable window and lost outside it, an
untagged A never traps, and a sealed one traps with cause 0x07. -/
def Sys2Proof.CursorMovesKeepTheTagInTheWindowPart : Prop :=
  (∀ f, MovesCursor (.cadd f) f.ext (fun a b => a + b)) ∧ (∀ f, MovesCursor (.caddExt f) f (fun a b => a + b)) ∧
  (∀ f, MovesCursor (.cseta f) f.ext (fun _ b => b)) ∧ (∀ f, MovesCursor (.csetaExt f) f (fun _ b => b))

/-- 01 R41: every cursor inside the representable window decodes to the same base and top. -/
def Sys2Proof.CursorsInTheWindowDecodeTheSameBoundsPart : Prop :=
  ∀ (c : QWord) (x : DWord), capExp c ≤ 46 →
    (∃ n : Nat, n < 2 ^ (capExp c + 18) ∧ ((capBounds c).1 + n) % 2 ^ 64 = (x.toNat + 2 ^ (capExp c + 15)) % 2 ^ 64) →
    capBounds (capWithCursor c x) = capBounds c

/-- 04 R124, R125, 01 R41: CADD and CSETA move the cursor and keep the tag inside the representable window, where every cursor decodes to the
same bounds; outside it the tag is lost. -/
def Obligations.CursorMovesKeepTheTagInTheWindow : Prop :=
  Sys2Proof.CursorMovesKeepTheTagInTheWindowPart ∧ Sys2Proof.CursorsInTheWindowDecodeTheSameBoundsPart

/-- 04 R124, R126: CBOUND and CBOUNDX narrow the bounds, rounding outward; bounds that do not fit A, or that CBOUNDX would
have to round, trap with cause 0x05; the result keeps A's cursor, PERMS and OTYPE. -/
def Obligations.BoundsFormsNarrow : Prop :=
  (∀ f, NarrowsBounds (.cbound f) f.ext false) ∧ (∀ f, NarrowsBounds (.cboundExt f) f false) ∧
  (∀ f, NarrowsBounds (.cboundx f) f.ext true) ∧ (∀ f, NarrowsBounds (.cboundxExt f) f true)

/-- 04 R124, R127 to R129: CANDP, CSEAL, CUNSEAL, CGET, CCLEAR, CTEST and CSUB complete with the results the table gives. -/
def Obligations.CapabilityFormsComplete : Prop :=
  (∀ f, AndsPermissions (.candp f) f.ext) ∧ (∀ f, AndsPermissions (.candpExt f) f) ∧
  (∀ f, Seals (.cseal f) f.ext) ∧ (∀ f, Seals (.csealExt f) f) ∧
  (∀ f, Unseals (.cunseal f) f.ext) ∧ (∀ f, Unseals (.cunsealExt f) f) ∧
  (∀ f, GetsField (.cget f) f.ext) ∧ (∀ f, GetsField (.cgetExt f) f) ∧
  (∀ f, OneSource (.cclear f) f.ext (fun a => a)) ∧ (∀ f, OneSource (.cclearExt f) f (fun a => a)) ∧
  (∀ f, TestsRelations (.ctest f) f.ext) ∧ (∀ f, TestsRelations (.ctestExt f) f) ∧
  (∀ f s, Runs (.csub f) s → Readable s f.a f.ta → Readable s f.b f.tb → Writable s f.d →
    exec (.csub f) s = .next (past f.ext (setData f.d (regData s f.a - regData s f.b) (begun s)))) ∧
  (∀ f s, Runs (.csubExt f) s → Readable s f.a f.ta → Readable s f.b f.tb → Writable s f.d →
    exec (.csubExt f) s = .next (past f (setData f.d (regData s f.a - regData s f.b) (begun s))))

/-! ## Scalar floating point (04 R120 to R123) -/

namespace Sys2Proof

open Machine

/-- The code of a format in the low bits of a register (03 R87). -/
def codeIn (s : State) (f : Ext) (n : BitVec 6) : Nat := (regData s n).toNat % 2 ^ fmtBits f.fmt.toNat

/-- The state after a rounded result: its code in D, its flags in FSTAT, the draw taken. -/
def roundedInto (f : Ext) (r : Nat × Flags) (s : State) : State :=
  setData f.d (BitVec.ofNat 64 r.1) (setFlags r.2 (afterDraws f.rm 1 s))

/-- A form that rounds `op(a, b)` once completes, its flags in FSTAT. -/
def RoundsTwo (i : Instr) (f : Ext) (op : Fp → Rm → Nat → Nat → Nat → Nat × Flags) : Prop :=
  ∀ s, Runs i s → Readable s f.a f.ta → Readable s f.b f.tb → Writable s f.d →
    exec i s = .next (past f (roundedInto f
      (op (Fp.ofFmt f.fmt.toNat) (Rm.ofCode f.rm.toNat) (drawOf f.rm s) (codeIn s f f.a) (codeIn s f f.b)) (begun s)))

/-- FMIN and FMAX: the first NaN, or the operand that no other is below, or above; −0 is below +0 (04 R120). -/
def MinMaxGood (p : Fp) (max : Bool) (a b : Nat) (r : Nat × Flags) : Prop :=
  ((p.decode a).isNan = true → r = (a, if p.signalling a then Flags.invalid else Flags.none)) ∧
  ((p.decode a).isNan = false → (p.decode b).isNan = true →
    r = (b, if p.signalling b then Flags.invalid else Flags.none)) ∧
  ((p.decode a).isNan = false → (p.decode b).isNan = false →
    r.2 = Flags.none ∧ (r.1 = a ∨ r.1 = b) ∧
    (p.cmp a b = .lt → r.1 = if max then b else a) ∧ (p.cmp a b = .gt → r.1 = if max then a else b) ∧
    (p.cmp a b = .eq → p.isNeg a = true → p.isNeg b = false → r.1 = if max then b else a) ∧
    (p.cmp a b = .eq → p.isNeg a = false → p.isNeg b = true → r.1 = if max then a else b))

/-- FMIN and FMAX complete with such a result. -/
def PicksOne (i : Instr) (f : Ext) (max : Bool) : Prop :=
  ∀ s, Runs i s → Readable s f.a f.ta → Readable s f.b f.tb → Writable s f.d →
    ∃ r, MinMaxGood (Fp.ofFmt f.fmt.toNat) max (codeIn s f f.a) (codeIn s f f.b) r ∧
      exec i s = .next (past f (roundedInto f r (begun s)))

/-- The relation that FCMP tests, with its flag (04 R121). -/
def fcmpRelation (p : Fp) (cc a b : Nat) : Bool × Flags :=
  let nan := (p.decode a).isNan || (p.decode b).isNan
  let quiet := !(p.signalling a) && !(p.signalling b)
  (match cc with
   | 0 => !nan && decide (p.cmp a b = .eq)
   | 1 => nan || decide (p.cmp a b ≠ .eq)
   | 2 => !nan && decide (p.cmp a b = .lt)
   | 3 => !nan && decide (p.cmp a b ≠ .gt)
   | 4 => !nan && decide (p.cmp a b = .gt)
   | _ => !nan && decide (p.cmp a b ≠ .lt),
   if nan && (decide (2 ≤ cc) || !quiet) then Flags.invalid else Flags.none)

end Sys2Proof

/-- 04 R120 to R123: the scalar floating-point forms complete; arithmetic rounds once and ORs its flags into FSTAT, STO
takes one draw, FMIN and FMAX pick an operand, FCMP writes a predicate, FCVT converts or traps with cause 0x0C, FCLASS
writes one class bit. -/
def Obligations.ScalarFloatFormsComplete : Prop :=
  (∀ f, RoundsTwo (.fadd f) f Fp.add) ∧ (∀ f, RoundsTwo (.fsub f) f Fp.sub) ∧ (∀ f, RoundsTwo (.fmul f) f Fp.mul) ∧
  (∀ f, RoundsTwo (.fdiv f) f Fp.div) ∧
  (∀ f s, Runs (.ffma f) s → Readable s f.a f.ta → Readable s f.b f.tb → Readable s f.c f.tc → Writable s f.d →
    exec (.ffma f) s = .next (past f (roundedInto f
      ((Fp.ofFmt f.fmt.toNat).fma (Rm.ofCode f.rm.toNat) (drawOf f.rm s) false false (codeIn s f f.a) (codeIn s f f.b)
        (codeIn s f f.c)) (begun s)))) ∧
  (∀ f s, Runs (.fsqrt f) s → Readable s f.a f.ta → Writable s f.d →
    exec (.fsqrt f) s = .next (past f (roundedInto f
      ((Fp.ofFmt f.fmt.toNat).sqrt (Rm.ofCode f.rm.toNat) (drawOf f.rm s) (codeIn s f f.a)) (begun s)))) ∧
  (∀ f, PicksOne (.fmin f) f false) ∧ (∀ f, PicksOne (.fmax f) f true) ∧
  (∀ f s, Runs (.fcmp f) s → Readable s f.a f.ta → Readable s f.b f.tb →
    exec (.fcmp f) s = .next (past f
      (let r := fcmpRelation (Fp.ofFmt f.fmt.toNat) f.sub.toNat (codeIn s f f.a) (codeIn s f f.b)
       setPred f.d (if r.1 then 0xFFFFFFFF#32 else 0#32) (setFlags r.2 (begun s))))) ∧
  (∀ f s, Runs (.fcvt f) s → Readable s f.a f.ta → Writable s f.d →
    let src := (f.sub.extractLsb' 0 4).toNat
    let dst := f.fmt.toNat
    let code := (regData s f.a).toNat % 2 ^ fmtBits src
    match convert src dst (Rm.ofCode f.rm.toNat) false (drawOf f.rm s) code with
    | some r =>
      exec (.fcvt f) s = .next (past f (setData f.d (extendCode dst r.1) (setFlags r.2 (afterDraws f.rm 1 (begun s)))))
    | none =>
      exec (.fcvt f) s = .next (afterTrap 0x0C
        (BitVec.ofNat 64 ((if (numValue src code).isNan then 2 ^ 28 else 0) + dst * 2 ^ 24 + src * 2 ^ 16)) s)) ∧
  (∀ f s, Runs (.fclass f) s → Readable s f.a f.ta → Writable s f.d →
    exec (.fclass f) s = .next (past f (setData f.d
      (BitVec.ofNat 64 (2 ^ (Fp.ofFmt f.fmt.toNat).classBit (codeIn s f f.a))) (begun s))))

namespace Sys2Proof

open Machine

/-- The value of a magnitude code of a format, in units of 2^qmin: every code is `c % 2^frac` last places, with the hidden
bit when the exponent field is not zero, at the scale of that field (03 R88). -/
def gridValue (p : Fp) (c : Nat) : Nat :=
  if c / 2 ^ p.frac = 0 then c % 2 ^ p.frac else (2 ^ p.frac + c % 2 ^ p.frac) * 2 ^ (c / 2 ^ p.frac - 1)

end Sys2Proof

/-- 03 R95, R97: rounding toward zero takes the neighbour at or below the magnitude, rounding to nearest a neighbour that no
other is nearer to, and each is exact when the magnitude lies on the grid. -/
def Obligations.RoundingChoosesANeighbour : Prop :=
  ∀ (p : Fp) (rm : Rm) (draw : Nat) (neg : Bool) (m : Nat) (e : Int), 0 < p.frac → p.qmin ≤ e →
    let x := m * 2 ^ (e - p.qmin).toNat
    let r := p.roundMag rm draw neg m e false
    let c := if r.away then r.code - 1 else r.code
    gridValue p c ≤ x ∧ x < gridValue p (c + 1) ∧ (r.inexact = true ↔ gridValue p c ≠ x) ∧
    (r.away = true → r.inexact = true) ∧ (rm = .rtz → r.away = false) ∧
    (rm = .rup → (r.away = true ↔ r.inexact = true ∧ neg = false)) ∧
    (rm = .rdn → (r.away = true ↔ r.inexact = true ∧ neg = true)) ∧
    (rm = .rne → (r.away = true → gridValue p (c + 1) - x ≤ x - gridValue p c) ∧
      (r.away = false → x - gridValue p c ≤ gridValue p (c + 1) - x) ∧
      (r.inexact = true → gridValue p (c + 1) - x = x - gridValue p c → r.code % 2 = 0)) ∧
    (rm = .rna → (r.away = true ↔ r.inexact = true ∧ gridValue p (c + 1) - x ≤ x - gridValue p c))

/-! ## Control flow, traps and system registers (04 R130 to R138, 13 R343 to R345) -/

namespace Sys2Proof

open Machine

/-- The state with the pc at an address. -/
def atPc (x : DWord) (s : State) : State := { s with cur := { s.cur with pc := x } }

/-- Base address + IMM32 (04 R130). -/
def branchTarget (s : State) (f : Ext) : DWord := s.cur.pc + f.imm.signExtend 64

/-- The address after the last word. -/
def afterWords (s : State) (f : Ext) : DWord := s.cur.pc + BitVec.ofNat 64 (4 * lenWords f.len)

/-- RET goes to the cursor of A; its bits [1:0] nonzero trap with cause 0x08 (04 R130). -/
def Returns (i : Instr) (f : Ext) : Prop :=
  ∀ s, Runs i s → Readable s f.a f.ta →
    ((regData s f.a).extractLsb' 0 2 = 0#2 → exec i s = .next (atPc (regData s f.a) (begun s))) ∧
    ((regData s f.a).extractLsb' 0 2 ≠ 0#2 → exec i s = .next (afterTrap 0x08 (regData s f.a) s))

/-- JMPC installs A, unsealed, as the code capability and goes to its cursor; an untagged A traps with cause 0x04, a tagged one
of an OTYPE other than 0 and 1 with cause 0x07 (04 R131). -/
def JumpsThrough (i : Instr) (f : Ext) : Prop :=
  ∀ s, Runs i s → Readable s f.a f.ta →
    ((regCap s f.a).tag = true → capType (regCap s f.a).val ≤ 1 →
      exec i s = .next { begun s with cur := { (begun s).cur with
        code := capWithType (regCap s f.a).val 0, pc := regData s f.a } }) ∧
    ((regCap s f.a).tag = false → exec i s = .next (afterTrap 0x04 (regData s f.a) s)) ∧
    ((regCap s f.a).tag = true → 1 < capType (regCap s f.a).val →
      exec i s = .next (afterTrap 0x07 (regData s f.a) s))

end Sys2Proof

/-- 04 R130: BR, BRP, CALL and RET: the target is the base word's address plus IMM32, or the cursor of A; CALL links the
address after its last word; BRP falls through when pC fails its test; RET traps with cause 0x08 on a misaligned target. -/
def Sys2Proof.BranchesSetThePcPart : Prop :=
  (∀ f s, Runs (.br f) s → exec (.br f) s = .next (atPc (branchTarget s f) (begun s))) ∧
  (∀ f s, Runs (.brp f) s → f.sub.toNat ≤ 2 → PReadable s f.c →
    exec (.brp f) s = .next (atPc
      (if (f.sub = 0#8 ∧ predOf s f.c ≠ 0#32) ∨ (f.sub = 1#8 ∧ predOf s f.c = 0xFFFFFFFF#32) ∨ (f.sub = 2#8 ∧ predOf s f.c = 0#32)
       then branchTarget s f else afterWords s f) (begun s))) ∧
  (∀ f s, Runs (.brp f) s → ¬ PReadable s f.c → exec (.brp f) s = .next (afterTrap 0x12 0#64 s)) ∧
  (∀ f s, Runs (.call f) s → Writable s f.d →
    exec (.call f) s = .next (atPc (branchTarget s f) (setData f.d (afterWords s f) (begun s)))) ∧
  (∀ f, Returns (.ret f) f.ext) ∧ (∀ f, Returns (.retExt f) f)

/-- 04 R131: JMPC. -/
def Sys2Proof.JmpcInstallsACodeCapabilityPart : Prop :=
  (∀ f, JumpsThrough (.jmpc f) f.ext) ∧ (∀ f, JumpsThrough (.jmpcExt f) f)

/-- 04 R132: LOOP decrements its counter and branches while it is not 0; a counter of 0 falls through and leaves A unwritten. -/
def Sys2Proof.LoopCountsDownPart : Prop :=
  ∀ f s, Runs (.loop f) s → Readable s f.a f.ta → Writable s f.a →
    (regData s f.a = 0#64 → exec (.loop f) s = .next (atPc (afterWords s f) (begun s))) ∧
    (regData s f.a ≠ 0#64 →
      exec (.loop f) s = .next (atPc (if regData s f.a = 1#64 then afterWords s f else branchTarget s f)
        (setData f.a (regData s f.a - 1#64) (begun s))))

/-- 04 R130 to R132: BR, BRP, CALL, RET and JMPC set the pc; CALL links the address after its last word, JMPC installs its code capability;
LOOP counts its register down and branches while it is not zero.  BRP on a predicate that came back poisoned traps with cause 0x12
(13 R362), whose TINFO of 0 is the model's choice (log 32). -/
def Obligations.BranchesSetThePc : Prop :=
  Sys2Proof.BranchesSetThePcPart ∧ Sys2Proof.JmpcInstallsACodeCapabilityPart ∧ Sys2Proof.LoopCountsDownPart

/-- 13 R343: delivery of a trap sets TCAUSE, TPC and TINFO, saves the code capability, enters trap state and goes to the
context's trap entry, unsealed; it changes no g, v or p register, no stream slot and no FSTAT, no memory and nothing else but which
of the saved items count as poisoned (13 R362): what it writes does not, and a poisoned pc or code capability is saved as one. -/
def Sys2Proof.TrapDeliveryPart : Prop :=
  ∀ (s : State) (cause : Nat) (info : DWord) (c : Ctx), cause < 256 →
    (s.cur.duty = .firing ∨ ∃ l, s.cur.duty = .loop l) → s.cur.trapped = false →
    findCtx s s.cur.fid.ctx = some c → c.trapEntry.tag = true → capHas c.trapEntry.val permEXE = true →
    takeTrap cause info s = { s with cur := { s.cur with
      tcause := BitVec.ofNat 64 cause, tpc := s.cur.pc, tinfo := info, savedCode := s.cur.code, trapped := true
      code := capWithType c.trapEntry.val 0, pc := capCursor c.trapEntry.val
      bad := deliverBad (trapBad s.cur.bad)
      waitFrom := none, waitPassed := false, awaitsFabric := none } }

/-- 13 R344, R347: a trap raised in trap state, or without a trap entry, is not delivered: the firing stops with its registers
kept, its band begins pre-emption by retention, and the session receives a record of kind DOUBLE or UNHANDLED. -/
def Sys2Proof.TrapsWithoutDeliveryStopTheFiringPart : Prop :=
  ∀ (s : State) (cause : Nat) (info : DWord) (c : Ctx) (b : Band) (x : Session),
    s.cur.duty = .firing → findCtx s s.cur.fid.ctx = some c → bandOf s s.cur = some b → b.state = .running →
    s.dev.session = some x →
    (s.cur.trapped = true ∨ c.trapEntry.tag = false) →
    let t := takeTrap cause info s
    t.cur.stopped = true ∧ t.cur.g = s.cur.g ∧ t.cur.v = s.cur.v ∧ t.cur.p = s.cur.p ∧ t.cur.pc = s.cur.pc ∧
      t.cur.code = s.cur.code ∧ t.cur.fstat = s.cur.fstat ∧
      t.mem.cells = s.mem.cells ∧ t.mem.tags = s.mem.tags ∧ t.mem.full = s.mem.full ∧
      (∃ b', findBand t b.entry = some b' ∧ b'.state = .preempting ∧ b'.evict = false) ∧
      ∃ m ∈ t.dev.sent, m.opcode = 0x80 ∧ m.context = s.cur.fid.ctx ∧
        m.payload.getD 0 0#64 = BitVec.ofNat 64 ((if s.cur.trapped then 2 else 1) * 256 + cause) ∧
        m.payload.getD 1 0#64 = s.cur.pathw ∧ m.payload.getD 2 0#64 = s.cur.tidw

/-- 04 R134: NOP does nothing; ETRAP raises cause 0x17 with its code sign-extended as TINFO. -/
def Sys2Proof.EtrapRaisesCause17Part : Prop :=
  (∀ f s, Runs (.nop f) s → exec (.nop f) s = .next (past f.ext (begun s))) ∧
  (∀ f s, Runs (.etrap f) s → exec (.etrap f) s = .next (afterTrap 0x17 (f.b.signExtend 64) s)) ∧
  (∀ f s, Runs (.etrapExt f) s → f.hasExt = true → exec (.etrapExt f) s = .next (afterTrap 0x17 (f.imm.signExtend 64) s))

/-- 04 R135: ERET restores the saved code capability, sets pc to TPC and leaves trap state; without SYS, or outside trap
state, it traps with cause 0x06; a TPC or a saved capability that a restore left poisoned traps with cause 0x12 (13 R362; TINFO 0
is the model's choice, notes/assumptions/32.md). -/
def Sys2Proof.EretLeavesTrapStatePart : Prop :=
  ∀ f s, Runs (.eret f) s →
    (capHas s.cur.code permSYS = true → s.cur.trapped = true → Sound [badTpc, badSaved] s →
      exec (.eret f) s = .next { begun s with cur := { (begun s).cur with
        code := s.cur.savedCode, pc := s.cur.tpc, trapped := false } }) ∧
    (capHas s.cur.code permSYS = true → s.cur.trapped = true → ¬ Sound [badTpc, badSaved] s →
      exec (.eret f) s = .next (afterTrap 0x12 0#64 s)) ∧
    (¬ (capHas s.cur.code permSYS = true ∧ s.cur.trapped = true) →
      exec (.eret f) s = .next (afterTrap 0x06 (capCursor s.cur.code) s))

namespace Sys2Proof

open Machine

/-- What a selector of 01 R33 reads. -/
def systemValue (s : State) (c : Ctx) (core : CoreState) (sel : Nat) : DWord :=
  match sel with
  | 0 => s.cur.ctxw
  | 1 => s.cur.pathw
  | 2 => s.cur.tidw
  | 3 => s.cur.allotw
  | 4 => c.events.extractLsb' 0 64
  | 5 => c.events.extractLsb' 64 64
  | 6 => c.events.extractLsb' 128 64
  | 7 => c.events.extractLsb' 192 64
  | 8 => BitVec.ofNat 64 (core.channels.getD 0 ⟨2, none, [], [], none⟩).done
  | 9 => BitVec.ofNat 64 (core.channels.getD 1 ⟨2, none, [], [], none⟩).done
  | 10 => BitVec.ofNat 64 (core.channels.getD 2 ⟨2, none, [], [], none⟩).done
  | 11 => BitVec.ofNat 64 (core.channels.getD 3 ⟨2, none, [], [], none⟩).done
  | 12 => s.cur.tcause
  | 13 => s.cur.tpc
  | 14 => s.cur.tinfo
  | 15 => s.cur.fstat
  | _ => BitVec.ofNat 64 s.dev.cycle

/-- The special registers that a restore may leave poisoned, by selector (13 R362). -/
def systemItem (sel : Nat) : List Nat :=
  match sel with
  | 12 => [badTcause]
  | 13 => [badTpc]
  | 14 => [badTinfo]
  | 15 => [badFstat]
  | _ => []

/-- MFS completes; a register that came back poisoned traps with cause 0x12. -/
def ReadsSystem (i : Instr) (f : Ext) : Prop :=
  ∀ s c core, Runs i s → f.a.toNat ≤ 16 → Writable s f.d → findCtx s s.cur.fid.ctx = some c →
    findCore s s.cur.pos = some core →
    (Sound (systemItem f.a.toNat) s →
      exec i s = .next (past f (setData f.d (systemValue s c core f.a.toNat) (begun s)))) ∧
    (¬ Sound (systemItem f.a.toNat) s → exec i s = .next (afterTrap 0x12 0#64 s))

/-- MTS completes for the four writable selectors; TCAUSE, TPC and TINFO need SYS and trap with cause 0x06 without it. -/
def WritesSystem (i : Instr) (f : Ext) : Prop :=
  ∀ s, Runs i s → Readable s f.a f.ta →
    (f.d = 15#6 → exec i s = .next (past f { begun s with cur := { (begun s).cur with fstat := regData s f.a &&& 0x1F#64, bad := setDrop s.cur.bad badFstat } })) ∧
    (capHas s.cur.code permSYS = true →
      (f.d = 12#6 → exec i s = .next (past f { begun s with cur := { (begun s).cur with tcause := regData s f.a &&& 0xFF#64, bad := setDrop s.cur.bad badTcause } })) ∧
      (f.d = 13#6 → exec i s = .next (past f { begun s with cur := { (begun s).cur with tpc := regData s f.a &&& ~~~3#64, bad := setDrop s.cur.bad badTpc } })) ∧
      (f.d = 14#6 → exec i s = .next (past f { begun s with cur := { (begun s).cur with tinfo := regData s f.a, bad := setDrop s.cur.bad badTinfo } }))) ∧
    (capHas s.cur.code permSYS = false → f.d = 12#6 ∨ f.d = 13#6 ∨ f.d = 14#6 →
      exec i s = .next (afterTrap 0x06 (capCursor s.cur.code) s))

/-- FEMPTY completes: the register is empty with no producer, its value kept; g0 does nothing (04 R137). -/
def EmptiesG (i : Instr) (f : Ext) : Prop :=
  ∀ s, Runs i s → Writable s f.d →
    exec i s = .next (past f (if f.d = 0#6 then begun s else { begun s with cur := { (begun s).cur with
      g := s.cur.g.set f.d.toNat { s.cur.g[f.d.toNat] with st := .empty } } }))

def EmptiesV (i : Instr) (f : Ext) : Prop :=
  ∀ s, Runs i s → (vAt s.cur f.d.toNat).st ≠ .pending →
    exec i s = .next (past f { begun s with cur := { (begun s).cur with
      v := s.cur.v.setIfInBounds f.d.toNat { vAt s.cur f.d.toNat with st := .empty } } })

/-- FTEST completes for every state of its register and never waits (04 R138). -/
def TestsG (i : Instr) (f : Ext) : Prop :=
  ∀ s, Runs i s →
    exec i s = .next (past f (setPred f.d (if (regOf s f.a).st = .full ∨ (regOf s f.a).st = .poisoned then 0xFFFFFFFF#32 else 0#32) (begun s)))

def TestsV (i : Instr) (f : Ext) : Prop :=
  ∀ s, Runs i s →
    ∃ v, exec i s = .next (past f (setPred f.d v (begun s))) ∧
      (f.a.toNat < 28 → v = if (vAt s.cur f.a.toNat).st = .full ∨ (vAt s.cur f.a.toNat).st = .poisoned then 0xFFFFFFFF#32 else 0#32) ∧
      (28 ≤ f.a.toNat → v = if channelReady s (f.a.toNat - 28) then 0xFFFFFFFF#32 else 0#32)

end Sys2Proof

/-- 01 R33, 04 R136: MFS reads every selector of R33; MTS writes the writable ones, discarding reserved bits. A register that a
restore left poisoned traps on MFS with cause 0x12 and is good once written (13 R362; TINFO 0 is the model's choice,
notes/assumptions/32.md). -/
def Obligations.SystemRegistersReadAndWrite : Prop :=
  (∀ f, ReadsSystem (.mfs f) f.ext) ∧ (∀ f, ReadsSystem (.mfsExt f) f) ∧
  (∀ f, WritesSystem (.mts f) f.ext) ∧ (∀ f, WritesSystem (.mtsExt f) f)

/-- 04 R137, R138: FEMPTY and FTEST. -/
def Sys2Proof.FullEmptyFormsPart : Prop :=
  (∀ f, EmptiesG (.femptyG f) f.ext) ∧ (∀ f, EmptiesG (.femptyGExt f) f) ∧
  (∀ f, EmptiesV (.femptyV f) f.ext) ∧ (∀ f, EmptiesV (.femptyVExt f) f) ∧
  (∀ f, TestsG (.ftestG f) f.ext) ∧ (∀ f, TestsG (.ftestGExt f) f) ∧
  (∀ f, TestsV (.ftestV f) f.ext) ∧ (∀ f, TestsV (.ftestVExt f) f)

/-- 04 R117, R119, R137, R138: MOV, SEL, LI and PGET write their register, tag included; the predicate instructions act on all 32 bits; a write to p0 is
discarded; FEMPTY and FTEST act on a full/empty state.  A predicate that came back poisoned traps with cause 0x12 (13 R362), whose
TINFO of 0 is the model's choice (log 32). -/
def Obligations.MovesAndPredicateFormsComplete : Prop :=
  Sys2Proof.MovesCopyValueAndTagPart ∧ Sys2Proof.PredicateFormsActOnAllBitsPart ∧ Sys2Proof.FullEmptyFormsPart

/-- 04 R133: END of an actor firing with nothing outstanding frees its thread, leaves memory as it was, and returns its
instance to IDLE with one more firing counted and the unread rest of each RATE discarded. -/
def Obligations.EndClosesTheFiring : Prop :=
  ∀ f s b i, Runs (.endFiring f) s → s.cur.duty = .firing → findBand s s.cur.fid.band = some b →
    findInstance b s.cur.fid.gang s.cur.fid.inst = some i →
    anyPending s.cur = false → s.cur.rcalln = 0 → s.cur.rcallRecord = none → s.cur.remoteStores = [] → s.cur.trapped = false →
    ∃ t, exec (.endFiring f) s = .next t ∧ t.cur = { Thread.idle with pos := s.cur.pos } ∧ t.mem = s.mem ∧
      t.threads = s.threads ∧ t.net = s.net ∧ t.dev = s.dev ∧ t.cores = s.cores ∧
      ∃ b' i', findBand t b.entry = some b' ∧ findInstance b' s.cur.fid.gang s.cur.fid.inst = some i' ∧
        b'.endClock = clockMerge b.endClock (s.mem.clockAt (eyeOf s.cur)) ∧ i'.state = .idle ∧ i'.count = i.count + 1 ∧
        ∀ k, k < 4 → i'.fifos.getD k [] = (i.fifos.getD k []).drop (inRate b k - s.cur.popped.getD k 0)

/-! ## Loads and stores (05 R141 to R145, R149) -/

namespace Sys2Proof

open Machine

/-- The value of loaded bytes, sign- or zero-extended to 64 bits. -/
def loadedValue (signed : Bool) (bs : List Byte) : DWord :=
  let x := BitVec.ofNat (8 * bs.length) (bytesNat bs)
  if signed then x.signExtend 64 else x.setWidth 64

/-- A load completes: the bytes that the thread sees at the place of cursor + offset go to D, extended; no byte of memory
changes but by the recall of view lines. -/
def LoadsAs (kind : Kind) (i : Instr) (f : Ext) (signed : Bool) (size : Nat) : Prop :=
  ∀ s t k leaf, Runs i s → Readable s f.a f.ta → Writable s f.d →
    let addr := memAddr (regCap s f.a) f size
    DerefPasses (regCap s f.a) addr size [permLD] → addr % size = 0 →
    Reaches (begun s) addr size kind false false (.bytes k leaf) t → keyIsView k = false →
    let m := t.mem.readied (eyeOf s.cur) k size
    m.firstPoison k size = none →
    exec i s = .next (past f (setData f.d (loadedValue signed (m.seenBytes (eyeOf s.cur) k size)) { t with mem := m }))

def Loads (i : Instr) (f : Ext) (signed : Bool) (size : Nat) : Prop := LoadsAs .read i f signed size

/-- LD.64 completes; it alone reads a placement word, which is the absolute address of the store's first byte (08 R243). -/
def LoadsWord (i : Instr) (f : Ext) : Prop :=
  LoadsAs .word i f false 8 ∧
  ∀ s t x, Runs i s → Readable s f.a f.ta → Writable s f.d →
    let addr := memAddr (regCap s f.a) f 8
    DerefPasses (regCap s f.a) addr 8 [permLD] → addr % 8 = 0 →
    Reaches (begun s) addr 8 .word false false (.word x) t →
    exec i s = .next (past f (setData f.d x t))

/-- An acquiring load completes: what its scope covers is performed first. -/
def LoadsAcquire (i : Instr) (f : Ext) (size : Nat) : Prop :=
  ∀ s t u k leaf, Runs i s → Readable s f.a f.ta → Writable s f.d →
    let addr := memAddr (regCap s f.a) f size
    DerefPasses (regCap s f.a) addr size [permLD] → addr % size = 0 →
    Reaches (begun s) addr size .read false false (.bytes k leaf) t → keyIsView k = false →
    acquireAt f.scope.toNat (.bytes k leaf) size t = .ok (⟨⟩, u) →
    let m := u.mem.readied (eyeOf s.cur) k size
    m.firstPoison k size = none →
    exec i s = .next (past f (setData f.d (loadedValue false (m.seenBytes (eyeOf s.cur) k size)) { u with mem := m }))

/-- LDC completes: 16 bytes with the tag that the thread sees beside them where LDCAP grants it, else the low 64 bits as data. -/
def LoadsCap (i : Instr) (f : Ext) : Prop :=
  ∀ s t k leaf, Runs i s → Readable s f.a f.ta → Writable s f.d →
    let addr := memAddr (regCap s f.a) f 16
    DerefPasses (regCap s f.a) addr 16 [permLD] → addr % 16 = 0 →
    Reaches (begun s) addr 16 .read false false (.bytes k leaf) t → keyIsView k = false →
    let m := t.mem.readied (eyeOf s.cur) k 16
    let bs := m.seenBytes (eyeOf s.cur) k 16
    m.firstPoison k 16 = none →
    exec i s = .next (past f (setReg f.d
      (if m.seenTag (eyeOf s.cur) (k / 16) = true ∧ capHas (regCap s f.a).val permLDCAP = true then
         ⟨BitVec.ofNat 128 (bytesNat bs), true⟩
       else ⟨dataVal (BitVec.ofNat 64 (bytesNat (bs.take 8))), false⟩) { t with mem := m }))

/-- A store of `bs` completes: nothing but memory, the count of writes and the pc changes.  While no view line is held, memory
changes in the stored bytes alone. -/
def StoresAt (i : Instr) (f : Ext) (s t : State) (k : Nat) (bs : List Byte) (tag : Bool) : Prop :=
  ∃ m, exec i s = .next (past f { t with mem := m, nextId := t.nextId + 1 }) ∧
    (t.mem.wf = true → NoViews k t.mem → WritesBytes (eyeOf s.cur) k bs tag t.mem m)

/-- The low bytes of D are stored. -/
def Stores (i : Instr) (f : Ext) (size : Nat) : Prop :=
  ∀ s t k leaf, Runs i s → Readable s f.a f.ta → Readable s f.d f.tb →
    let addr := memAddr (regCap s f.a) f size
    DerefPasses (regCap s f.a) addr size [permST] → addr % size = 0 →
    Reaches (begun s) addr size .write true (capHas (regCap s f.a).val permFMTW) (.bytes k leaf) t → keyIsView k = false →
    StoresAt i f s t k (natBytes size (regData s f.d).toNat) false

/-- A releasing store completes, its earlier writes performed at its scope, once its stores to other devices are acknowledged. -/
def StoresRelease (i : Instr) (f : Ext) (size : Nat) : Prop :=
  ∀ s t k leaf, Runs i s → Readable s f.a f.ta → Readable s f.d f.tb →
    let addr := memAddr (regCap s f.a) f size
    DerefPasses (regCap s f.a) addr size [permST] → addr % size = 0 →
    Reaches (begun s) addr size .write true (capHas (regCap s f.a).val permFMTW) (.bytes k leaf) t → keyIsView k = false →
    (f.scope.toNat < 4 ∨ t.cur.remoteStores = []) →
    ∃ m, exec i s = .next (past f { t with mem := m, nextId := t.nextId + 1 }) ∧
      (t.mem.wf = true → NoViews k t.mem → WritesCells k (natBytes size (regData s f.d).toNat) t.mem m)

/-- STC completes: a tagged D is stored whole and sets its granule's tag, which needs STCAP; an untagged one is stored as its 64
data bits and eight zero bytes. -/
def StoresCap (i : Instr) (f : Ext) : Prop :=
  ∀ s t k leaf, Runs i s → Readable s f.a f.ta → Readable s f.d f.tb →
    let addr := memAddr (regCap s f.a) f 16
    let x := regCap s f.d
    DerefPasses (regCap s f.a) addr 16 (if x.tag then [permST, permSTCAP] else [permST]) → addr % 16 = 0 →
    Reaches (begun s) addr 16 .write true (capHas (regCap s f.a).val permFMTW) (.bytes k leaf) t → keyIsView k = false → k % 16 = 0 →
    StoresAt i f s t k (if x.tag then natBytes 16 x.val.toNat else natBytes 8 (regData s f.d).toNat ++ List.replicate 8 0#8) x.tag

end Sys2Proof

/-- 05 R141, R144, R145, 08 R243, R254: every LD form loads size bytes at cursor + offset, little-endian, and extends them by its
mnemonic; LDC loads 16 bytes with their tag; LD.64 reads a placement word. -/
def Obligations.LoadsReadTheirBytes : Prop :=
  (∀ f, Loads (.ldI8 f) f.ext true 1) ∧ (∀ f, Loads (.ldI8Ext f) f true 1) ∧
  (∀ f, Loads (.ldN8 f) f.ext false 1) ∧ (∀ f, Loads (.ldN8Ext f) f false 1) ∧
  (∀ f, Loads (.ldI16 f) f.ext true 2) ∧ (∀ f, Loads (.ldI16Ext f) f true 2) ∧
  (∀ f, Loads (.ldN16 f) f.ext false 2) ∧ (∀ f, Loads (.ldN16Ext f) f false 2) ∧
  (∀ f, Loads (.ldI32 f) f.ext true 4) ∧ (∀ f, Loads (.ldI32Ext f) f true 4) ∧
  (∀ f, Loads (.ldN32 f) f.ext false 4) ∧ (∀ f, Loads (.ldN32Ext f) f false 4) ∧
  (∀ f, LoadsWord (.ld64 f) f.ext) ∧ (∀ f, LoadsWord (.ld64Ext f) f) ∧
  (∀ f, LoadsCap (.ldc f) f.ext) ∧ (∀ f, LoadsCap (.ldcExt f) f) ∧
  (∀ f, LoadsAcquire (.lda32 f) f.ext 4) ∧ (∀ f, LoadsAcquire (.lda32Ext f) f 4) ∧
  (∀ f, LoadsAcquire (.lda64 f) f.ext 8) ∧ (∀ f, LoadsAcquire (.lda64Ext f) f 8)

/-- 05 R141, R144: every ST form and STC store at cursor + offset and change no other byte; a data store clears the tags of the
granules it touches (01 R43). -/
def Obligations.StoresWriteTheirBytes : Prop :=
  (∀ f, Stores (.st8 f) f.ext 1) ∧ (∀ f, Stores (.st8Ext f) f 1) ∧
  (∀ f, Stores (.st16 f) f.ext 2) ∧ (∀ f, Stores (.st16Ext f) f 2) ∧
  (∀ f, Stores (.st32 f) f.ext 4) ∧ (∀ f, Stores (.st32Ext f) f 4) ∧
  (∀ f, Stores (.st64 f) f.ext 8) ∧ (∀ f, Stores (.st64Ext f) f 8) ∧
  (∀ f, StoresCap (.stc f) f.ext) ∧ (∀ f, StoresCap (.stcExt f) f) ∧
  (∀ f, StoresRelease (.stl32 f) f.ext 4) ∧ (∀ f, StoresRelease (.stl32Ext f) f 4) ∧
  (∀ f, StoresRelease (.stl64 f) f.ext 8) ∧ (∀ f, StoresRelease (.stl64Ext f) f 8)

/-- 08 R241 to R243, R247, 13 R357, R358: where an access of a firing goes: the gang form of a cluster store; the core form of a
core store, which for a load or a store is the thread's own (R247; CORE is the number of a core in the gang's cluster, log 13);
the absolute forms inside an allotment of the context; a placement word; and a page mapped by a leaf, before a write to which every
stash gives up what it holds of the written lines (05 R151). -/
def Obligations.AccessesReachStoresAndPages : Prop :=
  (∀ (s : State) (c : Ctx) (b : Band) (addr size k : Nat) (kind : Kind) (checked fmtw : Bool),
    s.cur.duty = .firing → findCtx s s.cur.fid.ctx = some c → findBand s s.cur.fid.band = some b → accessWaits s.cur = false →
    addr / 2 ^ 50 = s.dev.number → addr % 2 ^ 50 / 2 ^ 40 = 0x3FF →
    resolveAperture s c.number (some b) (some s.cur.pos) addr size = .ok (.bytes k none) → keyIsStore k = true →
    stashOf s k size = none → scoreboarded s s.cur.pos k size = false → copyOwned s (some s.cur.pos) k size = false →
    Reaches s addr size kind checked fmtw (.bytes k none) s) ∧
  (∀ (s : State) (ctx : Nat) (b : Band) (p : GangPlace) (own : Option Pos) (gang off size : Nat), b.packet.lupin = false →
    gang < 64 → b.places[gang]? = some p → off + size ≤ b.packet.clusterKib * 4096 → off + size ≤ 0x3FFFF8 →
    resolveAperture s ctx (some b) own (s.dev.number * 2 ^ 50 + 0x3FF * 2 ^ 40 + gang * 2 ^ 22 + off) size =
      .ok (.bytes (clusterKey b.die p.cluster (p.storeBase + off)) none)) ∧
  (∀ (s : State) (ctx : Nat) (b : Band) (p : GangPlace) (own : Pos) (gang core off size : Nat), b.packet.lupin = false →
    gang < 64 → b.places[gang]? = some p → core < 8 → core ∈ p.cores → off + size ≤ b.packet.coreKib * 1024 →
    off + size ≤ 0x3FFF8 →
    resolveAperture s ctx (some b) (some own)
      (s.dev.number * 2 ^ 50 + 0x3FF * 2 ^ 40 + 2 ^ 38 + gang * 2 ^ 22 + core * 2 ^ 18 + off) size =
      if own.lupin = false ∧ own.die = b.die ∧ own.cluster = p.cluster ∧ own.core = core then
        .ok (.bytes (coreKey b.die p.cluster core off) none)
      else .error 6) ∧
  (∀ (s : State) (ctx : Nat) (b : Band) (p : GangPlace) (own : Option Pos) (gang core : Nat), b.packet.lupin = false →
    gang < 64 → b.places[gang]? = some p → core < 8 → core ∈ p.cores →
    resolveAperture s ctx (some b) own (s.dev.number * 2 ^ 50 + 0x3FF * 2 ^ 40 + gang * 2 ^ 22 + 0x3FFFF8) 8 =
      .ok (.word (BitVec.ofNat 64 (s.dev.number * 2 ^ 50) + BitVec.ofNat 64 (clusterKey b.die p.cluster p.storeBase))) ∧
    resolveAperture s ctx (some b) own (s.dev.number * 2 ^ 50 + 0x3FF * 2 ^ 40 + 2 ^ 38 + gang * 2 ^ 22 + core * 2 ^ 18 + 0x3FFF8) 8 =
      .ok (.word (BitVec.ofNat 64 (s.dev.number * 2 ^ 50) + BitVec.ofNat 64 (coreKey b.die p.cluster core 0)))) ∧
  (∀ (s : State) (ctx : Nat) (band : Option Band) (own : Option Pos) (die cluster off size : Nat), die < 4 → cluster < 64 →
    off + size ≤ 0x300000 →
    resolveAperture s ctx band own (s.dev.number * 2 ^ 50 + clusterKey die cluster off) size =
      if clusterAllotted s ctx die cluster off size = true then .ok (.bytes (clusterKey die cluster off) none) else .error 6) ∧
  (∀ (s : State) (ctx : Nat) (band : Option Band) (own : Option Pos) (die cluster core off size : Nat), die < 4 → cluster < 64 →
    core < 8 → off + size ≤ 0x30000 →
    resolveAperture s ctx band own (s.dev.number * 2 ^ 50 + coreKey die cluster core off) size =
      if coreAllotted s ctx die cluster core off size = true then .ok (.bytes (coreKey die cluster core off) none) else .error 6) ∧
  (∀ (s : State) (c : Ctx) (l : Leaf) (addr size : Nat) (kind : Kind) (checked fmtw : Bool),
    s.cur.duty = .firing → findCtx s s.cur.fid.ctx = some c → accessWaits s.cur = false →
    addr / 2 ^ 50 = s.dev.number → addr % 2 ^ 50 / 2 ^ 40 ≠ 0x3FF →
    walk s.mem c (addr % 2 ^ 50) = some l → entryMigrating l.word = false → entryPlace l.word = false →
    (if kind = .write then entryWrite l.word else entryRead l.word) = true →
    entryPhys l.word + addr % levelSize l.level < 2 ^ 41 →
    (entryPhys l.word + addr % levelSize l.level) % 2 ^ 39 + size ≤ 0x5000000000 →
    copyOwned s (some s.cur.pos) (entryPhys l.word + addr % levelSize l.level) size = false →
    (kind = .write → checked = true → c.det = true → ownsRegion s l.entryAt (.gang s.cur.fid.band s.cur.fid.gang) = true) →
    Reaches s addr size kind checked fmtw (.bytes (entryPhys l.word + addr % levelSize l.level) (some l.entryAt))
        (if kind = .write then recallStashes none (entryPhys l.word + addr % levelSize l.level) size s else s))

namespace Sys2Proof

open Machine

/-- LDF and LDFK complete on a full word of a cluster store for which no other waits ahead: the word goes to D, zero-extended;
LDF leaves it empty. -/
def LoadsFull (i : Instr) (f : Ext) (empties : Bool) : Prop :=
  ∀ s t k leaf, Runs i s → Readable s f.a f.ta → Writable s f.d →
    let addr := memAddr (regCap s f.a) f 4
    DerefPasses (regCap s f.a) addr 4 (if empties then [permLD, permST] else [permLD]) → addr % 4 = 0 →
    Reaches (begun s) addr 4 .read false false (.bytes k leaf) t → keyIsCluster k = true →
    t.mem.isFull k = true → waitsAhead t.mem.waiters (agentId s.cur) k true = false → t.mem.firstPoison k 4 = none →
    ∃ m, exec i s = .next (past f (setData f.d (loadedValue false (t.mem.bytes k 4)) { t with mem := m })) ∧
      m.cells = t.mem.cells ∧ m.tags = t.mem.tags ∧
      (∀ g, g ∈ m.full ↔ g ∈ t.mem.full ∧ ¬ (empties = true ∧ g = k / 4))

/-- STE, on an empty word for which no other waits ahead, and STFX complete: the word is stored and left full. -/
def StoresFull (i : Instr) (f : Ext) (waits : Bool) : Prop :=
  ∀ s t k leaf, Runs i s → Readable s f.a f.ta → Readable s f.d f.tb →
    let addr := memAddr (regCap s f.a) f 4
    DerefPasses (regCap s f.a) addr 4 [permST] → addr % 4 = 0 →
    Reaches (begun s) addr 4 .write true false (.bytes k leaf) t → keyIsCluster k = true →
    (waits = true → t.mem.isFull k = false ∧ waitsAhead t.mem.waiters (agentId s.cur) k false = false) →
    (f.scope.toNat < 4 ∨ t.cur.remoteStores = []) →
    ∃ m, exec i s = .next (past f { t with mem := m, nextId := t.nextId + 1 }) ∧
      (∀ g, g ∈ m.full ↔ g ∈ t.mem.full ∨ g = k / 4) ∧
      (t.mem.wf = true →
        (∀ j, j < 4 → cellGet m.cells (k + j) = (natBytes 4 (regData s f.d).toNat).getD j 0#8) ∧
        (∀ a, a < k ∨ k + 4 ≤ a → cellGet m.cells a = cellGet t.mem.cells a))

/-- A full/empty form that finds the word in the other state waits: the instruction has not begun, and it keeps its place. -/
def WaitsFull (i : Instr) (f : Ext) (perms : List Nat) (kind : Kind) (full : Bool) : Prop :=
  ∀ s t k leaf, Runs i s → Readable s f.a f.ta → (kind = .write → Readable s f.d f.tb) →
    let addr := memAddr (regCap s f.a) f 4
    DerefPasses (regCap s f.a) addr 4 perms → addr % 4 = 0 →
    Reaches (begun s) addr 4 kind (kind == .write) false (.bytes k leaf) t → keyIsCluster k = true → t.mem.isFull k ≠ full →
    exec i s = .next (noteWait { s with mem := { s.mem with waiters := joinQueue s.mem.waiters (agentId s.cur) k full } })

/-- FEQ completes whatever the word's state. -/
def TestsFull (i : Instr) (f : Ext) : Prop :=
  ∀ s t k leaf, Runs i s → Readable s f.a f.ta →
    let addr := memAddr (regCap s f.a) f 4
    DerefPasses (regCap s f.a) addr 4 [permLD] → addr % 4 = 0 →
    Reaches (begun s) addr 4 .read false false (.bytes k leaf) t → keyIsCluster k = true →
    exec i s = .next (past f (setPred f.d (if k / 4 ∈ t.mem.full then 0xFFFFFFFF#32 else 0#32) t))

end Sys2Proof

/-- 05 R149: the full/empty forms: LDF waits for a full word, reads it and empties it; LDFK reads it and leaves it full; STE waits
for an empty word, writes it and fills it; STFX writes and fills without waiting; FEQ tests without waiting. -/
def Obligations.FullEmptyWordsSynchronise : Prop :=
  (∀ f, LoadsFull (.ldf f) f.ext true) ∧ (∀ f, LoadsFull (.ldfExt f) f true) ∧
  (∀ f, LoadsFull (.ldfk f) f.ext false) ∧ (∀ f, LoadsFull (.ldfkExt f) f false) ∧
  (∀ f, StoresFull (.ste f) f.ext true) ∧ (∀ f, StoresFull (.steExt f) f true) ∧
  (∀ f, StoresFull (.stfx f) f.ext false) ∧ (∀ f, StoresFull (.stfxExt f) f false) ∧
  (∀ f, TestsFull (.feq f) f.ext) ∧ (∀ f, TestsFull (.feqExt f) f) ∧
  (∀ f, WaitsFull (.ldf f) f.ext [permLD, permST] .read true) ∧ (∀ f, WaitsFull (.ldfExt f) f [permLD, permST] .read true) ∧
  (∀ f, WaitsFull (.ldfk f) f.ext [permLD] .read true) ∧ (∀ f, WaitsFull (.ldfkExt f) f [permLD] .read true) ∧
  (∀ f, WaitsFull (.ste f) f.ext [permST] .write false) ∧ (∀ f, WaitsFull (.steExt f) f [permST] .write false)

/-! ## Streams (02 R65, R66, 05 R146, R147) -/

namespace Sys2Proof

open Machine

/-- Slot n may be named by SLD or SST: active, bound to nothing, of the form's direction (05 R146, R147); neither it nor a slot that
indexes it came back poisoned (13 R362). -/
def SlotServes (s : State) (n : Nat) (write : Bool) (accepts : Nat → Prop) : Prop :=
  let x := slotAt s.cur n
  SlotReadable s n ∧ x.active = true ∧ x.servesSlot = none ∧ x.pipeline = false ∧ x.record.write = write ∧
    accepts x.record.esize.toNat

/-- SLD to a g register completes with the next element, zero-extended; the slot has moved on. -/
def StreamLoadsG (i : Instr) (f : Ext) : Prop :=
  ∀ s s1 t k leaf addr, Runs i s → SlotServes s f.a.toNat false (· ≤ 3) → Writable s f.d →
    let x := slotAt s.cur f.a.toNat
    let size := 2 ^ x.record.esize.toNat
    nextElement f.a.toNat (begun s) = .ok (addr, s1) → s1.cur.g = s.cur.g →
    DerefPasses ⟨x.base, true⟩ addr size [permLD] → addr % size = 0 →
    Reaches s1 addr size .read false false (.bytes k leaf) t → keyIsView k = false →
    let m := t.mem.readied (eyeOf s1.cur) k size
    m.firstPoison k size = none →
    exec i s = .next (past f (setData f.d (loadedValue false (m.seenBytes (eyeOf s1.cur) k size)) { t with mem := m }))

/-- SLD to a v register completes: 128 bytes on a cluster core, 32 on a Lupin core. -/
def StreamLoadsV (i : Instr) (f : Ext) : Prop :=
  ∀ s s1 t k leaf addr, Runs i s → SlotServes s f.a.toNat false (· = if s.cur.pos.lupin then 5 else 7) →
    let x := slotAt s.cur f.a.toNat
    let size := 2 ^ x.record.esize.toNat
    nextElement f.a.toNat (begun s) = .ok (addr, s1) → s1.cur.v = s.cur.v → (vAt s.cur f.d.toNat).st ≠ .pending →
    DerefPasses ⟨x.base, true⟩ addr size [permLD] → addr % size = 0 →
    Reaches s1 addr size .read false false (.bytes k leaf) t → keyIsView k = false →
    let m := t.mem.readied (eyeOf s1.cur) k size
    m.firstPoison k size = none →
    let r : VReg := ⟨BitVec.ofNat 1024 (bytesNat (m.seenBytes (eyeOf s1.cur) k size)), .full⟩
    exec i s = .next (past f { t with mem := m, cur := { t.cur with v := t.cur.v.setIfInBounds f.d.toNat r } })

/-- SST completes: the low bytes of D, or the whole v register, are the next element, and no other byte changes. -/
def StreamStoresG (i : Instr) (f : Ext) : Prop :=
  ∀ s s1 t k leaf addr, Runs i s → SlotServes s f.a.toNat true (· ≤ 3) → Readable s f.d f.tb →
    let x := slotAt s.cur f.a.toNat
    let size := 2 ^ x.record.esize.toNat
    nextElement f.a.toNat (begun s) = .ok (addr, s1) →
    DerefPasses ⟨x.base, true⟩ addr size [permST] → addr % size = 0 →
    Reaches s1 addr size .write true (capHas x.base permFMTW) (.bytes k leaf) t → keyIsView k = false →
    ∃ m, exec i s = .next (past f { t with mem := m, nextId := t.nextId + 1 }) ∧
      (t.mem.wf = true → NoViews k t.mem → WritesCells k (natBytes size (regData s f.d).toNat) t.mem m)

def StreamStoresV (i : Instr) (f : Ext) : Prop :=
  ∀ s s1 t k leaf addr, Runs i s → SlotServes s f.a.toNat true (· = if s.cur.pos.lupin then 5 else 7) →
    f.d.toNat < 28 → (vAt s.cur f.d.toNat).st = .full →
    let x := slotAt s.cur f.a.toNat
    let size := 2 ^ x.record.esize.toNat
    nextElement f.a.toNat (begun s) = .ok (addr, s1) →
    DerefPasses ⟨x.base, true⟩ addr size [permST] → addr % size = 0 →
    Reaches s1 addr size .write true (capHas x.base permFMTW) (.bytes k leaf) t → keyIsView k = false →
    ∃ m, exec i s = .next (past f { t with mem := m, nextId := t.nextId + 1 }) ∧
      (t.mem.wf = true → NoViews k t.mem → WritesCells k (natBytes size (vAt s.cur f.d.toNat).val.toNat) t.mem m)

/-- The 64-bit words from an address on are read one after another, from state `s` to state `t`: each is reached, is neither a view's
nor poisoned, and is what the thread sees there. -/
def ReadsWords (addr : Nat) (ws : List DWord) (s t : State) : Prop :=
  match ws with
  | [] => t = s
  | w :: rest => ∃ u k leaf, Reaches s addr 8 .read false false (.bytes k leaf) u ∧ keyIsView k = false ∧
      (u.mem.readied (eyeOf s.cur) k 8).firstPoison k 8 = none ∧
      w = BitVec.ofNat 64 (bytesNat ((u.mem.readied (eyeOf s.cur) k 8).seenBytes (eyeOf s.cur) k 8)) ∧
      ReadsWords (addr + 8) rest { u with mem := u.mem.readied (eyeOf s.cur) k 8 } t

/-- SLOAD of a direct record completes: slot D holds the record and the base capability with its counters at zero, active when
no count is zero, and counts as poisoned no longer. -/
def LoadsSlot (i : Instr) (f : Ext) : Prop :=
  ∀ s t ws, Runs i s → Readable s f.a f.ta → Readable s f.b f.tb →
    let addr := capAddr (regCap s f.b).val
    let old := slotAt s.cur f.d.toNat
    old.servesSlot = none → old.pipeline = false → old.record.ind = false →
    DerefPasses (regCap s f.b) addr 64 [permLD] → addr % 8 = 0 →
    (regCap s f.a).tag = true → capType (regCap s f.a).val = 0 →
    ws.length = 8 → ReadsWords addr ws (begun s) t →
    recordClean ws = true → (recordOf ws).isize ≠ 3#2 → (recordOf ws).ind = false →
    let slot : Slot := { Slot.inactive with
      active := (recordOf ws).nest != 0, record := recordOf ws, base := (regCap s f.a).val }
    exec i s = .next (past f { t with cur := setSlot f.d.toNat slot { t.cur with bad := setDrop t.cur.bad (badSlot f.d.toNat) } })

end Sys2Proof

/-- 02 R66: a direct stream's next element is at base + START + the sum of counter times stride; dimension 0 varies fastest, and
the slot becomes inactive after its last element. -/
def Sys2Proof.StreamElementsFollowTheNestPart : Prop :=
  ∀ (s : State) (n : Nat) (c : Ctx), n < 8 → findCtx s s.cur.fid.ctx = some c → accessWaits s.cur = false → SlotReadable s n →
    let x := slotAt s.cur n
    let r := x.record
    r.ind = false →
    nextElement n s = .ok
      (((((capCursor x.base).toNat : Int) + (r.start.toInt + (x.index.getD 0#64).toInt * r.istride.toInt +
          (x.i0 : Int) * r.stride0.toInt + (x.i1 : Int) * r.stride1.toInt + (x.i2 : Int) * r.stride2.toInt +
          (x.i3 : Int) * r.stride3.toInt)) % 2 ^ 64).toNat,
        { s with cur := setSlot n (x.advance false) s.cur }) ∧
    (x.i0 + 1 < r.count0.toNat → (x.advance false).i0 = x.i0 + 1 ∧ (x.advance false).i1 = x.i1 ∧
      (x.advance false).active = x.active) ∧
    (x.i0 + 1 = r.count0.toNat → x.i1 + 1 < r.count1.toNat → (x.advance false).i0 = 0 ∧ (x.advance false).i1 = x.i1 + 1 ∧
      (x.advance false).active = x.active) ∧
    (x.i0 + 1 = r.count0.toNat → x.i1 + 1 = r.count1.toNat → x.i2 + 1 = r.count2.toNat → x.i3 + 1 = r.count3.toNat →
      (x.advance false).active = false)

/-- 05 R146, R147: SLOAD, SLD and SST. -/
def Sys2Proof.StreamFormsCompletePart : Prop :=
  (∀ f, LoadsSlot (.sload f) f.ext) ∧ (∀ f, LoadsSlot (.sloadExt f) f) ∧
  (∀ f, StreamLoadsG (.sldG f) f.ext) ∧ (∀ f, StreamLoadsG (.sldGExt f) f) ∧
  (∀ f, StreamLoadsV (.sldV f) f.ext) ∧ (∀ f, StreamLoadsV (.sldVExt f) f) ∧
  (∀ f, StreamStoresG (.sstG f) f.ext) ∧ (∀ f, StreamStoresG (.sstGExt f) f) ∧
  (∀ f, StreamStoresV (.sstV f) f.ext) ∧ (∀ f, StreamStoresV (.sstVExt f) f)

/-- 02 R66, 05 R146, R147: a stream's elements follow its nest of dimensions; SLOAD, SLD and SST complete. -/
def Obligations.StreamFormsComplete : Prop :=
  Sys2Proof.StreamElementsFollowTheNestPart ∧ Sys2Proof.StreamFormsCompletePart

/-! ## Stashes, lines and writer regions (05 R150 to R152, R172, R173) -/

namespace Sys2Proof

open Machine

/-- STASH of a mapping number that is not active completes: the core maps the local range onto the global one. -/
def Stashes (i : Instr) (f : Ext) : Prop :=
  ∀ s k core, Runs i s → Readable s f.a f.ta → Readable s f.b f.tb → f.d.toNat < 8 →
    let a := regCap s f.a
    let b := regCap s f.b
    let length := (capBounds a.val).2 - (capBounds a.val).1
    let g := capAddr b.val
    findCore s s.cur.pos = some core → core.stash.getD f.d.toNat none = none →
    a.tag = true → capType a.val = 0 → ownCoreKey (begun s) (capBounds a.val).1 length = some k →
    k % 128 = 0 → length % 128 = 0 → length ≤ 65536 →
    (∀ j x, j < 8 → j ≠ f.d.toNat → core.stash.getD j none = some x → overlaps k length x.localAt x.length = false) →
    DerefPasses b g length [permLD] → g / 2 ^ 50 = s.dev.number → g % 2 ^ 50 / 2 ^ 40 ≠ 0x3FF →
    (g + length - 1) / 2 ^ 50 = s.dev.number → (g + length - 1) % 2 ^ 50 / 2 ^ 40 ≠ 0x3FF →
    exec i s = .next (past f { begun s with
      cores := s.cores.map (fun c => if c.pos = coreOf s.cur.pos then
        { c with
          stash := c.stash.set f.d.toNat (some ⟨k, length, BitVec.ofNat 64 g, capHas b.val permST,
            capHas b.val permFMTW, s.cur.fid.ctx, []⟩) }
      else c) })

/-- UNSTASH completes: the mapping is gone; while no view line is held dirty, every byte outside its local range is as before;
without a mapping nothing changes. -/
def Unstashes (i : Instr) (f : Ext) : Prop :=
  ∀ s core, Runs i s → findCore s s.cur.pos = some core →
    (core.stash.getD f.d.toNat none = none → exec i s = .next (past f (begun s))) ∧
    (∀ x, core.stash.getD f.d.toNat none = some x → (∀ l ∈ x.valid, 128 * l + 128 ≤ x.length) →
      ∃ t, exec i s = .next (past f t) ∧ t.cur = (begun s).cur ∧
        (∃ c', findCore t s.cur.pos = some c' ∧ c'.stash.getD f.d.toNat none = none) ∧
        ((∀ v ∈ s.mem.views, v.dirty = false) →
          ∀ a, a < x.localAt ∨ x.localAt + x.length ≤ a → cellGet t.mem.cells a = cellGet s.mem.cells a))

/-- STASHWB completes and changes no byte. -/
def WritesBackStash (i : Instr) (f : Ext) : Prop :=
  ∀ s, Runs i s → ∃ m, exec i s = .next (past f { begun s with mem := m }) ∧ SameBytes m s.mem

/-- CLZERO completes: the line's 128 bytes are zero, its tags clear, and no other byte changes. -/
def ZeroesLine (i : Instr) (f : Ext) : Prop :=
  ∀ s t k leaf, Runs i s → Readable s f.a f.ta →
    let addr := memAddr (regCap s f.a) f 128
    DerefPasses (regCap s f.a) addr 128 [permST] → addr % 128 = 0 →
    Reaches (begun s) addr 128 .write true (capHas (regCap s f.a).val permFMTW) (.bytes k leaf) t → keyIsView k = false →
    ∃ m, exec i s = .next (past f { t with mem := m, nextId := t.nextId + 1 }) ∧
      (t.mem.wf = true → NoViews k t.mem → WritesCells k (List.replicate 128 0#8) t.mem m)

/-- CLWB and CLINV complete on a line of HBM, or on the two that 128 bytes behind a mapping lie in: no cache holds one dirty, and no
byte changes, but for those of the stashes that CLINV makes give them up. -/
def CleansLine (i : Instr) (f : Ext) (perm : Nat) (invalidates : Bool) : Prop :=
  ∀ s t k leaf, Runs i s → Readable s f.a f.ta →
    let line := memAddr (regCap s f.a) f 128 / 128 * 128
    DerefPasses (regCap s f.a) line 128 [perm] →
    Reaches (begun s) line 128 .read false false (.bytes k leaf) t → keyIsView k = false →
    ∃ u, exec i s = .next (past f u) ∧ u.cur = (begun s).cur ∧
      ((invalidates = true → ∀ c ∈ t.cores, ∀ x, some x ∈ c.stash → ∀ l ∈ x.valid, ∀ n ∈ linesOf k 128,
          stashHolds (128 * n) c.pos 0 t x l = false) →
        SameBytes u.mem t.mem ∧ u.cores = t.cores ∧ ∀ d ∈ u.mem.dirty, d.line ∉ linesOf k 128)

/-- HANDOVER completes: in a deterministic context the region's leaf entry names the new owner and nothing else of it changes, and the
band keeps what the release came after; in any other, and for a store address, it is a release only. -/
def HandsOver (i : Instr) (f : Ext) : Prop :=
  ∀ s c b, Runs i s → Readable s f.a f.ta → Readable s f.b f.tb → findCtx s s.cur.fid.ctx = some c → accessWaits s.cur = false →
    s.cur.duty = .firing → findBand s s.cur.fid.band = some b →
    let a := regCap s f.a
    let addr := capAddr a.val
    (b.packet.gangs ≤ (regData s f.b).toNat → exec i s = .next (afterTrap 0x05 (regData s f.a) s)) ∧
    ((regData s f.b).toNat < b.packet.gangs → DerefPasses a addr 1 [permST] →
      c.det = false ∨ addr % 2 ^ 50 / 2 ^ 40 = 0x3FF →
      ∃ m, exec i s = .next (past f { begun s with mem := m }) ∧ SameBytes m s.mem) ∧
    (∀ k e t, c.det = true → addr % 2 ^ 50 / 2 ^ 40 ≠ 0x3FF → (regData s f.b).toNat < b.packet.gangs →
      DerefPasses a addr 1 [permST] →
      translateIn c (some b) (some s.cur.pos) s.cur.pos.die [] addr 1 .fetch (begun s) = .ok (.bytes k (some e), t) →
      ownsRegion t e (.gang s.cur.fid.band s.cur.fid.gang) = true →
      let w := entryWithOwner (t.mem.word64 e) (some (s.cur.fid.band, (regData s f.b).toNat))
      ∃ m, exec i s = .next (past f { t with
          mem := m.put 4 e (natBytes 8 w.toNat)
          bands := t.bands.map (fun x => if x.entry = s.cur.fid.band then
            { x with handovers := x.handovers.filter (fun y => y.1 != e) ++ [(e, m.clockAt (eyeOf s.cur))] } else x) }) ∧
        SameBytes m t.mem)

/-- OWNQ completes: 65 in a context that is not deterministic, 67 for a store address, 64 for another device, and for a page 66 while
a loop holds its region, else its owner's gang or 64; it changes no byte, and only an answer of the thread's own gang is an
acquire. -/
def QueriesOwner (i : Instr) (f : Ext) : Prop :=
  ∀ s c, Runs i s → Readable s f.a f.ta → Writable s f.d → findCtx s s.cur.fid.ctx = some c →
    let addr := (regData s f.a).toNat
    let gives (x : Nat) : Prop := exec i s = .next (past f (setData f.d (BitVec.ofNat 64 x) (begun s)))
    (c.det = false → gives 65) ∧
    (c.det = true → addr % 2 ^ 50 / 2 ^ 40 = 0x3FF → gives 67) ∧
    (c.det = true → addr % 2 ^ 50 / 2 ^ 40 ≠ 0x3FF → addr / 2 ^ 50 ≠ s.dev.number → knownDevice s (addr / 2 ^ 50) = true →
      gives 64) ∧
    (∀ l, c.det = true → addr % 2 ^ 50 / 2 ^ 40 ≠ 0x3FF → addr / 2 ^ 50 = s.dev.number →
      walk s.mem c (addr % 2 ^ 50) = some l →
      let x := if (regionLoop s l.entryAt).isSome then 66 else
        match liveOwner s l.entryAt with
        | some (_, gang) => gang
        | none => 64
      ∃ m, exec i s = .next (past f (setData f.d (BitVec.ofNat 64 x) { begun s with mem := m })) ∧ SameBytes m s.mem ∧
        ((regionLoop s l.entryAt).isSome = true ∨ liveOwner s l.entryAt ≠ some (s.cur.fid.band, s.cur.fid.gang) → m = s.mem))

end Sys2Proof

/-- 05 R150 to R152: STASH, UNSTASH, STASHWB, PREF, CLZERO, CLWB and CLINV complete; only CLZERO, and UNSTASH and
CLINV in the store of a stash, change bytes. -/
def Sys2Proof.StashAndLineFormsCompletePart : Prop :=
  (∀ f, Stashes (.stash f) f.ext) ∧ (∀ f, Stashes (.stashExt f) f) ∧
  (∀ f, Unstashes (.unstash f) f.ext) ∧ (∀ f, Unstashes (.unstashExt f) f) ∧
  (∀ f, WritesBackStash (.stashwb f) f.ext) ∧ (∀ f, WritesBackStash (.stashwbExt f) f) ∧
  (∀ f s, Runs (.pref f) s → exec (.pref f) s = .next (past f.ext (begun s))) ∧
  (∀ f s, Runs (.prefExt f) s → exec (.prefExt f) s = .next (past f (begun s))) ∧
  (∀ f, ZeroesLine (.clzero f) f.ext) ∧ (∀ f, ZeroesLine (.clzeroExt f) f) ∧
  (∀ f, CleansLine (.clwb f) f.ext permLD false) ∧ (∀ f, CleansLine (.clwbExt f) f permLD false) ∧
  (∀ f, CleansLine (.clinv f) f.ext permST true) ∧ (∀ f, CleansLine (.clinvExt f) f permST true)

/-- 05 R172, R173: HANDOVER and OWNQ.  That HANDOVER's address translates as a fetch does, and that OWNQ answers 64 for another
device, rest on notes/assumptions/22.md, not on the rules' words. -/
def Sys2Proof.WriterRegionsChangeHandsPart : Prop :=
  (∀ f, HandsOver (.handover f) f.ext) ∧ (∀ f, HandsOver (.handoverExt f) f) ∧
  (∀ f, QueriesOwner (.ownq f) f.ext) ∧ (∀ f, QueriesOwner (.ownqExt f) f)

/-- 05 R150 to R152, R172, R173: STASH, UNSTASH, STASHWB, PREF, CLZERO, CLWB and CLINV complete; HANDOVER passes a writer region on and OWNQ
reads its owner.  The fetch translation of HANDOVER and OWNQ's 64 for another device are the model's readings
(notes/assumptions/22.md). -/
def Obligations.LineFormsAndWriterRegionsComplete : Prop :=
  Sys2Proof.StashAndLineFormsCompletePart ∧ Sys2Proof.WriterRegionsChangeHandsPart

/-! ## Atomics and barriers (05 R153 to R157, R160 to R162) -/

namespace Sys2Proof

open Machine

/-- Combine of 05 R153 at a width, by operation code. -/
def atomicNew (op w : Nat) (old operand : BitVec w) : BitVec w :=
  match op with
  | 0 => old + operand
  | 1 => if operand.slt old then operand else old
  | 2 => if old.slt operand then operand else old
  | 3 => if operand.ult old then operand else old
  | 4 => if old.ult operand then operand else old
  | 5 => old &&& operand
  | 6 => old ||| operand
  | 7 => old ^^^ operand
  | _ => operand

/-- FMT fixes the width in bits: 64 for I64 and FP64, else 32. -/
def widthOfFmt (f : Ext) : Nat := if f.fmt = 13#4 ∨ f.fmt = 0#4 then 64 else 32

/-- An old value in D: sign-extended for I32, else zero-extended. -/
def oldInD (f : Ext) (old : Nat) : DWord :=
  if f.fmt = 11#4 then (BitVec.ofNat 32 old).signExtend 64 else BitVec.ofNat 64 old

/-- D has a producer pending, and its value is on its way from an address. -/
def sentTo (n : BitVec 6) (x : DWord) (addr : Nat) (s : State) : State :=
  if n = 0#6 then s
  else
    { s with cur := { s.cur with
        g := s.cur.g.set n.toNat { s.cur.g[n.toNat] with st := .pending }
        inFlight := s.cur.inFlight ++ [⟨n.toNat, x, none, BitVec.ofNat 64 addr, s.cur.pc, (regOf s n).st, s.dev.cycle⟩] } }

/-- An atomic completes: its location holds `new old`, and a returning form sends the old value to D. -/
def AtomicAt (i : Instr) (f : Ext) (returns : Bool) (new : State → Nat → Nat) : Prop :=
  ∀ s t c k leaf, Runs i s → findCtx s s.cur.fid.ctx = some c → (returns = true → c.det = false) →
    Readable s f.a f.ta → Readable s f.b f.tb → (returns = true → Writable s f.d) →
    let size := widthOfFmt f / 8
    let addr := memAddr (regCap s f.a) f 1
    DerefPasses (regCap s f.a) addr size (if returns then [permLD, permST] else [permST]) → addr % size = 0 →
    Reaches (begun s) addr size .write returns (capHas (regCap s f.a).val permFMTW) (.bytes k leaf) t → keyIsView k = false →
    (cleared t.mem k size).firstPoison k size = none →
    (f.ord.getLsbD 1 = true → f.scope.toNat < 4 ∨ t.cur.remoteStores = []) →
    ∃ old m, exec i s = .next (past f ((if returns then sentTo f.d (oldInD f old) addr else id)
        { t with mem := m, nextId := t.nextId + 1 })) ∧
      (t.mem.wf = true → NoViews k t.mem →
        old = bytesNat (t.mem.bytes k size) ∧ WritesCells k (natBytes size (new s old)) t.mem m)

/-- A returning atomic of a deterministic context traps with cause 0x0B before any other check (05 R156). -/
def TrapsInDet (i : Instr) : Prop :=
  ∀ s c, Runs i s → findCtx s s.cur.fid.ctx = some c → c.det = true → exec i s = .next (afterTrap 0x0B 0#64 s)

/-- The operand register at the atomic's width. -/
def operandAt (f : Ext) (n : BitVec 6) (s : State) : Nat := (regData s n).toNat % 2 ^ widthOfFmt f

/-- `combine` of the operand with the old value. -/
def combined (f : Ext) (s : State) (old : Nat) : Nat :=
  (atomicNew f.sub.toNat (widthOfFmt f) (BitVec.ofNat _ old) (BitVec.ofNat _ (operandAt f f.b s))).toNat

end Sys2Proof

/-- 05 R153, R154, R156: AMO, AMOCAS, AMON and AMOF replace the value at their location by R153's Combine and change no other
byte; the returning forms send the old value to D, which has a producer pending until it arrives, and trap with cause 0x0B in a deterministic context. -/
def Obligations.AtomicsReplaceTheirLocation : Prop :=
  (∀ f, AtomicAt (.amo f) f true (combined f)) ∧ (∀ f, TrapsInDet (.amo f)) ∧
  (∀ f s, Readable s f.c f.tc → ∀ t c k leaf, Runs (.amocas f) s → findCtx s s.cur.fid.ctx = some c → c.det = false →
    Readable s f.a f.ta → Readable s f.b f.tb → Writable s f.d →
    let size := widthOfFmt f / 8
    let addr := memAddr (regCap s f.a) f 1
    DerefPasses (regCap s f.a) addr size [permLD, permST] → addr % size = 0 →
    Reaches (begun s) addr size .write true (capHas (regCap s f.a).val permFMTW) (.bytes k leaf) t → keyIsView k = false →
    (cleared t.mem k size).firstPoison k size = none → (f.ord.getLsbD 1 = true → f.scope.toNat < 4 ∨ t.cur.remoteStores = []) →
    ∃ old m, exec (.amocas f) s = .next (past f (sentTo f.d (oldInD f old) addr { t with mem := m, nextId := t.nextId + 1 })) ∧
      (t.mem.wf = true → NoViews k t.mem → old = bytesNat (t.mem.bytes k size) ∧
        WritesCells k (natBytes size (if old = operandAt f f.b s then operandAt f f.c s else old)) t.mem m)) ∧
  (∀ f, TrapsInDet (.amocas f)) ∧
  (∀ f, AtomicAt (.amon f) f false (combined f)) ∧
  (∀ f, f.sub = 0#8 → AtomicAt (.amof f) f false (fun s old =>
    ((Fp.ofFmt f.fmt.toNat).add (Rm.ofCode f.rm.toNat) 0 old (operandAt f f.b s)).1)) ∧
  (∀ f, f.sub = 1#8 → AtomicAt (.amof f) f true (fun s old =>
    ((Fp.ofFmt f.fmt.toNat).add (Rm.ofCode f.rm.toNat) 0 old (operandAt f f.b s)).1)) ∧
  (∀ f, f.sub = 1#8 → TrapsInDet (.amof f))

namespace Sys2Proof

open Machine

/-- Complete() of 05 R161. -/
def completed (b : BarrierWord) : BarrierWord :=
  if b.arrived = b.expected ∧ b.pending = 0 then ⟨1 - b.phase, b.expected, 0, b.pending, b.reserved⟩ else b

/-- A barrier form reaches the barrier word at its store: 16 bytes of a cluster store, readable and writable. -/
def ReachesBarrier (s : State) (f : Ext) (kind : Kind) (k : Nat) (t : State) : Prop :=
  ∃ leaf, DerefPasses (regCap s f.a) (capAddr (regCap s f.a).val) 16 [permLD, permST] ∧
    capAddr (regCap s f.a).val % 16 = 0 ∧
    Reaches (begun s) (capAddr (regCap s f.a).val) 16 kind false false (.bytes k leaf) t ∧
    keyIsCluster k = true

/-- The barrier word that memory holds at a key. -/
def barrierAt (m : Memory) (k : Nat) : BarrierWord := barrierOf (bytesNat (m.bytes k 16))

/-- An arrival with `bytes` completes while ARRIVED < EXPECTED, with the phase it joined in D; else it waits. -/
def Arrives (i : Instr) (f : Ext) (readsB : Bool) (bytes : State → Int) : Prop :=
  ∀ s t k, Runs i s → Readable s f.a f.ta → (readsB = true → Readable s f.b f.tb) → Writable s f.d →
    ReachesBarrier s f .write k t → t.mem.firstPoison k 16 = none →
    let b := barrierAt t.mem k
    (b.arrived < b.expected → (f.scope.toNat < 4 ∨ t.cur.remoteStores = []) →
      ∃ m, exec i s = .next (past f (setData f.d (BitVec.ofNat 64 b.phase) { t with mem := m, nextId := t.nextId + 1 })) ∧
        (t.mem.wf = true → WritesCells k (natBytes 16 (barrierNat (completed
          { b with arrived := b.arrived + 1, pending := ((b.pending + bytes s) % 2 ^ 48).toNat }))) t.mem m)) ∧
    (b.expected ≤ b.arrived → exec i s = .next (noteWait s))

/-- BINIT completes for a count of 1 to 32,767, and traps with cause 0x05 for any other. -/
def InitsBarrier (i : Instr) (f : Ext) : Prop :=
  ∀ s t k, Runs i s → Readable s f.a f.ta → Readable s f.b f.tb → ReachesBarrier s f .write k t →
    let n := (regData s f.b).toNat
    (1 ≤ n → n ≤ 32767 → ∃ m, exec i s = .next (past f { t with mem := m, nextId := t.nextId + 1 }) ∧
      (t.mem.wf = true → WritesCells k (natBytes 16 (barrierNat ⟨0, n, 0, 0, 0⟩)) t.mem m)) ∧
    (n = 0 ∨ 32767 < n → exec i s = .next (afterTrap 0x05 (regData s f.a) s))

/-- BBYTES completes: PENDING + B modulo 2^48, then Complete(). -/
def AddsBytes (i : Instr) (f : Ext) : Prop :=
  ∀ s t k, Runs i s → Readable s f.a f.ta → Readable s f.b f.tb → ReachesBarrier s f .write k t → t.mem.firstPoison k 16 = none →
    let b := barrierAt t.mem k
    ∃ m, exec i s = .next (past f { t with mem := m, nextId := t.nextId + 1 }) ∧
      (t.mem.wf = true → WritesCells k (natBytes 16 (barrierNat (completed
        { b with pending := ((b.pending + (regData s f.b).toInt) % 2 ^ 48).toNat }))) t.mem m)

/-- BWAIT completes, changing no byte, when the phase differs from its token, and waits otherwise; BTEST never waits. -/
def WaitsPhase (i : Instr) (f : Ext) : Prop :=
  ∀ s t k, Runs i s → Readable s f.a f.ta → Readable s f.b f.tb → ReachesBarrier s f .read k t → t.mem.firstPoison k 16 = none →
    ((barrierAt t.mem k).phase ≠ (regData s f.b).toNat % 2 →
      ∃ m, exec i s = .next (past f { t with mem := m }) ∧ m.cells = t.mem.cells ∧ m.tags = t.mem.tags) ∧
    ((barrierAt t.mem k).phase = (regData s f.b).toNat % 2 → exec i s = .next (noteWait s))

def TestsPhase (i : Instr) (f : Ext) : Prop :=
  ∀ s t k, Runs i s → Readable s f.a f.ta → Readable s f.b f.tb → ReachesBarrier s f .read k t → t.mem.firstPoison k 16 = none →
    ∃ m, exec i s = .next (past f (setPred f.d
        (if (barrierAt t.mem k).phase ≠ (regData s f.b).toNat % 2 then 0xFFFFFFFF#32 else 0#32) { t with mem := m })) ∧
      m.cells = t.mem.cells ∧ m.tags = t.mem.tags

end Sys2Proof

/-- 05 R160 to R162: BINIT, BARR, BARRX, BWAIT, BTEST and BBYTES act on the barrier word as R161's Arrive and Complete say. -/
def Obligations.BarriersCountArrivals : Prop :=
  (∀ f, InitsBarrier (.binit f) f.ext) ∧ (∀ f, InitsBarrier (.binitExt f) f) ∧
  (∀ f, Arrives (.barr f) f.ext false (fun _ => 0)) ∧ (∀ f, Arrives (.barrExt f) f false (fun _ => 0)) ∧
  (∀ f, Arrives (.barrx f) f.ext true (fun s => (regData s f.b).toInt)) ∧
  (∀ f, Arrives (.barrxExt f) f true (fun s => (regData s f.b).toInt)) ∧
  (∀ f, WaitsPhase (.bwait f) f.ext) ∧ (∀ f, WaitsPhase (.bwaitExt f) f) ∧
  (∀ f, TestsPhase (.btest f) f.ext) ∧ (∀ f, TestsPhase (.btestExt f) f) ∧
  (∀ f, AddsBytes (.bbytes f) f.ext) ∧ (∀ f, AddsBytes (.bbytesExt f) f)

/-! ## Ordered atomics (05 R157) -/

namespace Sys2Proof

open Machine

/-- Every store and atomic of the thread to another device is acknowledged or answered, and none failed (05 R158). -/
def AllAnswered (s : State) : Prop := s.cur.remoteStores = [] ∧ ∀ r ∈ s.cur.inFlight, r.away = none

/-- The request that an AMOQ sends. -/
def amoqRequest (s : State) (f : Ext) (m : AmoqMsg) : Prop :=
  m.issuer = s.cur.fid ∧ m.path = s.cur.pathw ∧ m.window = f.imm.toNat % 64 ∧ m.interval = (regData s f.a).toNat % 2 ^ 32 ∧
    m.addend = regData s f.b ∧ m.reg = f.d.toNat ∧ m.order = s.nextId ∧ m.resume = nextPc s.cur f ∧ m.core = coreOf s.cur.pos ∧
    m.ord = f.ord ∧ m.scope = f.scope.toNat

/-- AMOQ sends its request to the window once, and waits for its answer; as a release it first makes the thread's earlier writes
visible at its scope, and its request carries them. -/
def SendsAmoq (i : Instr) (f : Ext) : Prop :=
  ∀ s c, Runs i s → findCtx s s.cur.fid.ctx = some c → Readable s f.a f.ta → Readable s f.b f.tb → Writable s f.d →
    let mine (m : AmoqMsg) : Bool := m.issuer == s.cur.fid && m.resume == nextPc s.cur f
    (s.net.amoqs.any mine = false → c.windows.toList.any (fun w => w.held.any mine) = false →
      (f.ord.getLsbD 1 = true → f.scope.toNat < 4 ∨ AllAnswered s) →
      ∃ m mem, amoqRequest s f m ∧ SameBytes mem s.mem ∧ (f.ord.getLsbD 1 = false → mem = s.mem ∧ m.clock = []) ∧
        (f.ord.getLsbD 1 = true → m.clock = mem.clockAt (eyeOf s.cur)) ∧
        exec i s = .next (noteWait
          { s with mem := mem, net := { s.net with amoqs := s.net.amoqs ++ [m] }, nextId := s.nextId + 1 })) ∧
    (s.net.amoqs.any mine = true → exec i s = .next (noteWait s))

/-- A window that is closed to a request, by R157: no BATCH, an interval outside the open 256, or one already full. -/
def WindowRefuses (w : AmoqWindow) (m : AmoqMsg) : Prop :=
  w.batch = 0 ∨ m.interval < w.next ∨ w.next + 256 ≤ m.interval ∨
    w.batch ≤ (w.accepted.filter (fun x => x.interval == m.interval)).length

/-- A window takes a request: it is not refused, nothing is held before it, and its 32 bytes have room. -/
def WindowTakes (w : AmoqWindow) (m : AmoqMsg) : Prop :=
  ¬ WindowRefuses w m ∧ w.held = [] ∧ 32 * (w.accepted.length + 1) ≤ w.area

/-- The sum of the addends of requests, modulo 2^64. -/
def addends (ms : List AmoqMsg) : DWord := ms.foldl (fun x m => x + m.addend) 0#64

/-- The requests of a closing interval are answered in order: each with the counter plus the addends before it, and, where it
acquires, after the releases before it, those of closed intervals among them (02 R64). -/
def answersInOrder : List AmoqMsg → DWord → List (Nat × Pos × List Nat) → State → List (Nat × Pos × List Nat) × State
  | [], _, before, s => (before, s)
  | m :: rest, sum, before, s =>
    answersInOrder rest (sum + m.addend)
      (if m.ord.getLsbD 1 = true ∧ s.mem.unseen ≠ [] then before ++ [(m.scope, m.core, m.clock)] else before)
      (amoqGive m sum before s)

end Sys2Proof

/-- 05 R157: AMOQ sends its request and waits until its window answers; a request that arrives leaves the fabric; a refused one traps
0x05 with window and interval in TINFO; an accepted one that does not fill its interval is kept, D is left empty with a producer
pending, and the firing goes on; one that the area has no room for is held, and the host hears of the full area once; one that fills
the oldest open interval closes it: its requests, sorted by PATH, GANG, FIRING, INSTANCE and issue order, are answered with the
counter plus the addends before them, and the counter and next_interval move on.  An arrival that names no request changes nothing
(log 6, the model's choice). -/
def Obligations.OrderedAtomicsAreAnsweredByTheirWindow : Prop :=
  (∀ f, SendsAmoq (.amoq f) f) ∧
  (∀ (index : Nat) (s : State) (m : AmoqMsg) (c : Ctx), s.net.amoqs[index]? = some m → findCtx s m.issuer.ctx = some c →
    m.window < 64 →
    let w := windowOfCtx s m.issuer.ctx m.window
    let u : State := { s with net := { s.net with amoqs := s.net.amoqs.eraseIdx index } }
    let begins := modFiring m.issuer (fun t => { t with
      g := if m.reg = 0 then t.g else t.g.setIfInBounds m.reg { t.g.getD m.reg GReg.zero with st := .pending }
      pc := m.resume
      amoqWaits := if m.ord.getLsbD 0 then t.amoqWaits ++ [m.order] else t.amoqWaits
      waitFrom := none })
    let accepted := begins (modWindow m.issuer.ctx m.window (fun w => { w with accepted := w.accepted ++ [m] }) u)
    (WindowRefuses w m → w.held = [] → (w.accepted.filter (fun x => x.interval == w.next)).length < w.batch ∨ w.batch = 0 →
      exec (.amoqArrival index) s = .next (trapFiring m.issuer 0x05 (w64 (m.window * 2 ^ 32 + m.interval)) u)) ∧
    (WindowTakes w m → ((w.accepted ++ [m]).filter (fun x => x.interval == w.next)).length < w.batch →
      exec (.amoqArrival index) s = .next accepted) ∧
    (¬ WindowRefuses w m → w.held = [] → w.area < 32 * (w.accepted.length + 1) →
      (w.accepted.filter (fun x => x.interval == w.next)).length < w.batch →
      let v := modWindow m.issuer.ctx m.window (fun w => { w with held := [m] }) u
      exec (.amoqArrival index) s = .next
        (if w.told then v
         else modWindow m.issuer.ctx m.window (fun w => { w with told := true })
           (ctxFault m.issuer.ctx 10 0x15 m.path 0#64 0#64 (w64 m.window) v))) ∧
    (∀ ms : List AmoqMsg, WindowTakes w m → m.interval = w.next →
      ms.Perm ((w.accepted ++ [m]).filter (fun x => x.interval == w.next)) → ms.length = w.batch →
      ms.Pairwise (fun x y => amoqKey x < amoqKey y) →
      (w.accepted.filter (fun x => x.interval == w.next + 1)).length < w.batch →
      let r := answersInOrder ms w.counter w.releases accepted
      exec (.amoqArrival index) s = .next (modWindow m.issuer.ctx m.window
        (fun x => { x with
          counter := w.counter + addends ms
          next := x.next + 1
          accepted := x.accepted.filter (fun y => y.interval != x.next)
          told := false
          releases := r.1 })
        r.2))) ∧
  (∀ (index : Nat) (s : State), s.net.amoqs[index]? = none → exec (.amoqArrival index) s = .next s)

/-! ## Copies (05 R163 to R167, R170) -/

namespace Sys2Proof

open Machine

/-- The fields of a copy request that R163 leaves legal. -/
def CopyFieldsLegal (f : Ext) (w : DWord) : Prop :=
  w.getLsbD 63 = false ∧ (f.imm.getLsbD 9 = false → w.extractLsb' 37 26 = 0#26) ∧
    (f.imm.getLsbD 8 = false → w.extractLsb' 25 12 = 0#12) ∧
    ((f.imm.extractLsb' 12 4).toNat = 2 → w.extractLsb' 3 22 = 0#22) ∧
    ((f.imm.extractLsb' 12 4).toNat ≠ 0 → f.a = 0#6) ∧ (f.imm.extractLsb' 12 4).toNat ≤ 2

/-- The channel of a copy request and its next identifier. -/
def copyChannel (f : Ext) : Nat := (f.imm.extractLsb' 0 2).toNat

/-- The copy FIFO and, for a copy into the issuing core's store, the scoreboard have room (R163, R164). -/
def CopyRoom (c : CoreState) (own : Bool) : Prop :=
  ((c.channels.flatMap (·.live)).filter (fun x => !x.started)).length < 16 ∧
    (own = true → ((c.channels.flatMap (·.live)).filter (·.ownStore)).length < 16)

/-- The state after a request x is pushed: the channel holds it and its next identifier, and the first that goes to another device;
an empty one has retired. -/
def copyIssued (channel : Nat) (x : Xfer) (s : State) : State :=
  modChannel s.cur.pos channel (fun ch =>
    { ch with
      nextId := x.id + 1
      firstAway := if x.destAt.toNat / 2 ^ 50 ≠ s.dev.number then ch.firstAway.or (some x.id) else ch.firstAway
      live := if x.packets = 0 then ch.live else ch.live ++ [x] })
  { s with nextId := s.nextId + 1 }

/-- What a request of kind 0 or 1 asks for. -/
def CopyAsks (s : State) (f : Ext) (det : Bool) (id : Nat) (src dst : DWord) (x : Xfer) : Prop :=
  x.id = id ∧ x.seq = s.nextId ∧ x.kind = (f.imm.extractLsb' 12 4).toNat ∧ x.issuer = s.cur.fid ∧ x.writer = writerOf s.cur ∧
    x.det = det ∧ x.source = (regCap s f.a).val ∧ x.dest = (regCap s f.c).val ∧ x.sourceAt = src ∧ x.destAt = dst ∧
    x.started = false ∧ x.done = [] ∧ x.landing = [] ∧ x.cancelled = false ∧ x.ownStore = isOwnStore s dst

/-- XCOPY and XCOPYT of a linear copy or a zero fill complete: D holds the channel's next identifier; with no room XCOPY waits and
XCOPYT writes 1. -/
def CopiesLinear (i : Instr) (f : Ext) (tests : Bool) : Prop :=
  ∀ s c core src dst, Runs i s → findCtx s s.cur.fid.ctx = some c → findCore s s.cur.pos = some core →
    Readable s f.a f.ta → BReadable s f → Readable s f.c f.tc →
    let w := bData s f
    let kind := (f.imm.extractLsb' 12 4).toNat
    let length := (w.extractLsb' 0 25).toNat
    let id := (core.channels.getD (copyChannel f) ⟨2, none, [], [], none⟩).nextId
    CopyFieldsLegal f w → kind ≤ 1 →
    (kind = 0 → DerefPasses (regCap s f.a) (capAddr (regCap s f.a).val) length [permLD, permXFER]) →
    DerefPasses (regCap s f.c) (capAddr (regCap s f.c).val) length [permST, permXFER] →
    (length ≤ 2 ^ 24 →
      (if kind = 0 then absoluteAddress (capAddr (regCap s f.a).val) (begun s) = .ok (src, begun s) else src = 0#64) →
      absoluteAddress (capAddr (regCap s f.c).val) (begun s) = .ok (dst, begun s) →
      (f.imm.getLsbD 8 = true → inStores dst = true) →
      (f.imm.getLsbD 9 = true → dst.toNat / 2 ^ 50 = s.dev.number →
        clusterAllotted s s.cur.fid.ctx (w.extractLsb' 61 2).toNat (w.extractLsb' 55 6).toNat
          ((w.extractLsb' 37 18).toNat * 16) 16 = true) →
      (CopyRoom core (isOwnStore s dst) → Writable s f.d →
        ∃ x, CopyAsks s f c.det id src dst x ∧ x.length = length ∧
          x.tags = (f.imm.getLsbD 10 && capHas (regCap s f.a).val permLDCAP && capHas (regCap s f.c).val permSTCAP) ∧
          x.land = (if f.imm.getLsbD 8 then some (w.extractLsb' 25 12).toNat else none) ∧
          x.barrier = (if f.imm.getLsbD 9 && dst.toNat / 2 ^ 50 == s.dev.number then
            some (clusterKey (w.extractLsb' 61 2).toNat (w.extractLsb' 55 6).toNat ((w.extractLsb' 37 18).toNat * 16)) else none) ∧
          exec i s = .next (past f (setData f.d (w64 id) (copyIssued (copyChannel f) x (begun s))))) ∧
      (¬ CopyRoom core (isOwnStore s dst) →
        if tests then Writable s f.d → exec i s = .next (past f (setData f.d 1#64 (begun s)))
        else exec i s = .next (noteWait s))) ∧
    (2 ^ 24 < length → exec i s = .next (afterTrap 0x14 (w64 (copyChannel f)) s))

/-- XCOPY and XCOPYT with a stream source complete: the copy is as long as what the slot has left, it reads a snapshot of the slots
with their bases' gang and core forms resolved beside it (08 R242), and the slots do not change. -/
def CopiesStream (i : Instr) (f : Ext) : Prop :=
  ∀ s c core dst bases, Runs i s → findCtx s s.cur.fid.ctx = some c → findCore s s.cur.pos = some core →
    Readable s f.a f.ta → BReadable s f → Readable s f.c f.tc →
    let w := bData s f
    let slot := slotAt s.cur (w.extractLsb' 0 3).toNat
    let chain := (slotChain s.cur 8 (w.extractLsb' 0 3).toNat).map (slotAt s.cur)
    let length := streamLeft chain * slot.size
    let id := (core.channels.getD (copyChannel f) ⟨2, none, [], [], none⟩).nextId
    CopyFieldsLegal f w → (f.imm.extractLsb' 12 4).toNat = 2 →
    SlotReadable s (w.extractLsb' 0 3).toNat → slot.active = true → slot.record.write = false → capHas slot.base permLD = true → capHas slot.base permXFER = true →
    DerefPasses (regCap s f.c) (capAddr (regCap s f.c).val) length [permST, permXFER] →
    length ≤ 2 ^ 24 →
    List.Forall₂ (fun (y : Slot) (z : QWord × DWord) =>
      z.1 = y.base ∧ absoluteAddress (capAddr y.base) (begun s) = .ok (z.2, begun s)) chain bases →
    absoluteAddress (capAddr (regCap s f.c).val) (begun s) = .ok (dst, begun s) →
    (f.imm.getLsbD 8 = true → inStores dst = true) →
    (f.imm.getLsbD 9 = true → dst.toNat / 2 ^ 50 = s.dev.number →
      clusterAllotted s s.cur.fid.ctx (w.extractLsb' 61 2).toNat (w.extractLsb' 55 6).toNat
        ((w.extractLsb' 37 18).toNat * 16) 16 = true) →
    CopyRoom core (isOwnStore s dst) → Writable s f.d →
    ∃ x, CopyAsks s f c.det id 0#64 dst x ∧ x.length = length ∧ x.stream = chain ∧ x.bases = bases ∧ x.esize = slot.size ∧
      exec i s = .next (past f (setData f.d (w64 id) (copyIssued (copyChannel f) x (begun s))))

/-- XGATH completes: COUNT elements of the table, chosen by the indices, are a transfer of the channel; the table's bounds are
checked for each index, not at issue. -/
def Gathers (i : Instr) (f : Ext) : Prop :=
  ∀ s c core src ix dst, Runs i s → findCtx s s.cur.fid.ctx = some c → findCore s s.cur.pos = some core →
    Readable s f.a f.ta → Readable s f.b f.tb → Readable s f.c f.tc →
    let esize := 2 ^ (f.imm.extractLsb' 28 4).toNat
    let channel := (f.imm.extractLsb' 26 2).toNat
    let count := (f.imm.extractLsb' 0 20).toNat
    let id := (core.channels.getD channel ⟨2, none, [], [], none⟩).nextId
    (regCap s f.a).tag = true → capType (regCap s f.a).val = 0 → capHas (regCap s f.a).val permLD = true →
    capHas (regCap s f.a).val permXFER = true →
    DerefPasses (regCap s f.b) (capAddr (regCap s f.b).val) (4 * count) [permLD, permXFER] →
    DerefPasses (regCap s f.c) (capAddr (regCap s f.c).val) (count * esize) [permST, permXFER] →
    absoluteAddress (capAddr (regCap s f.a).val) (begun s) = .ok (src, begun s) →
    absoluteAddress (capAddr (regCap s f.b).val) (begun s) = .ok (ix, begun s) →
    absoluteAddress (capAddr (regCap s f.c).val) (begun s) = .ok (dst, begun s) →
    CopyRoom core (isOwnStore s dst) → Writable s f.d →
    ∃ x, x.id = id ∧ x.seq = s.nextId ∧ x.kind = 3 ∧ x.issuer = s.cur.fid ∧ x.source = (regCap s f.a).val ∧
      x.dest = (regCap s f.c).val ∧ x.sourceAt = src ∧ x.indexAt = ix ∧ x.destAt = dst ∧ x.esize = esize ∧
      x.count = count ∧ x.length = count * esize ∧ x.land = none ∧ x.barrier = none ∧
      exec i s = .next (past f (setData f.d (w64 id) (copyIssued channel x (begun s))))

end Sys2Proof

/-- 05 R163, R164, R170: XCOPY, XCOPYT and XGATH push their request, and D receives the channel's next transfer identifier. -/
def Obligations.CopiesTakeTheNextIdentifier : Prop :=
  (∀ f, CopiesLinear (.xcopy f) f false) ∧ (∀ f, CopiesLinear (.xcopyt f) f true) ∧
  (∀ f, CopiesStream (.xcopy f) f) ∧ (∀ f, CopiesStream (.xcopyt f) f) ∧ (∀ f, Gathers (.xgath f) f)

namespace Sys2Proof

open Machine

/-- The core's channel that a completion form names. -/
def namedChannel (core : CoreState) (f : Ext) : Channel := core.channels.getD f.a.toNat ⟨2, none, [], [], none⟩

/-- XWAIT completes once every transfer up to B has retired and none of them holds an unreported fault; else it waits, or reports
the channel's record, which clears it.  It is an acquire at dev scope, at sys scope once a transfer of the channel up to B went to
another device. -/
def WaitsCopies (i : Instr) (f : Ext) : Prop :=
  ∀ s core, Runs i s → Readable s f.b f.tb → findCore s s.cur.pos = some core →
    let ch := namedChannel core f
    let b := (regData s f.b).toNat
    let completes := exec i s = .next (past f (released (if ∃ n, ch.firstAway = some n ∧ n ≤ b then 4 else 3) (begun s)))
    (ch.done ≤ b → exec i s = .next (noteWait s)) ∧
    (b < ch.done → ch.record = none → completes) ∧ (b < ch.done → (∀ x ∈ ch.faulted, b < x.1) → completes) ∧
    (∀ r x, b < ch.done → ch.record = some r → x ∈ ch.faulted → x.1 ≤ b →
      exec i s = .next (takeTrap 0x14 (copyRecord f.a.toNat r) (clearFaults s.cur.pos f.a.toNat (dropWaits (agentId s.cur) s))))

/-- XSTAT completes with the transfer's state: 4 unissued, 1 in flight, 2 faulted and unreported with its inner cause, 0 retired. -/
def StatesCopies (i : Instr) (f : Ext) : Prop :=
  ∀ s core, Runs i s → Readable s f.b f.tb → Writable s f.d → findCore s s.cur.pos = some core →
    exec i s = .next (past f (setData f.d (w64
      (let ch := namedChannel core f
       let b := (regData s f.b).toNat
       if b < 2 ∨ ch.nextId ≤ b then 4
       else if ∃ x ∈ ch.live, x.id = b then 1
       else match ch.faulted.find? (·.1 == b) with
         | some x => 2 + x.2 * 256
         | none => 0)) (begun s)))

/-- XCANCEL completes: transfer B of the channel is cancelled; a cancelled transfer is gone at once unless a packet of it is with a
landing handler. -/
def CancelsCopies (i : Instr) (f : Ext) : Prop :=
  ∀ s core, Runs i s → Readable s f.b f.tb → findCore s s.cur.pos = some core →
    let b := (regData s f.b).toNat
    exec i s = .next (past f (modChannel s.cur.pos f.a.toNat (fun ch => { ch with
      live := (ch.live.map (fun x => if x.id = b then { x with cancelled := true } else x)).filter
        (fun x => !(x.cancelled && x.landing == [])) }) (begun s)))

end Sys2Proof

/-- 05 R167: XWAIT, XSTAT and XCANCEL act on the channel A and the identifier B. -/
def Obligations.CopyCompletionFormsComplete : Prop :=
  (∀ f, WaitsCopies (.xwait f) f.ext) ∧ (∀ f, WaitsCopies (.xwaitExt f) f) ∧
  (∀ f, StatesCopies (.xstat f) f.ext) ∧ (∀ f, StatesCopies (.xstatExt f) f) ∧
  (∀ f, CancelsCopies (.xcancel f) f.ext) ∧ (∀ f, CancelsCopies (.xcancelExt f) f)

namespace Sys2Proof

open Machine

/-- A transfer that moves packet p of it: in flight, not cancelled, the packet neither done nor with a landing handler. -/
def PacketOwed (s : State) (core : Pos) (channel id packet : Nat) (x : Xfer) : Prop :=
  findXfer s core channel id = some x ∧ x.cancelled = false ∧ packet < x.packets ∧ packet ∉ x.done ∧ packet ∉ x.landing

/-- The transfer has started. -/
def startXfer (core : Pos) (channel id : Nat) (s : State) : State :=
  modChannel core channel (fun ch =>
    { ch with live := ch.live.map (fun y => if y.id = id then { y with started := true } else y) }) s

/-- The bytes of an engine's write stand at a key, where every die and the hub sees them, and no other byte changes (05 R165, 08
R258). -/
def LandsBytes (k : Nat) (bs : List Byte) (m m' : Memory) : Prop :=
  (∀ j, j < bs.length → cellGet m'.cells (k + j) = bs.getD j 0#8) ∧
  (∀ (e : Eye) (j : Nat), e.die ≤ 4 → j < bs.length → m'.seen e (k + j) = bs.getD j 0#8) ∧
  (∀ a, a < k ∨ k + bs.length ≤ a → cellGet m'.cells a = cellGet m.cells a) ∧ m'.full = m.full

end Sys2Proof

/-- 05 R165: COPY_PACKET reads a packet's source, writes it at the packet's destination and counts it off the barrier; a packet that
fails a check faults its transfer with that cause; COPY_PACKET_TIMEOUT faults with 0x10 the transfer that reads or writes another device; a packet that is not owed moves
nothing (log 6, the model's choice).  The engine writes its bytes line by line: those of a line stand at the line's place, visible at dev scope, and no
other byte changes; a zero fill writes zeros; a barrier loses the packet's bytes from PENDING, and the transfer the packet. -/
def Sys2Proof.CopyPacketsLandOrFaultPart : Prop :=
  (∀ (core : Pos) (channel id packet : Nat) (s : State) (x : Xfer) (c : Ctx), clocked s = true →
    PacketOwed s core channel id packet x → findCtx s x.issuer.ctx = some c → x.land = none →
    let u := startXfer core channel id s
    let r := x.packetRange packet
    let a := xferAgent u c core channel x
    let off := r.1 - x.destAt.toNat
    (∀ bs t t', sourceBytes a x off r.2 u = .ok (bs, t) → engineWrite a x r.1 bs t = .ok (⟨⟩, t') →
      exec (.copyPacket core channel id packet) s = .next (packetDone core channel id packet t')) ∧
    (∀ cause info, sourceBytes a x off r.2 u = .error (.trap cause info) →
      exec (.copyPacket core channel id packet) s =
        .next (faultTransfer core channel id (faultPosition a x packet off r.2 u) cause u)) ∧
    (∀ bs t cause info, sourceBytes a x off r.2 u = .ok (bs, t) → engineWrite a x r.1 bs t = .error (.trap cause info) →
      exec (.copyPacket core channel id packet) s =
        .next (faultTransfer core channel id (faultPosition a x packet off r.2 u) cause u))) ∧
  (∀ (core : Pos) (channel id packet k k' : Nat) (s t v : State) (x : Xfer) (c : Ctx) (leaf leaf' : Option Nat), clocked s = true →
    PacketOwed s core channel id packet x → findCtx s x.issuer.ctx = some c → x.land = none → x.kind = 0 →
    let u := startXfer core channel id s
    let r := x.packetRange packet
    let a := xferAgent u c core channel x
    let src := x.sourceAt.toNat + (r.1 - x.destAt.toNat)
    let m := t.mem.readied a.eye k r.2
    0 < r.2 → r.1 % 128 + r.2 ≤ 128 → src % 128 + r.2 ≤ 128 →
    reach a src r.2 .read false false u = .ok (.bytes k leaf, t) → keyIsView k = false →
    reach a r.1 r.2 .write true (capHas x.dest permFMTW) { t with mem := m } = .ok (.bytes k' leaf', v) → keyIsView k' = false →
    v.mem.wf = true → NoViews k' v.mem →
    ∃ m', exec (.copyPacket core channel id packet) s =
        .next (packetDone core channel id packet { v with mem := m', nextId := v.nextId + 1 }) ∧
      LandsBytes k' (m.seenBytes a.eye k r.2) v.mem m') ∧
  (∀ (core : Pos) (channel id packet k : Nat) (s v : State) (x : Xfer) (c : Ctx) (leaf : Option Nat), clocked s = true →
    PacketOwed s core channel id packet x → findCtx s x.issuer.ctx = some c → x.land = none → x.kind = 1 →
    let u := startXfer core channel id s
    let r := x.packetRange packet
    0 < r.2 → r.1 % 128 + r.2 ≤ 128 →
    reach (xferAgent u c core channel x) r.1 r.2 .write true (capHas x.dest permFMTW) u = .ok (.bytes k leaf, v) →
    keyIsView k = false → v.mem.wf = true → NoViews k v.mem →
    ∃ m', exec (.copyPacket core channel id packet) s =
        .next (packetDone core channel id packet { v with mem := m', nextId := v.nextId + 1 }) ∧
      LandsBytes k (List.replicate r.2 0#8) v.mem m') ∧
  (∀ (a : Agent) (addr n m : Nat) (s t u : State) (bs cs : List CopyByte), 0 < n → 0 < m → (addr + n) % 128 = 0 →
    engineRead a addr n s = .ok (bs, t) → engineRead a (addr + n) m t = .ok (cs, u) → engineRead a addr (n + m) s = .ok (bs ++ cs, u)) ∧
  (∀ (a : Agent) (x : Xfer) (off n : Nat) (s : State), x.kind = 1 →
    sourceBytes a x off n s = .ok (List.replicate n ⟨0#8, false, none⟩, s)) ∧
  (∀ (a : Agent) (x : Xfer) (addr k : Nat) (leaf : Option Nat) (bs : List CopyByte) (s t : State), bs ≠ [] →
    addr % 128 + bs.length ≤ 128 → reach a addr bs.length .write true (capHas x.dest permFMTW) s = .ok (.bytes k leaf, t) →
    keyIsView k = false → t.mem.wf = true → NoViews k t.mem →
    ∃ m, engineWrite a x addr bs s = .ok (⟨⟩, { t with mem := m, nextId := t.nextId + 1 }) ∧
      LandsBytes k (bs.map (·.byte)) t.mem m) ∧
  (∀ (a : Agent) (x : Xfer) (addr : Nat) (bs rest : List CopyByte) (s t : State), bs ≠ [] → rest ≠ [] → (addr + bs.length) % 128 = 0 →
    engineWrite a x addr bs s = .ok (⟨⟩, t) → engineWrite a x addr (bs ++ rest) s = engineWrite a x (addr + bs.length) rest t) ∧
  (∀ (core : Pos) (channel id packet k : Nat) (s : State) (x : Xfer), findXfer s core channel id = some x → x.barrier = some k →
    keyIsStore k = true → s.mem.wf = true →
    LandsBytes k (natBytes 16 (barrierNat (completed { barrierAt s.mem k with
      pending := (((barrierAt s.mem k).pending - ((x.packetRange packet).2 : Int)) % 2 ^ 48).toNat })))
      s.mem (packetDone core channel id packet s).mem) ∧
  (∀ (core : Pos) (channel id packet : Nat) (s : State) (x : Xfer), findXfer s core channel id = some x →
    x.cancelled = true ∨ x.packets ≤ packet ∨ packet ∈ x.done ∨ packet ∈ x.landing →
    exec (.copyPacket core channel id packet) s = .next s) ∧
  (∀ (core : Pos) (channel id packet : Nat) (s : State) (x : Xfer), findXfer s core channel id = some x → packet < x.packets →
    packet ∉ x.done →
    let away (a : DWord) : Prop := a.toNat / 2 ^ 50 ≠ s.dev.number
    let remote := away x.destAt ∨ (x.kind = 0 ∨ x.kind = 3) ∧ away x.sourceAt ∨ x.kind = 3 ∧ away x.indexAt ∨
      ∃ b ∈ x.bases, away b.2
    (remote → exec (.copyPacketTimeout core channel id packet) s = .next (faultTransfer core channel id packet 0x10 s)) ∧
    (¬ remote → exec (.copyPacketTimeout core channel id packet) s = .next s))

/-- 05 R165: a packet's bytes land at its destination and count off its barrier, or fault its transfer. -/
def Obligations.CopiesLandAndComplete : Prop :=
  Sys2Proof.CopyPacketsLandOrFaultPart

/-! ## Fences (05 R158, R159) -/

namespace Sys2Proof

open Machine

/-- The engine mask of FENCEX: nothing that the thread issued earlier is in flight, and no unreported record of its core names a
transfer or command of the thread. -/
def EnginesIdle (s : State) (f : Ext) (core : CoreState) : Prop :=
  (f.sub.getLsbD 0 = true →
    (∀ ch ∈ core.channels, ∀ x ∈ ch.live, x.issuer ≠ s.cur.fid) ∧
      ∀ n r, n < 4 → (core.channels.getD n ⟨2, none, [], [], none⟩).record = some r → r.issuer ≠ s.cur.fid) ∧
  (f.sub.getLsbD 1 = true →
    (∀ q ∈ core.queue, q.issuer ≠ s.cur.fid) ∧
      ∀ n r, n < 8 → (tileAt core n).fault = some r → s.cur.fid ∉ r.issuers) ∧
  (f.sub.getLsbD 2 = true → s.cur.calls = [] ∧ s.cur.rcalln = 0)

end Sys2Proof

/-- 05 R158, R159, R142: FENCE and FENCEX complete: every eye in SCOPE sees the newest byte wherever the thread's own writes alone
stood between, and no byte, tag or register changes; at sys scope they wait for the stores and atomics to other devices, and one that
failed traps with cause 0x10 and its address, each once; FENCEX first waits for the engines of its mask, and is an acquire of the
copies that it waited for. -/
def Obligations.FencesOrderEarlierAccesses : Prop :=
  (∀ f s, Runs (.fence f) s → f.scope.toNat < 4 ∨ AllAnswered s →
    exec (.fence f) s = .next (past f (performed f.scope.toNat (begun s)))) ∧
  (∀ f s, Runs (.fence f) s → 4 ≤ f.scope.toNat →
    (∃ r ∈ s.cur.remoteStores, r.failed = false) ∨ (∃ r ∈ s.cur.inFlight, r.away ≠ none) →
    exec (.fence f) s = .next (noteWait s)) ∧
  (∀ f s r, Runs (.fence f) s → 4 ≤ f.scope.toNat → (∀ x ∈ s.cur.remoteStores, x.failed = true) →
    (∀ x ∈ s.cur.inFlight, x.away = none) → s.cur.remoteStores.head? = some r →
    let u := dropWaits (agentId s.cur) s
    exec (.fence f) s = .next (takeTrap 0x10 r.address
      { u with cur := { u.cur with remoteStores := s.cur.remoteStores.filter (fun x => x.id != r.id) } })) ∧
  (∀ f s core, Runs (.fencex f) s → findCore s s.cur.pos = some core → EnginesIdle s f core →
    f.scope.toNat < 4 ∨ AllAnswered s →
    let after := core.channels.foldl (fun n ch => max n (ch.acquireScope ch.nextId)) 3
    exec (.fencex f) s = .next (past f (performed f.scope.toNat (if f.sub.getLsbD 0 then released after (begun s) else begun s)))) ∧
  (∀ f s core x ch, Runs (.fencex f) s → findCore s s.cur.pos = some core → f.sub.getLsbD 0 = true → ch ∈ core.channels →
    x ∈ ch.live → x.issuer = s.cur.fid → exec (.fencex f) s = .next (noteWait s)) ∧
  (∀ f s core q, Runs (.fencex f) s → findCore s s.cur.pos = some core → f.sub.getLsbD 0 = false → f.sub.getLsbD 1 = true →
    q ∈ core.queue → q.issuer = s.cur.fid → exec (.fencex f) s = .next (noteWait s)) ∧
  (∀ f s core, Runs (.fencex f) s → findCore s s.cur.pos = some core → f.sub.getLsbD 0 = false → f.sub.getLsbD 1 = false →
    f.sub.getLsbD 2 = true → s.cur.calls ≠ [] ∨ s.cur.rcalln ≠ 0 → exec (.fencex f) s = .next (noteWait s)) ∧
  (∀ (s : State) (scope : Nat), SameBytes (performed scope s).mem s.mem ∧
    ∀ (e : Eye) (k : Nat), scopeDies s.cur.pos.die scope e.die = true →
      (∀ v, scopeViewer (coreOf s.cur.pos) scope = some v → v.sees e = true) →
      (∀ w ∈ s.mem.unseen, w.hidden e = true → (∃ c ∈ w.before, c.1 = k) → w.issuer = agentId s.cur) →
      (performed scope s).mem.seen e k = cellGet s.mem.cells k)

/-! ## Vectors (01 R25 to R28, 06 R174 to R192, 05 R171) -/

namespace Sys2Proof

open Machine

/-- The state with a v register written. -/
def setVAs (n : BitVec 6) (x : VReg) (s : State) : State :=
  { s with cur := { s.cur with v := s.cur.v.setIfInBounds n.toNat x } }

def setV (n : BitVec 6) (x : VWord) (s : State) : State := setVAs n ⟨x, .full⟩ s

/-- A write to a v register need not wait; D names one of v0 to v27. -/
def VWritable (s : State) (n : BitVec 6) : Prop := n.toNat < 28 ∧ (vAt s.cur n.toNat).st ≠ .pending

/-- The governing bit of element j of w bits (01 R28). -/
def governs (s : State) (f : Ext) (w j : Nat) : Bool := predBit (governing s.cur f) w j

/-- Elements of w bits in a v register: 1024 bits on a cluster core, 256 on a Lupin core. -/
def elementCount (s : State) (w : Nat) : Nat := (if s.cur.pos.lupin then 256 else 1024) / w

/-- D after a vector form: a governed element with a result holds it, every other element is as before (01 R29). -/
def ElementsAre (u : State) (f : Ext) (w : Nat) (x : VWord) (r : Nat → Option Nat) : Prop :=
  let old := (vAt u.cur f.d.toNat).val
  ∀ j, j < elementCount u w →
    element x w j = (if governs u f w j then (r j).getD (element old w j) else element old w j) % 2 ^ w

/-- D is full after a vector form; one that came back poisoned stays so while an element keeps its contents (13 R362). -/
def DState (u : State) (f : Ext) (w : Nat) (r : Nat → Option Nat) (st : RegState) : Prop :=
  (st = .poisoned ↔ (vAt u.cur f.d.toNat).st = .poisoned ∧
    ∃ j, j < elementCount u w ∧ ¬ (governs u f w j = true ∧ (r j).isSome = true)) ∧ (st ≠ .poisoned → st = .full)

/-- A vector form completes from the state u that its reads leave: D, FSTAT and the pc change, and nothing else. -/
def VectorIs (i : Instr) (f : Ext) (s u : State) (w : Nat) (r : Nat → Option Nat) (fl : Flags) : Prop :=
  ∃ x st, ElementsAre u f w x r ∧ DState u f w r st ∧ exec i s = .next (past f (setVAs f.d ⟨x, st⟩ (setFlags fl u)))

/-- The flags of the governed elements are ORed (06 R176). -/
def VectorGives (i : Instr) (f : Ext) (s u : State) (w : Nat) (r : Nat → Nat × Flags) : Prop :=
  ∃ fl : Flags, VectorIs i f s u w (fun j => some (r j).1) fl ∧
    ∀ k, fl.getLsbD k = true ↔ ∃ j, j < elementCount u w ∧ governs u f w j = true ∧ (r j).2.getLsbD k = true

/-- Draw j of a form. -/
def drawAt (rm : BitVec 3) (n j : Nat) (s : State) : Nat := (drawsOf rm n s).1.getD j 0

/-- The width of a format's elements. -/
def vw (f : Ext) : Nat := fmtBits f.fmt.toNat

/-- An element-wise form of one source completes. -/
def VectorOne (i : Instr) (f : Ext) (op : Nat → Nat → Nat × Flags) : Prop :=
  ∀ s t a, Runs i s → readV f.a f.ta (begun s) = .ok (a, t) → VWritable t f.d →
    let n := elementCount t (vw f)
    VectorGives i f s (afterDraws f.rm n t) (vw f) (fun j => op (drawAt f.rm n j t) (element a (vw f) j))

/-- An element-wise form of two sources completes. -/
def VectorTwo (i : Instr) (f : Ext) (op : Nat → Nat → Nat → Nat × Flags) : Prop :=
  ∀ s t u a b, Runs i s → readV f.a f.ta (begun s) = .ok (a, t) → readV f.b f.tb t = .ok (b, u) → VWritable u f.d →
    let n := elementCount u (vw f)
    VectorGives i f s (afterDraws f.rm n u) (vw f)
      (fun j => op (drawAt f.rm n j u) (element a (vw f) j) (element b (vw f) j))

/-- An element-wise form of three sources completes. -/
def VectorThree (i : Instr) (f : Ext) (op : Nat → Nat → Nat → Nat → Nat × Flags) : Prop :=
  ∀ s t u v a b c, Runs i s → readV f.a f.ta (begun s) = .ok (a, t) → readV f.b f.tb t = .ok (b, u) →
    readV f.c f.tc u = .ok (c, v) → VWritable v f.d →
    let n := elementCount v (vw f)
    VectorGives i f s (afterDraws f.rm n v) (vw f)
      (fun j => op (drawAt f.rm n j v) (element a (vw f) j) (element b (vw f) j) (element c (vw f) j))

/-- A floating-point form of two sources. -/
def VectorFp (i : Instr) (f : Ext) (op : Fp → Rm → Nat → Nat → Nat → Nat × Flags) : Prop :=
  VectorTwo i f (op (Fp.ofFmt f.fmt.toNat) (Rm.ofCode f.rm.toNat))

def VectorFma (i : Instr) (f : Ext) (np nc : Bool) : Prop :=
  VectorThree i f (fun d a b c => (Fp.ofFmt f.fmt.toNat).fma (Rm.ofCode f.rm.toNat) d np nc a b c)

/-- An integer form of two sources: its result modulo 2^w, and no flag. -/
def VectorInt (i : Instr) (f : Ext) (op : Nat → Nat → Nat) : Prop := VectorTwo i f (fun _ a b => (op a b, Flags.none))

end Sys2Proof

/-- 01 R23, R27: a vector source is a v register, or pops the head of an input channel of the instance; an empty channel traps an
access with the trapping bit and makes any other wait; a firing that has popped its rate traps. -/
def Sys2Proof.VectorSourcesReadRegistersAndChannelsPart : Prop :=
  (∀ (s : State) (n : BitVec 6) (tb : Bool), n.toNat < 28 → (vAt s.cur n.toNat).st = .full →
    readV n tb s = .ok ((vAt s.cur n.toNat).val, s)) ∧
  (∀ (s : State) (n : BitVec 6) (tb : Bool), n.toNat < 28 → (vAt s.cur n.toNat).st = .pending → tb = false →
    readV n tb s = .error .wait) ∧
  (∀ (s : State) (n : BitVec 6) (tb : Bool) (b : Band) (i : Instance) (x : Sent) (rest : List Sent), 28 ≤ n.toNat →
    bandOf s s.cur = some b → findInstance b s.cur.fid.gang s.cur.fid.inst = some i →
    i.fifos.getD (n.toNat - 28) [] = x :: rest → s.cur.popped.getD (n.toNat - 28) 0 < inRate b (n.toNat - 28) →
    ∃ t, readV n tb s = .ok (x.data, t) ∧ SameBytes t.mem s.mem ∧
      t.cur = { s.cur with popped := setAt s.cur.popped (n.toNat - 28) (· + 1) } ∧
      t.bands = (modInstance b.entry s.cur.fid.gang s.cur.fid.inst
        (fun i => { i with fifos := i.fifos.set (n.toNat - 28) rest }) s).bands) ∧
  (∀ (s : State) (n : BitVec 6) (tb : Bool) (b : Band) (i : Instance), 28 ≤ n.toNat →
    bandOf s s.cur = some b → findInstance b s.cur.fid.gang s.cur.fid.inst = some i →
    (inRate b (n.toNat - 28) ≤ s.cur.popped.getD (n.toNat - 28) 0 →
      readV n tb s = .error (.trap 0x03 (BitVec.ofNat 64 (2 * 0x100 + (n.toNat - 28))))) ∧
    (s.cur.popped.getD (n.toNat - 28) 0 < inRate b (n.toNat - 28) → i.fifos.getD (n.toNat - 28) [] = [] →
      readV n tb s = .error (if tb then .trap 0x03 (BitVec.ofNat 64 (0x10000 + 2 * 0x100 + (n.toNat - 28))) else .wait)))

/-- 06 R178 to R180, R185: the element-wise forms compute each governed element, keep every other and OR the governed elements'
flags. -/
def Sys2Proof.VectorElementwiseFormsComputePart : Prop :=
  (∀ f, VectorFp (.vadd f) f Fp.add) ∧ (∀ f, VectorFp (.vsub f) f Fp.sub) ∧ (∀ f, VectorFp (.vmul f) f Fp.mul) ∧
  (∀ f, VectorFp (.vdiv f) f Fp.div) ∧
  (∀ f, VectorFma (.vfma f) f false false) ∧ (∀ f, VectorFma (.vfms f) f false true) ∧ (∀ f, VectorFma (.vfnma f) f true false) ∧
  (∀ f, VectorOne (.vsqrt f) f ((Fp.ofFmt f.fmt.toNat).sqrt (Rm.ofCode f.rm.toNat))) ∧
  (∀ f, VectorFp (.vmin f) f (fun p _ _ a b => p.minMax false a b)) ∧
  (∀ f, VectorFp (.vmax f) f (fun p _ _ a b => p.minMax true a b)) ∧
  (∀ f, VectorOne (.vabs f) f (fun _ a => (a % 2 ^ (vw f - 1), Flags.none))) ∧
  (∀ f, VectorOne (.vneg f) f (fun _ a => ((Fp.ofFmt f.fmt.toNat).negate a, Flags.none))) ∧
  (∀ f, VectorOne (.vrcp f) f (fun _ a => transcendental 0 f.fmt.toNat a)) ∧
  (∀ f, VectorOne (.vrsq f) f (fun _ a => transcendental 1 f.fmt.toNat a)) ∧
  (∀ f, VectorOne (.vexp2 f) f (fun _ a => transcendental 2 f.fmt.toNat a)) ∧
  (∀ f, VectorOne (.vlog2 f) f (fun _ a => transcendental 3 f.fmt.toNat a)) ∧
  (∀ f, VectorOne (.vsigm f) f (fun _ a => transcendental 4 f.fmt.toNat a)) ∧
  (∀ f, VectorOne (.vtanh f) f (fun _ a => transcendental 5 f.fmt.toNat a)) ∧
  (∀ f, VectorInt (.viadd f) f (fun a b => a + b)) ∧
  (∀ f, VectorInt (.visub f) f (fun a b => a + 2 ^ vw f - b)) ∧
  (∀ f, VectorInt (.vimul f) f (fun a b => a * b)) ∧
  (∀ f, VectorInt (.vimin f) f (fun a b => if intValue f.fmt.toNat b < intValue f.fmt.toNat a then b else a)) ∧
  (∀ f, VectorInt (.vimax f) f (fun a b => if intValue f.fmt.toNat b < intValue f.fmt.toNat a then a else b)) ∧
  (∀ f, VectorInt (.vand f) f (fun a b => a &&& b)) ∧ (∀ f, VectorInt (.vor f) f (fun a b => a ||| b)) ∧
  (∀ f, VectorInt (.vxor f) f (fun a b => a ^^^ b)) ∧
  (∀ f, VectorInt (.vshl f) f (fun a b => a * 2 ^ (b % vw f))) ∧
  (∀ f, VectorInt (.vshr f) f (fun a b => a / 2 ^ (b % vw f))) ∧
  (∀ f, VectorInt (.vshra f) f (fun a b => ofInt (vw f) (toSigned (vw f) a / (2 ^ (b % vw f) : Nat)))) ∧
  (∀ f, VectorInt (.vrnadd f) f rnsAdd) ∧ (∀ f, VectorInt (.vrnmul f) f rnsMul) ∧
  (∀ x y : Int, rnsAdd (rnsOfInt x) (rnsOfInt y) = rnsOfInt (x + y) ∧ rnsMul (rnsOfInt x) (rnsOfInt y) = rnsOfInt (x * y))

/-- 01 R23, R27, 06 R178 to R180, R185: a vector source is a register or pops a channel; the element-wise forms compute each governed element,
keep every other and OR the governed elements' flags into FSTAT. -/
def Obligations.VectorElementwiseFormsCompute : Prop :=
  Sys2Proof.VectorSourcesReadRegistersAndChannelsPart ∧ Sys2Proof.VectorElementwiseFormsComputePart

/-! ### Transcendentals (03 R112, R113) -/

namespace Sys2Proof

open Machine

/-- The real number of a finite value. -/
noncomputable def realOf (s : Bool) (m : Nat) (e : Int) : ℝ := (if s then -1 else 1) * (m : ℝ) * (2 : ℝ) ^ e

/-- A code of a format holds a real number. -/
def HoldsReal (p : Fp) (code : Nat) (y : ℝ) : Prop := ∃ s m e, p.decode code = .fin s m e ∧ realOf s m e = y

/-- The ulp of R112 at a nonzero result y. -/
def IsUlp (p : Fp) (y u : ℝ) : Prop :=
  ∃ t : Int, (2 : ℝ) ^ t ≤ |y| ∧ |y| < (2 : ℝ) ^ (t + 1) ∧ u = (2 : ℝ) ^ max (t - (p.frac : Int)) p.qmin

/-- A result lies within n ulp of y, exact or marked INEXACT; an infinity has y's sign and stands for a value beyond the range. -/
def ApproximatesReal (p : Fp) (n : Nat) (r : Nat × Flags) (y : ℝ) : Prop :=
  HoldsReal p r.1 y ∨
    (r.2 &&& Flags.inexact = Flags.inexact ∧ ∃ u, IsUlp p y u ∧
      match p.decode r.1 with
      | .fin s m e => |realOf s m e - y| ≤ n * u
      | .inf s => (s = true ↔ y < 0) ∧ (2 : ℝ) ^ ((p.bias : Int) + 1) ≤ |y| + n * u
      | .nan _ _ => False)

/-- A result holds y exactly and sets no flag. -/
def GivesReal (p : Fp) (r : Nat × Flags) (y : ℝ) : Prop := HoldsReal p r.1 y ∧ r.2 = Flags.none

end Sys2Proof

/-- 03 R112, R113, in FP64 (FMT 0) and FP32 (FMT 1): the special results and exact points of VRCP, VRSQ, VEXP2, VLOG2, VSIGM and VTANH
(forms 0 to 5 of OP 0x21), and the bound of one ulp of VRCP and VRSQ. -/
def Obligations.TranscendentalsTakeTheirExactPoints : Prop :=
  ∀ fmt code, fmt ≤ 1 →
    let p := Fp.ofFmt fmt
    let gives (fn : Nat) (r : Nat × Flags) : Prop := transcendental fn fmt code = r
    (∀ s, p.decode code = .inf s →
      gives 0 (p.signBit s, Flags.none) ∧ gives 1 (if s then (p.defaultNan, Flags.invalid) else (0, Flags.none)) ∧
      gives 2 (if s then 0 else p.infCode, Flags.none) ∧
      gives 3 (if s then (p.defaultNan, Flags.invalid) else (p.infCode, Flags.none)) ∧
      GivesReal p (transcendental 4 fmt code) (if s then 0 else 1) ∧ GivesReal p (transcendental 5 fmt code) (if s then -1 else 1)) ∧
    (∀ s e, p.decode code = .fin s 0 e →
      gives 0 (p.signBit s + p.infCode, Flags.divzero) ∧ gives 1 (p.signBit s + p.infCode, Flags.divzero) ∧
      GivesReal p (transcendental 2 fmt code) 1 ∧ gives 3 (p.signBit true + p.infCode, Flags.divzero) ∧
      GivesReal p (transcendental 4 fmt code) (1 / 2) ∧ gives 5 (code, Flags.none)) ∧
    (∀ m e, p.decode code = .fin true m e → m ≠ 0 →
      gives 1 (p.defaultNan, Flags.invalid) ∧ gives 3 (p.defaultNan, Flags.invalid)) ∧
    (∀ s m e (k : Int), p.decode code = .fin s m e →
      (realOf false m e = (2 : ℝ) ^ k → p.qmin ≤ -k → -k ≤ p.bias →
        GivesReal p (transcendental 0 fmt code) (1 / realOf s m e)) ∧
      (s = false → realOf s m e = (4 : ℝ) ^ k → GivesReal p (transcendental 1 fmt code) (1 / (2 : ℝ) ^ k)) ∧
      (realOf s m e = k → p.qmin ≤ k → k ≤ p.bias → GivesReal p (transcendental 2 fmt code) ((2 : ℝ) ^ k)) ∧
      (s = false → realOf s m e = (2 : ℝ) ^ k → GivesReal p (transcendental 3 fmt code) k ∧ (k = 0 → gives 3 (0, Flags.none)))) ∧
    (∀ s m e, p.decode code = .fin s m e → m ≠ 0 →
      ApproximatesReal p 1 (transcendental 0 fmt code) (1 / realOf s m e) ∧
      (s = false → ApproximatesReal p 1 (transcendental 1 fmt code) (1 / Real.sqrt (realOf s m e))))

/-- 03 R112: VEXP2 and VLOG2 lie within two ulp of 2^x and log2 x in FP64 and FP32, VSIGM and VTANH within three of 1/(1 + e^−x) and
tanh x in FP32, for every finite x. -/
def Obligations.TranscendentalsStayWithinTheirBounds : Prop :=
  ∀ fmt code s m e, fmt ≤ 1 →
    let p := Fp.ofFmt fmt
    let x := realOf s m e
    p.decode code = .fin s m e →
    ApproximatesReal p 2 (transcendental 2 fmt code) ((2 : ℝ) ^ x) ∧
    (s = false → m ≠ 0 → ApproximatesReal p 2 (transcendental 3 fmt code) (Real.logb 2 x)) ∧
    (fmt = 1 → ApproximatesReal p 3 (transcendental 4 fmt code) (1 / (1 + Real.exp (-x))) ∧
      ApproximatesReal p 3 (transcendental 5 fmt code) (Real.tanh x))

namespace Sys2Proof

open Machine

/-- A bit of a predicate result is governed (06 R181). -/
def bitGoverned (u : State) (f : Ext) (w k : Nat) : Bool :=
  decide (k < (if u.cur.pos.lupin then 8 else 32)) && (governing u.cur f).getLsbD (if w = 64 then 2 * (k / 2) else k)

/-- The state with a predicate result: one that came back poisoned stays so while a bit keeps its value (13 R362). -/
def setBits (f : Ext) (w : Nat) (x : Word) (u : State) : State :=
  let t := setPred f.d x u
  if (List.range 32).all (bitGoverned u f w) then t else { t with cur := { t.cur with bad := u.cur.bad } }

/-- A predicate result (06 R181): a governed bit is the conjunction of its elements' results, every other bit is as before. -/
def BitsAre (u : State) (f : Ext) (w : Nat) (x : Word) (rel : Nat → Bool) : Prop :=
  ∀ k, k < 32 →
    x.getLsbD k =
      (if bitGoverned u f w k then
        decide (∀ j, j < elementCount u w → (if w = 64 then j = k / 2 else j / (32 / w) = k) → rel j = true)
      else (predOf u f.d).getLsbD k)

/-- The condition of VCMP on two elements of w bits (02 R71). -/
def vcmpRelation (cc w a b : Nat) : Prop :=
  match cc with
  | 0 => a = b
  | 1 => a ≠ b
  | 2 => toSigned w a < toSigned w b
  | 3 => toSigned w a ≤ toSigned w b
  | 4 => toSigned w b < toSigned w a
  | 5 => toSigned w b ≤ toSigned w a
  | 6 => a < b
  | 7 => a ≤ b
  | 8 => b < a
  | _ => b ≤ a

/-- The elements selected by a predicate below j. -/
def selectedCount (p : Word) (w j : Nat) : Nat := ((List.range j).filter (predBit p w)).length

/-- A permutation or move form of v registers completes without flags. -/
def VectorMoves (i : Instr) (f : Ext) (s u : State) (r : Nat → Option Nat) : Prop := VectorIs i f s u (vw f) r Flags.none

/-- The order of two elements in VSORT (06 R190): by key, then by index. -/
def sortsBefore (f : Ext) (a : VWord) (i j : Nat) : Prop :=
  let key (j : Nat) := sortKey f.fmt.toNat (element a (vw f) j)
  if f.imm.getLsbD 0 then key j < key i ∨ key i = key j ∧ i < j else key i < key j ∨ key i = key j ∧ i < j

end Sys2Proof

/-- 06 R181, R182, R189, R190: compares, selection, permutation, sorting and moves complete. -/
def Obligations.VectorComparesAndMovesComplete : Prop :=
  (∀ f s t u a b, Runs (.vcmp f) s → readV f.a f.ta (begun s) = .ok (a, t) → readV f.b f.tb t = .ok (b, u) →
    8 ≤ vw f → vw f ≤ 64 →
    ∃ x rel, (∀ j, rel j = true ↔ vcmpRelation f.sub.toNat (vw f) (element a (vw f) j) (element b (vw f) j)) ∧
      BitsAre u f (vw f) x rel ∧ exec (.vcmp f) s = .next (past f (setBits f (vw f) x u))) ∧
  (∀ f s t u a b, Runs (.vfcmp f) s → readV f.a f.ta (begun s) = .ok (a, t) → readV f.b f.tb t = .ok (b, u) →
    f.fmt.toNat < 4 →
    let rel (j : Nat) := fcmpRelation (Fp.ofFmt f.fmt.toNat) f.sub.toNat (element a (vw f) j) (element b (vw f) j)
    ∃ (x : Word) (fl : Flags), BitsAre u f (vw f) x (fun j => (rel j).1) ∧
      (∀ k, fl.getLsbD k = true ↔ ∃ j, j < elementCount u (vw f) ∧ governs u f (vw f) j = true ∧ (rel j).2.getLsbD k = true) ∧
      exec (.vfcmp f) s = .next (past f (setBits f (vw f) x (setFlags fl u)))) ∧
  (∀ f s t u a b, Runs (.vsel f) s → readV f.a f.ta (begun s) = .ok (a, t) → readV f.b f.tb t = .ok (b, u) → VWritable u f.d →
    PReadable s f.c →
    VectorMoves (.vsel f) f s u
      (fun j => some (if predBit (predOf u f.c) (vw f) j then element a (vw f) j else element b (vw f) j))) ∧
  (∀ f s t u a b, Runs (.vperm f) s → readV f.a f.ta (begun s) = .ok (a, t) → readV f.b f.tb t = .ok (b, u) → VWritable u f.d →
    VectorMoves (.vperm f) f s u
      (fun j => some (element a (vw f) (element b (vw f) j % elementCount u (vw f))))) ∧
  (∀ f s, Runs (.vbcast f) s → Readable s f.a f.ta → VWritable s f.d →
    VectorMoves (.vbcast f) f s (begun s) (fun _ => some ((regData s f.a).toNat % 2 ^ vw f))) ∧
  (∀ f s t u a b, Runs (.vslide f) s → readV f.a f.ta (begun s) = .ok (a, t) → readV f.b f.tb t = .ok (b, u) → VWritable u f.d →
    VectorMoves (.vslide f) f s u (fun j =>
      let k := j + f.imm.toNat
      some (if k < elementCount u (vw f) then element a (vw f) k else element b (vw f) (k - elementCount u (vw f))))) ∧
  (∀ f s u a, Runs (.vcomp f) s → readV f.a f.ta (begun s) = .ok (a, u) → VWritable u f.d → PReadable s f.c →
    VectorMoves (.vcomp f) f s u (fun j => some
      ((((List.range (elementCount u (vw f))).filter (predBit (predOf u f.c) (vw f))).map (element a (vw f))).getD j 0))) ∧
  (∀ f s u a, Runs (.vexpd f) s → readV f.a f.ta (begun s) = .ok (a, u) → VWritable u f.d → PReadable s f.c →
    VectorMoves (.vexpd f) f s u (fun j => some (if predBit (predOf u f.c) (vw f) j then
      element a (vw f) (selectedCount (predOf u f.c) (vw f) j) else 0))) ∧
  (∀ f s u a, Runs (.vsort f) s → readV f.a f.ta (begun s) = .ok (a, u) → VWritable u f.d →
    ∃ p : List Nat, p.Perm (List.range (elementCount u (vw f))) ∧ p.Pairwise (sortsBefore f a) ∧
      VectorMoves (.vsort f) f s u (fun j => p[j]?)) ∧
  (∀ f s, Runs (.viota f) s → VWritable s f.d → PReadable s f.c →
    VectorMoves (.viota f) f s (begun s) (fun j => some (selectedCount (predOf s f.c) (vw f) j))) ∧
  (∀ f s, Runs (.vpopc f) s → Writable s f.d → PReadable s f.c →
    exec (.vpopc f) s = .next (past f (setData f.d (BitVec.ofNat 64
      (selectedCount (predOf s f.c &&& governing s.cur f) (vw f) (elementCount s (vw f)))) (begun s)))) ∧
  (∀ f s u a, Runs (.vmovg f) s → readV f.a f.ta (begun s) = .ok (a, u) → Writable u f.d →
    exec (.vmovg f) s = .next (past f (setData f.d (extendCode f.fmt.toNat (element a (vw f) f.imm.toNat)) u))) ∧
  (∀ f s, Runs (.vmovv f) s → Readable s f.a f.ta → VWritable s f.d →
    VectorMoves (.vmovv f) f s (begun s)
      (fun j => if j = f.imm.toNat then some ((regData s f.a).toNat % 2 ^ vw f) else none))

namespace Sys2Proof

open Machine

/-- The source element that goes to element j of a conversion (06 R183): narrowing fills part PART of D, widening reads part
PART of A. -/
def convertSource (u : State) (f : Ext) (ws wd j : Nat) : Option Nat :=
  let n := elementCount u (max ws wd)
  let base := f.imm.toNat * n
  if wd < ws then (if base ≤ j ∧ j < base + n then some (j - base) else none)
  else if j < n then some (if ws < wd then base + j else j) else none

/-- The draw of a conversion's element j: its place among the conversions. -/
def convertDraw (u : State) (f : Ext) (ws wd j : Nat) : Nat :=
  let n := elementCount u (max ws wd)
  drawAt f.rm n (if wd < ws then j - f.imm.toNat * n else j) u

/-- VCVT and VRNCVT complete when every governed element converts. -/
def VectorConverts (i : Instr) (f : Ext) (src dst : Nat) (sat : Bool) : Prop :=
  ∀ s u a, Runs i s → readV f.a f.ta (begun s) = .ok (a, u) → VWritable u f.d →
    let ws := fmtBits src
    let wd := fmtBits dst
    let r (j : Nat) : Option (Option (Nat × Flags)) := (convertSource u f ws wd j).map (fun i =>
      convert src dst (Rm.ofCode f.rm.toNat) sat (convertDraw u f ws wd j) (element a ws i))
    (∀ j, governs u f wd j = true → r j ≠ some none) →
    ∃ fl : Flags,
      VectorIs i f s (afterDraws f.rm (elementCount u (max ws wd)) u) wd (fun j => ((r j).bind id).map (·.1)) fl ∧
      ∀ k, fl.getLsbD k = true ↔
        ∃ j x, governs u f wd j = true ∧ r j = some (some x) ∧ x.2.getLsbD k = true

/-- Elements that a reduction or a scan adds: draw, a, b. -/
def reduceOp (f : Ext) (max : Bool) (sums : Bool) : Nat → Nat → Nat → Nat × Flags :=
  if sums then sumOp f.fmt.toNat (Rm.ofCode f.rm.toNat) else extremeOp f.fmt.toNat max

/-- The sum of the governed elements up to and including j, from the last head on. -/
def prefixSum (u : State) (f : Ext) (a : VWord) (head : Nat → Bool) : Nat → Nat
  | 0 => if governs u f (vw f) 0 then element a (vw f) 0 else 0
  | j + 1 =>
    (if head (j + 1) then 0 else prefixSum u f a head j) + (if governs u f (vw f) (j + 1) then element a (vw f) (j + 1) else 0)

/-- VSCAN and VSEGSCAN complete: each governed element holds the running result of the serial chain, which for integers is the sum
of the governed elements since the last head. -/
def VectorScans (i : Instr) (f : Ext) (heads : Word → Nat → Bool) : Prop :=
  ∀ s u a, Runs i s → readV f.a f.ta (begun s) = .ok (a, u) → VWritable u f.d →
    let n := elementCount u (vw f)
    PReadable s f.c →
    let head := heads (predOf u f.c)
    let c := chain (sumOp f.fmt.toNat (Rm.ofCode f.rm.toNat)) f.fmt.toNat (governs u f (vw f)) head 0 0
      ((List.range n).map (element a (vw f))) (drawsOf f.rm n u).1
    VectorIs i f s (afterDraws f.rm n u) (vw f) (fun j => c.1.getD j none) c.2 ∧
    (7 ≤ f.fmt.toNat → f.fmt.toNat < 14 →
      VectorIs i f s (afterDraws f.rm n u) (vw f) (fun j => some (prefixSum u f a head j)) Flags.none)

end Sys2Proof

/-- 06 R183 to R188, 03 R104: conversions, reductions and scans complete; integer reductions and scans are sums modulo 2^w. -/
def Obligations.VectorConversionsAndReductionsComplete : Prop :=
  (∀ f, VectorConverts (.vcvt f) f (f.sub.extractLsb' 0 4).toNat f.fmt.toNat (f.sub.getLsbD 4)) ∧
  (∀ f, f.sub = 0#8 → VectorConverts (.vrncvt f) f f.fmt.toNat 14 false) ∧
  (∀ f, f.sub ≠ 0#8 → VectorConverts (.vrncvt f) f 14 f.fmt.toNat false) ∧
  (∀ f s u a, Runs (.vred f) s → readV f.a f.ta (begun s) = .ok (a, u) → Writable u f.d →
    let n := elementCount u (vw f)
    let r := tree (reduceOp f (f.sub == 2#8) (f.sub == 0#8)) 8
      ((List.range n).map (fun j => if governs u f (vw f) j then some (element a (vw f) j) else none)) (drawsOf f.rm (n - 1) u).1
    let x := r.1.getD (emptyReduction f.sub.toNat f.fmt.toNat)
    exec (.vred f) s = .next (past f (setData f.d
      (extendCode f.fmt.toNat (if f.fmt = 14#4 then rnsAdd x 0 else x)) (setFlags r.2 (afterDraws f.rm (n - 1) u)))) ∧
    (7 ≤ f.fmt.toNat → f.fmt.toNat < 14 → f.sub = 0#8 →
      x = (((List.range n).filter (governs u f (vw f))).map (element a (vw f))).sum % 2 ^ vw f)) ∧
  (∀ f, VectorScans (.vscan f) f (fun _ _ => false)) ∧
  (∀ f, VectorScans (.vsegscan f) f (fun p j => predBit p (vw f) j)) ∧
  (∀ f s u a, Runs (.vsegsum f) s → readV f.a f.ta (begun s) = .ok (a, u) → VWritable u f.d → PReadable s f.c →
    let n := elementCount u (vw f)
    let head (j : Nat) : Bool := j == 0 || predBit (predOf u f.c) (vw f) j
    7 ≤ f.fmt.toNat → f.fmt.toNat < 14 → f.rm ≠ 5#3 →
    VectorMoves (.vsegsum f) f s u (fun j =>
      if head j then
        (let xs := (List.range n).filter (fun k => decide (j ≤ k) && governs u f (vw f) k &&
          !((List.range (k + 1)).any (fun h => decide (j < h) && head h)))
         some ((xs.map (element a (vw f))).sum))
      else some 0)) ∧
  (∀ f s u a, Runs (.vsegsum f) s → readV f.a f.ta (begun s) = .ok (a, u) → VWritable u f.d → PReadable s f.c →
    ∃ r fl, (∀ j, 0 < j → predBit (predOf u f.c) (vw f) j = false → r j = some 0) ∧
      VectorIs (.vsegsum f) f s
        (afterDraws f.rm (((List.range (elementCount u (vw f))).filter (fun j => j == 0 || predBit (predOf u f.c) (vw f) j)).length *
          (elementCount u (vw f) - 1)) u) (vw f) r fl)

namespace Sys2Proof

open Machine

/-- The width of a vector memory element: a byte at least. -/
def memw (f : Ext) : Nat := max 8 (vw f)

/-- The governed elements of a vector access, ascending. -/
def accessed (s : State) (f : Ext) : List Nat := (List.range (elementCount s (memw f))).filter (governs s f (memw f))

/-- Elements at `addr` pass their checks and reach the bytes at `keys`, one after the other: the state then is `t`. -/
def ReachesAll (a : Agent) (c : TCap) (addr : Nat → Nat) (size perm : Nat) (kind : Kind) : List Nat → List Nat → State → State → Prop
  | [], [], s, t => s = t
  | j :: js, k :: ks, s, t =>
    DerefPasses c (addr j) size [perm] ∧ addr j % size = 0 ∧ keyIsView k = false ∧
      ∃ leaf u, reach a (addr j) size kind true (capHas c.val permFMTW) s = .ok (.bytes k leaf, u) ∧
        ReachesAll a c addr size perm kind js ks u t
  | _, _, _, _ => False

/-- What a list of writes leaves at an address: the last write that covers it. -/
def lastWrite (ws : List (Nat × List Byte)) (a : Nat) : Option Byte :=
  ws.foldl (fun r w => if w.1 ≤ a ∧ a < w.1 + w.2.length then some (w.2.getD (a - w.1) 0#8) else r) none

/-- The bytes that an eye reads at keys, one access of n bytes after the other, and memory after them. -/
def readsOf (e : Eye) (n : Nat) : List Nat → Memory → List (List Byte) × Memory
  | [], m => ([], m)
  | k :: ks, m =>
    let r := readsOf e n ks (m.readied e k n)
    ((m.readied e k n).seenBytes e k n :: r.1, r.2)

/-- A vector load completes: each governed element is the bytes that the thread sees at its address, in ascending order of
elements; no byte of memory changes. -/
def VectorLoads (i : Instr) (f : Ext) (operands : State → Prop) (addr : State → Nat → Nat) : Prop :=
  ∀ s t a ks, Runs i s → Readable s f.a f.ta → operands s → VWritable s f.d → curAgent (begun s) = .ok (a, begun s) →
    ReachesAll a (regCap s f.a) (addr s) (memw f / 8) permLD .read (accessed s f) ks (begun s) t →
    (∀ k ∈ ks, NoViews k t.mem ∧ t.mem.firstPoison k (memw f / 8) = none) →
    let r := readsOf (eyeOf s.cur) (memw f / 8) ks t.mem
    SameBytes r.2 t.mem ∧
      VectorIs i f s { t with mem := r.2 } (memw f) (fun j =>
        (((accessed s f).zip r.1).find? (fun x => x.1 == j)).map (fun x => bytesNat x.2)) Flags.none

/-- A vector store completes: the governed elements are written in ascending order, and no other byte changes. -/
def VectorStores (i : Instr) (f : Ext) (operands : State → Prop) (addr : State → Nat → Nat) : Prop :=
  ∀ s t a ks, Runs i s → Readable s f.a f.ta → operands s → f.d.toNat < 28 → (vAt s.cur f.d.toNat).st = .full →
    curAgent (begun s) = .ok (a, begun s) →
    ReachesAll a (regCap s f.a) (addr s) (memw f / 8) permST .write (accessed s f) ks (begun s) t →
    ∃ m, exec i s = .next (past f { t with mem := m, nextId := t.nextId + ks.length }) ∧
      (t.mem.wf = true → (∀ k ∈ ks, NoViews k t.mem) → m.full = t.mem.full ∧
        ∀ x, cellGet m.cells x = (lastWrite (((accessed s f).zip ks).map (fun y =>
          (y.2, natBytes (memw f / 8) (element (vAt s.cur f.d.toNat).val (memw f) y.1)))) x).getD (cellGet t.mem.cells x))

/-- cursor(A) + IMM32, mod 2^64. -/
def vbase (s : State) (f : Ext) : Nat := (((capAddr (regCap s f.a).val : Int) + f.imm.toInt) % 2 ^ 64).toNat

/-- Element addresses of R191: consecutive, at signed indices in vC, at a signed stride in gC. -/
def consecutiveAt (f : Ext) (s : State) (j : Nat) : Nat := (vbase s f + j * (memw f / 8)) % 2 ^ 64
def indexedAt (f : Ext) (s : State) (j : Nat) : Nat :=
  (((vbase s f : Int) + toSigned (vw f) (element (vAt s.cur f.c.toNat).val (vw f) j) * (vw f / 8 : Nat)) % 2 ^ 64).toNat
def stridedAt (f : Ext) (s : State) (j : Nat) : Nat := (((vbase s f : Int) + (j : Int) * (regData s f.c).toInt) % 2 ^ 64).toNat

/-- The index vector of VLDX and VSTX is a full v register. -/
def indexReads (f : Ext) (s : State) : Prop := f.c.toNat < 28 ∧ (vAt s.cur f.c.toNat).st = .full

end Sys2Proof

/-- 06 R191, R192: the vector loads and stores access their governed elements at R191's addresses; of two elements at one address the
higher remains. -/
def Sys2Proof.VectorMemoryFormsAccessGovernedElementsPart : Prop :=
  (∀ f, VectorLoads (.vld f) f (fun _ => True) (consecutiveAt f)) ∧
  (∀ f, VectorLoads (.vldx f) f (indexReads f) (indexedAt f)) ∧
  (∀ f, VectorLoads (.vlds f) f (fun s => Readable s f.c f.tc) (stridedAt f)) ∧
  (∀ f, VectorStores (.vst f) f (fun _ => True) (consecutiveAt f)) ∧
  (∀ f, VectorStores (.vstx f) f (indexReads f) (indexedAt f)) ∧
  (∀ f, VectorStores (.vsts f) f (fun s => Readable s f.c f.tc) (stridedAt f))

namespace Sys2Proof

open Machine

/-- The elements that STBM keeps: governed and not zero. -/
def keptElements (s : State) (f : Ext) (x : VWord) : List Nat :=
  (List.range (elementCount s (vw f))).filter (fun j => governs s f (vw f) j && element x (vw f) j != 0)

/-- Bytes of a mask, and of a record with k kept elements: a multiple of 8. -/
def maskSize (s : State) (f : Ext) : Nat := max 8 (elementCount s (vw f) / 8)
def recordSize (s : State) (f : Ext) (k : Nat) : Nat := maskSize s f + (vw f * k + 63) / 64 * 8

/-- The words of a record, from word `first` on, reach the bytes at `keys`. -/
def ReachesWords (a : Agent) (c : TCap) (addr : Nat) (kind : Kind) : Nat → List Nat → State → State → Prop
  | _, [], s, t => s = t
  | first, k :: ks, s, t => keyIsView k = false ∧
      ∃ leaf u, reach a (addr + 8 * first) 8 kind true (capHas c.val permFMTW) s = .ok (.bytes k leaf, u) ∧
        ReachesWords a c addr kind (first + 1) ks u t

/-- The bytes of a record: the mask, then the kept elements packed at their width. -/
def sparseRecord (s : State) (f : Ext) (x : VWord) : Nat :=
  let kept := keptElements s f x
  packNat 1 ((List.range (elementCount s (vw f))).map (fun j => if kept.contains j then 1 else 0)) +
    2 ^ (8 * maskSize s f) * packNat (vw f) (kept.map (element x (vw f)))

end Sys2Proof

/-- 05 R171, 01 R40: STBM writes the mask and the kept elements and gives the record's length; LDBM expands a record; one that runs past the
top of A traps with cause 0x11. -/
def Sys2Proof.SparseRecordsAreWrittenAndExpandedPart : Prop :=
  (∀ f s t a ks, Runs (.stbm f) s → Readable s f.a f.ta → f.b.toNat < 28 → (vAt s.cur f.b.toNat).st = .full → Writable s f.d →
    let x := (vAt s.cur f.b.toNat).val
    let size := recordSize s f (keptElements s f x).length
    DerefPasses (regCap s f.a) (vbase s f) (maskSize s f) [permST, permXFER] → vbase s f % 8 = 0 →
    ((capBounds (regCap s f.a).val).2 < vbase s f + size →
      exec (.stbm f) s = .next (afterTrap 0x11 (BitVec.ofNat 64 (capBounds (regCap s f.a).val).2) s)) ∧
    (vbase s f + size ≤ (capBounds (regCap s f.a).val).2 → curAgent (begun s) = .ok (a, begun s) → ks.length = size / 8 →
      ReachesWords a (regCap s f.a) (vbase s f) .write 0 ks (begun s) t →
      ∃ m, exec (.stbm f) s = .next (past f (setData f.d (BitVec.ofNat 64 size)
          { t with mem := m, nextId := t.nextId + ks.length })) ∧
        (t.mem.wf = true → (∀ k ∈ ks, NoViews k t.mem) → ∀ y, cellGet m.cells y =
          (lastWrite (ks.mapIdx (fun i k => (k, natBytes 8 (sparseRecord s f x / 2 ^ (64 * i))))) y).getD
            (cellGet t.mem.cells y)))) ∧
  (∀ f s t u a a' ks ls, Runs (.ldbm f) s → Readable s f.a f.ta → VWritable s f.d →
    DerefPasses (regCap s f.a) (vbase s f) (maskSize s f) [permLD, permXFER] → vbase s f % 8 = 0 →
    curAgent (begun s) = .ok (a, begun s) → ks.length = maskSize s f / 8 →
    ReachesWords a (regCap s f.a) (vbase s f) .read 0 ks (begun s) t →
    (∀ k ∈ ks, NoViews k t.mem ∧ t.mem.firstPoison k 8 = none) →
    let r := readsOf (eyeOf s.cur) 8 ks t.mem
    let v : State := { t with mem := r.2 }
    let mask := bytesNat r.1.flatten
    let kept := (List.range (elementCount s (vw f))).filter mask.testBit
    let size := recordSize s f kept.length
    ((capBounds (regCap s f.a).val).2 < vbase s f + size →
      exec (.ldbm f) s = .next (afterTrap 0x11 (BitVec.ofNat 64 (capBounds (regCap s f.a).val).2) s)) ∧
    (vbase s f + size ≤ (capBounds (regCap s f.a).val).2 → curAgent v = .ok (a', v) →
      ls.length = (size - maskSize s f) / 8 →
      ReachesWords a' (regCap s f.a) (vbase s f) .read (maskSize s f / 8) ls v u →
      (∀ k ∈ ls, NoViews k u.mem ∧ u.mem.firstPoison k 8 = none) →
      let w := readsOf (eyeOf s.cur) 8 ls u.mem
      let values := bytesNat w.1.flatten
      VectorMoves (.ldbm f) f s { u with mem := w.2 } (fun j => some (if mask.testBit j then
        values / 2 ^ (vw f * ((List.range j).filter mask.testBit).length) % 2 ^ vw f else 0))))

/-- 06 R191, R192, 05 R171: the vector loads and stores access their governed elements; STBM and LDBM write and expand sparse records. -/
def Obligations.VectorMemoryFormsAccessGovernedElements : Prop :=
  Sys2Proof.VectorMemoryFormsAccessGovernedElementsPart ∧ Sys2Proof.SparseRecordsAreWrittenAndExpandedPart

/-! ## Matrix commands (06 R193 to R205, 09 R270) -/

namespace Sys2Proof

open Machine

/-- The issuing core takes a command at the end of its queue. -/
def queuedCommand (q : MatrixCmd) (s : State) : State :=
  { s with cores := s.cores.map (fun c => if c.pos = coreOf s.cur.pos then { c with queue := c.queue ++ [q] } else c) }

/-- A matrix trap with a CODE: cause 0x13, with the tile and the instruction's offset in the record (13 R349). -/
def matrixTrapAt (s : State) (tile code : Nat) : State :=
  afterTrap 0x13 (matrixRecord 0 0 tile code (codeOffset s.cur)) s

/-- An operand descriptor names a whole operand inside the gang's cluster store (06 R194 to R196): the bytes that can be read of a
sparse chunk end with the pitch, or with the longest chunk. -/
def DescriptorFits (w : DWord) (fmt k store : Nat) (sparse : Bool) : Prop :=
  w.extractLsb' 54 10 = 0#10 ∧ w.extractLsb' 0 4 = 0#4 ∧ w.extractLsb' 22 10 ≠ 0#10 ∧
    (if sparse then (operandDesc w).top (k / 64)
        (min (16 * (operandDesc w).rowPitch) (if fmt = 6 then 42 else if fmt = 2 ∨ fmt = 3 then 136 else 72)) false
      else (operandDesc w).top (k / kStep fmt) 16 (fmt == 6)) ≤ store

/-- A name is not joined to the name below it, and can enter the mode. -/
def TileUsable (s : State) (core : CoreState) (n : Nat) (mode : Bool) : Prop :=
  joinedTo (projectedMode core) n = false ∧ (mode = true → n % 2 = 0 ∧ n + 1 < allotTiles s.cur.allotw)

/-- MMA, MMAS and MMAR complete by queueing their command; a K that the format does not divide traps with CODE 1, and a full queue
makes them wait. -/
def QueuesMma (i : Instr) (f : Ext) (kind : MatrixKind) : Prop :=
  ∀ s core b store, Runs i s → Readable s f.a f.ta → Readable s f.b f.tb → findCore s s.cur.pos = some core →
    bandOf s s.cur = some b → gangStore b s.cur.fid.gang = some store →
    let n := f.d.toNat
    let fmt := f.fmt.toNat
    let k := f.imm.toNat % 2 ^ 20
    let mode := kind == .mmar
    let group := if kind = .mmas then 64 else kStep fmt
    (k = 0 ∨ k % group ≠ 0 → exec i s = .next (matrixTrapAt s n 1)) ∧
    (k ≠ 0 → k % group = 0 → DescriptorFits (regData s f.a) fmt k store.2 (kind == .mmas) →
      DescriptorFits (regData s f.b) fmt k store.2 false → TileUsable s core n mode →
      (f.imm.getLsbD 20 = false → projectedMode core n = mode) →
      (core.queue.length < 16 → exec i s = .next (past f (queuedCommand
        ⟨kind, n, f.fmt, regData s f.a, regData s f.b, k, f.imm.getLsbD 20, mode, s.cur.fid, codeOffset s.cur, 0, []⟩ (begun s)))) ∧
      (16 ≤ core.queue.length → exec i s = .next (noteWait s)))

/-- The chunk of row r of a sparse command's A operand at K-step p: the group that the command was inside keeps the chunks it has
read. -/
def chunkOf (m : Memory) (store : Nat) (q : MatrixCmd) (p r : Nat) : List Byte × Bool :=
  if p * kStep q.fmt.toNat / 64 * 64 < q.step * kStep q.fmt.toNat then q.chunks.getD r ([], false)
  else sparseChunk m store (operandDesc q.aDesc) q.fmt.toNat p r

/-- The rows of a command's A operand, and of its B operand, at a K-step. -/
def rowsOfA (m : Memory) (store : Nat) (q : MatrixCmd) (p : Nat) : List OperandRow :=
  (List.range 64).map (fun r =>
    if q.kind = .mmas then sparseRow (chunkOf m store q p r) q.fmt.toNat p
    else denseRow m store (operandDesc q.aDesc) q.fmt.toNat p r)

def rowsOfB (m : Memory) (store : Nat) (q : MatrixCmd) (p : Nat) : List OperandRow :=
  (List.range 64).map (denseRow m store (operandDesc q.bDesc) q.fmt.toNat p)

/-- A tile after K-steps [first, first + n) of a command. -/
def stepsOn (m : Memory) (store : Nat) (q : MatrixCmd) (first n : Nat) (t : Tile) : Tile :=
  (List.range n).foldl (fun t p =>
    tileStep q.fmt.toNat t (rowsOfA m store q (first + p)) (rowsOfB m store q (first + p))) t

/-- A cluster in which one core alone has a command to grant. -/
def SoleRequest (s : State) (die cluster : Nat) (core : CoreState) (store : Nat × Nat) (q : MatrixCmd) (rest : List MatrixCmd) :
    Prop :=
  core ∈ s.cores ∧ grantable s die cluster core = true ∧ (∀ c ∈ s.cores, c ≠ core → grantable s die cluster c = false) ∧
    core.queue = q :: rest ∧ q.tile < core.tiles.length ∧
    (findBand s core.band).bind (fun b => gangStore b core.gang) = some store

/-- K-steps that the grant of a core has left: a new grant has 16. -/
def grantLeft (core : CoreState) : Nat := if core.grant = 0 then 16 else core.grant

/-- A command after n more K-steps: for the rest of its last group it keeps the sparse chunks that it has read. -/
def Advanced (m : Memory) (store : Nat) (q : MatrixCmd) (n : Nat) (q' : MatrixCmd) : Prop :=
  { q' with chunks := q.chunks } = { q with step := q.step + n } ∧ (q.kind ≠ .mmas → q'.chunks = q.chunks) ∧
    (q.kind = .mmas → ∀ r, r < 64 → q'.chunks.getD r ([], false) = chunkOf m store q (q.step + n - 1) r)

end Sys2Proof

/-- 06 R196 to R200: MMA, MMAS, MMAR and MZERO are queued in the core's matrix queue, and the thread goes on. -/
def Sys2Proof.MatrixCommandsAreQueuedPart : Prop :=
  (∀ f, QueuesMma (.mma f) f .mma) ∧ (∀ f, QueuesMma (.mmas f) f .mmas) ∧ (∀ f, QueuesMma (.mmar f) f .mmar) ∧
  (∀ f s core, Runs (.mzero f) s → findCore s s.cur.pos = some core → TileUsable s core f.d.toNat (f.imm.getLsbD 0) →
    (core.queue.length < 16 → exec (.mzero f) s = .next (past f (queuedCommand
      ⟨.mzero, f.d.toNat, 0#4, 0#64, 0#64, 0, true, f.imm.getLsbD 0, s.cur.fid, codeOffset s.cur, 0, []⟩ (begun s)))) ∧
    (16 ≤ core.queue.length → exec (.mzero f) s = .next (noteWait s)))

/-- 09 R270, 06 R197 to R200: a grant is for up to 16 K-steps of the oldest command of a core; some of those it has left run before
anything else happens, by a free choice (log entry 21), and it ends with its command.  ZERO or MZERO zeroes the tile first, each
K-step is R106's, and a complete command leaves the queue; a command that names a faulted tile is skipped; no byte of memory and
nothing else of the machine changes. -/
def Sys2Proof.MatrixGrantsRunKStepsPart : Prop :=
  ∀ (s : State) (die cluster : Nat) (core : CoreState) (store : Nat × Nat) (q : MatrixCmd) (rest : List MatrixCmd),
    clocked s = true → SoleRequest s die cluster core store q rest → (∀ k n, copyOwned s none k n = false) →
    let total := q.k / kStep q.fmt.toNat
    ∃ k core' m, k < grantLeft core ∧
      exec (.matrixGrant die cluster) s = .next { s with
        free := s.free + 1, mem := m, cores := s.cores.map (fun x => if x.pos = core.pos then core' else x) } ∧
      SameBytes m s.mem ∧
      (∀ r, (tileAt core q.tile).fault = some r → core'.queue = rest ∧ core'.grant = 0 ∧
        tileAt core' q.tile = { tileAt core q.tile with
          fault := some { r with skipped := r.skipped + 1, issuers := r.issuers ++ [q.issuer] } }) ∧
      (let n := min (k + 1) (total - q.step)
       (tileAt core q.tile).fault = none → q.step < total →
        (q.kind = .mmas → ∀ p, p < n → sparseFault s.mem store.1 (operandDesc q.aDesc) q.fmt.toNat (q.step + p) = none) →
        tileAt core' q.tile = stepsOn s.mem store.1 q q.step n
          (if q.step = 0 ∧ q.zero = true then Tile.zeroed q.mode else tileAt core q.tile) ∧
        (q.step + n = total → core'.queue = rest ∧ core'.grant = 0) ∧
        (q.step + n < total → ∃ q', core'.queue = q' :: rest ∧ Advanced s.mem store.1 q n q' ∧ core'.grant = grantLeft core - n)) ∧
      ((tileAt core q.tile).fault = none → total ≤ q.step → q.step = 0 → q.zero = true →
        tileAt core' q.tile = Tile.zeroed q.mode ∧ core'.queue = rest ∧ core'.grant = 0)

namespace Sys2Proof

open Machine

/-- A tile that no queued command names, without a fault record, and not joined to the name below it. -/
def TileIdle (core : CoreState) (n : Nat) : Prop :=
  (∀ q ∈ core.queue, q.tile ≠ n) ∧ (tileAt core n).fault = none ∧ joinedTo (fun i => (tileAt core i).mode) n = false

/-- The tensor scales of B: 1.0 and 1.0 for g0 (06 R201). -/
def scalesOf (s : State) (f : Ext) : Nat × Nat :=
  if f.b = 0#6 then (0x3F800000, 0x3F800000) else ((regData s f.b).toNat % 2 ^ 32, (regData s f.b).toNat / 2 ^ 32)

/-- PITCH covers a row and is a multiple of the element; the tile's bytes pass Deref; the first is aligned (06 R201). -/
def TileRange (c : TCap) (pitch size perm : Nat) : Prop :=
  64 * size ≤ pitch ∧ pitch % size = 0 ∧ DerefPasses c (capAddr c.val) (63 * pitch + 64 * size) [perm] ∧ capAddr c.val % size = 0

/-- Accesses at a list of addresses reach the bytes at `keys`, one after the other. -/
def ReachesEach (a : Agent) (size : Nat) (kind : Kind) (checked fmtw : Bool) : List Nat → List Nat → State → State → Prop
  | [], [], s, t => s = t
  | x :: xs, k :: ks, s, t => keyIsView k = false ∧
      ∃ leaf u, reach a x size kind checked fmtw s = .ok (.bytes k leaf, u) ∧ ReachesEach a size kind checked fmtw xs ks u t
  | _, _, _, _ => False

/-- The core's tile n is zeroed with clear status; a fault record stays (06 R205). -/
def clearTile (n : Nat) (mode : Bool) (s : State) : State :=
  { s with cores := s.cores.map (fun c => if c.pos = coreOf s.cur.pos then
      { c with tiles := c.tiles.modify n (fun t => { Tile.zeroed mode with fault := t.fault }) } else c) }

/-- No copy is in flight on any core. -/
def NoCopies (s : State) : Prop := ∀ c ∈ s.cores, ∀ ch ∈ c.channels, ch.live = []

/-- MRD of a tile completes: 64 rows of 64 converted elements are stored at cursor(A), PITCH apart; with CLEAR the tile is zeroed;
a range error traps with cause 0x0C and stores nothing. -/
def ReadsTile (f : Ext) : Prop :=
  ∀ s t core a ks, Runs (.mrd f) s → Readable s f.a f.ta → Readable s f.b f.tb → findCore s s.cur.pos = some core →
    let n := f.d.toNat
    let tile := tileAt core n
    let fmt := f.fmt.toNat
    let size := fmtBits fmt / 8
    let pitch := f.imm.toNat % 2 ^ 20
    let sc := scalesOf s f
    let u := afterDraws f.rm 4096 (begun s)
    let one (i : Nat) := mrdElement tile fmt (Rm.ofCode f.rm.toNat) (f.imm.getLsbD 20) ((drawsOf f.rm 4096 s).1.getD i 0) i sc.1 sc.2
    TileIdle core n → (tile.mode = true → fmt < 2 ∨ fmt = 13 ∧ f.b = 0#6) → TileRange (regCap s f.a) pitch size permST →
    tile.poison = false →
    (∀ i nan, i < 4096 → one i = .error nan → (∀ j, j < i → ∃ r, one j = .ok r) →
      exec (.mrd f) s = .next (afterTrap 0x0C (BitVec.ofNat 64
        ((if nan then 2 ^ 28 else 0) + fmt * 2 ^ 24 + (if tile.mode then 14 else 1) * 2 ^ 16 + i)) s)) ∧
    (∀ rs : List (Nat × Flags), rs.length = 4096 → (∀ i r, rs[i]? = some r → one i = .ok r) → curAgent u = .ok (a, u) →
      ReachesEach a size .write true (capHas (regCap s f.a).val permFMTW)
        (tileAddresses (capAddr (regCap s f.a).val) pitch size) ks u t →
      ∃ (m : Memory) (fl : Flags), (∀ k, fl.getLsbD k = true ↔ ∃ r ∈ rs, r.2.getLsbD k = true) ∧
        exec (.mrd f) s = .next (past f ((if f.imm.getLsbD 21 then clearTile n tile.mode else id)
          (setFlags fl { t with mem := m, nextId := t.nextId + 4096 }))) ∧
        (t.mem.wf = true → (∀ k ∈ ks, NoViews k t.mem) → ∀ x, cellGet m.cells x =
          (lastWrite ((ks.zip rs).map (fun y => (y.1, natBytes size y.2.1))) x).getD (cellGet t.mem.cells x)))

/-- An accumulator that MWR loads: RNS64 is made canonical, a subnormal FP32 becomes a zero of its sign (06 R202). -/
def loadedAccumulator (mode : Bool) (x : Nat) : Nat :=
  if mode then rnsAdd x 0 else if x % 2 ^ 31 ≠ 0 ∧ x % 2 ^ 31 < 2 ^ 23 then (if x.testBit 31 then 2 ^ 31 else 0) else x

/-- MWR completes: the tile, in the mode that FMT asks for, holds 64 rows of 64 elements read from cursor(A), PITCH apart; no byte
changes. -/
def WritesTile (f : Ext) : Prop :=
  ∀ s t core a ks, Runs (.mwr f) s → Readable s f.a f.ta → findCore s s.cur.pos = some core →
    let n := f.d.toNat
    let mode := f.fmt == 14#4
    let size := if mode then 8 else 4
    let pitch := f.imm.toNat % 2 ^ 20
    TileIdle core n → (mode = true → n % 2 = 0 ∧ n + 1 < allotTiles s.cur.allotw ∧ ∀ q ∈ core.queue, q.tile ≠ n + 1) →
    n < core.tiles.length → TileRange (regCap s f.a) pitch size permLD → curAgent (begun s) = .ok (a, begun s) →
    ReachesEach a size .read false false (tileAddresses (capAddr (regCap s f.a).val) pitch size) ks (begun s) t →
    (∀ k ∈ ks, NoViews k t.mem ∧ t.mem.firstPoison k size = none) →
    let r := readsOf (eyeOf s.cur) size ks t.mem
    SameBytes r.2 t.mem ∧ ∃ g : CoreState → CoreState,
      exec (.mwr f) s = .next (past f
        { t with mem := r.2, cores := t.cores.map (fun c => if c.pos = coreOf s.cur.pos then g c else c) }) ∧
      ∀ c, n < c.tiles.length → (tileAt (g c) n).mode = mode ∧ (tileAt (g c) n).fault = (tileAt c n).fault ∧
        (tileAt (g c) n).acc = r.1.map (fun bs => BitVec.ofNat 64 (loadedAccumulator mode (bytesNat bs))) ∧
        (∀ j, j ≠ n → j ≠ n + 1 → tileAt (g c) j = tileAt c j) ∧ (g c).queue = c.queue

/-- MRQT completes while no copy is in flight: no byte outside the gang's cluster-store allotment changes, nor any other register or tile (06 R203). -/
def Requantises (f : Ext) : Prop :=
  ∀ s core b store c, Runs (.mrqt f) s → Readable s f.a f.ta → Readable s f.b f.tb → findCore s s.cur.pos = some core →
    bandOf s s.cur = some b → gangStore b s.cur.fid.gang = some store → findCtx s s.cur.fid.ctx = some c →
    accessWaits s.cur = false → NoCopies s →
    let n := f.d.toNat
    let tile := tileAt core n
    let w := regData s f.a
    TileIdle core n → tile.mode = false → tile.poison = false →
    w.extractLsb' 54 10 = 0#10 → w.extractLsb' 0 4 = 0#4 → w.extractLsb' 22 10 ≠ 0#10 → (operandDesc w).top 2 16 true ≤ store.2 →
    ∃ (m : Memory) (fl : Flags) (id : Nat),
      exec (.mrqt f) s = .next (past f (setFlags fl { afterDraws f.rm 4096 (begun s) with mem := m, nextId := id })) ∧
      (s.mem.wf = true → (∀ x, x < store.1 ∨ store.1 + store.2 ≤ x → cellGet m.cells x = cellGet s.mem.cells x) ∧
        m.full = s.mem.full)

/-- MWAIT completes once no queued command names the tile and it holds no fault record; else it waits, or reports the record. -/
def WaitsTile (i : Instr) (f : Ext) : Prop :=
  ∀ s core, Runs i s → findCore s s.cur.pos = some core →
    let n := actsOn core f.a.toNat
    ((∃ q ∈ core.queue, q.tile = n) → exec i s = .next (noteWait s)) ∧
    ((∀ q ∈ core.queue, q.tile ≠ n) → (tileAt core n).fault = none → exec i s = .next (past f (begun s))) ∧
    (∀ r, (∀ q ∈ core.queue, q.tile ≠ n) → (tileAt core n).fault = some r →
      let s' := dropWaits (agentId s.cur) s
      exec i s = .next (takeTrap r.cause (matrixRecord r.kstep r.skipped n 0 r.offset) { s' with
        cores := s'.cores.map (fun x => if x.pos = coreOf s.cur.pos then
          { x with tiles := x.tiles.modify n (fun t => { t with fault := none }) } else x) }))

/-- MQSTAT completes: the number of queued commands, the recorded cause and the status bits of the tile. -/
def StatesTile (i : Instr) (f : Ext) : Prop :=
  ∀ s core, Runs i s → findCore s s.cur.pos = some core → Writable s f.d →
    let n := actsOn core f.a.toNat
    let t := tileAt core n
    let bit (b : Bool) (x : Nat) : Nat := if b then x else 0
    exec i s = .next (past f (setData f.d (BitVec.ofNat 64
      ((core.queue.filter (fun q => q.tile == n)).length * 2 ^ 16 +
        (match t.fault with
         | some r => r.cause
         | none => 0) * 2 ^ 8 +
        (bit t.mode 16 + bit t.poison 8 + bit t.inexact 4 + bit t.overflow 2 + bit t.underflow 1))) (begun s)))

end Sys2Proof

/-- 06 R201 to R205: the tile transfers MRD, MWR and MRQT complete, and MWAIT and MQSTAT report. -/
def Sys2Proof.TileTransfersCompletePart : Prop :=
  (∀ f, ReadsTile f) ∧ (∀ f, WritesTile f) ∧ (∀ f, Requantises f) ∧
  (∀ f, WaitsTile (.mwait f) f.ext) ∧ (∀ f, WaitsTile (.mwaitExt f) f) ∧
  (∀ f, StatesTile (.mqstat f) f.ext) ∧ (∀ f, StatesTile (.mqstatExt f) f)

/-- 06 R196 to R205, 09 R270: matrix commands are queued and run by grants of K-steps; the tile transfers MRD, MWR and MRQT complete; MWAIT and
MQSTAT report. -/
def Obligations.MatrixFormsComplete : Prop :=
  Sys2Proof.MatrixCommandsAreQueuedPart ∧ Sys2Proof.MatrixGrantsRunKStepsPart ∧ Sys2Proof.TileTransfersCompletePart

/-! ## Ports, launches, joins and events (07 R209 to R214) -/

namespace Sys2Proof

open Machine

/-- A firing of an actor, its band and its instance. -/
def FiringOf (s : State) (b : Band) (me : Instance) : Prop :=
  s.cur.duty = .firing ∧ findBand s s.cur.fid.band = some b ∧ b.entry = s.cur.fid.band ∧
    findInstance b s.cur.fid.gang s.cur.fid.inst = some me

/-- The output port of a SEND. -/
def sendPort (f : Ext) : Nat := (f.imm.extractLsb' 0 2).toNat

/-- The route binds: the sender's output port to the route, the target's input port to the sender, and one more element counts as
sent; the sender's earlier writes are performed at band scope (07 R210). -/
def sendBound (b : Band) (dst : Instance) (port : Nat) (route : DWord) (s : State) : State :=
  let s1 := modInstance b.entry s.cur.fid.gang s.cur.fid.inst (fun i => { i with outs := i.outs.set port (some route) })
    (performed 2 s)
  let s2 := modInstance b.entry dst.gang dst.index
    (fun i => { i with producers := i.producers.set (routePort route) (some (s.cur.fid.gang, s.cur.fid.inst, port)) }) s1
  { s2 with cur := { s.cur with sent := setAt s.cur.sent port (· + 1) } }

/-- SEND and SENDV complete: the element, cut to the port's ESIZE, enters the target FIFO, in room reserved at the firing's start or
free, or else is in flight; elements of a port enter in the order sent, so an older one in flight takes the reserved room.  It carries
what its sender has seen. -/
def Sends (i : Instr) (f : Ext) (largest : Nat) (data : State → Nat → State → Prop) : Prop :=
  ∀ s u c b me dst x, Runs i s → Readable s f.a f.ta → data (begun s) x u → FiringOf u b me → findCtx u u.cur.fid.ctx = some c →
    let port := sendPort f
    let route := regData s f.a
    let k := routePort route
    let self := (u.cur.fid.gang, u.cur.fid.inst, port)
    outRate b port ≠ 0 → outEsize b port ≤ largest →
    (routeTarget b route = none → exec i s = .next (afterTrap 0x05 route s)) ∧
    (routeTarget b route = some dst → inEsize b k = outEsize b port →
      (me.outs.getD port none = none ∨ me.outs.getD port none = some route) →
      (c.det = true → dst.producers.getD k none = none ∨ dst.producers.getD k none = some self) →
      (outRate b port ≤ u.cur.sent.getD port 0 → exec i s = .next (afterTrap 0x05 (BitVec.ofNat 64 port) s)) ∧
      (u.cur.sent.getD port 0 < outRate b port →
        let t := sendBound b dst port route u
        let v : Sent := ⟨BitVec.ofNat 1024 (x % 2 ^ (8 * 2 ^ outEsize b port)), t.mem.clockAt (eyeOf t.cur)⟩
        let entered (i : Instance) : Instance := { i with fifos := setAt i.fifos k (· ++ [v]) }
        let mine (e : Element) : Bool :=
          e.band == b.entry && e.srcGang == u.cur.fid.gang && e.srcInst == u.cur.fid.inst && e.srcPort == port
        let flying (es : List Element) : List Element :=
          es ++ [⟨b.entry, u.cur.fid.gang, u.cur.fid.inst, port, routeGang route, routeInst route, k, v⟩]
        exec i s = .next (past f (
          if u.cur.boundAtStart.getD port false then
            match u.net.elements.find? mine with
            | none => modInstance b.entry (routeGang route) (routeInst route)
                (fun d => { entered d with reserved := setAt d.reserved k (· - 1) }) t
            | some old => { modInstance b.entry (routeGang route) (routeInst route) (fun d =>
                { d with fifos := setAt d.fifos k (· ++ [old.sent]), reserved := setAt d.reserved k (· - 1) }) t with
                net := { t.net with elements := flying (t.net.elements.eraseP mine) } }
          else if 0 < roomOf b dst k ∧ u.net.elements.any mine = false then
            modInstance b.entry (routeGang route) (routeInst route) entered t
          else { t with net := { t.net with elements := flying t.net.elements } }))))

/-- PCOUNT completes: the elements in an input FIFO, or what an output port may still send. -/
def CountsPort (i : Instr) (f : Ext) : Prop :=
  ∀ s b me, Runs i s → Writable s f.d → FiringOf s b me →
    let n := f.a.toNat
    (n < 4 → inRate b n ≠ 0 → exec i s = .next (past f (setData f.d (BitVec.ofNat 64 (me.fifos.getD n []).length) (begun s)))) ∧
    (4 ≤ n → outRate b (n - 4) ≠ 0 →
      exec i s = .next (past f (setData f.d (BitVec.ofNat 64 (outRate b (n - 4) - s.cur.sent.getD (n - 4) 0)) (begun s)))) ∧
    ((if n < 4 then inRate b n else outRate b (n - 4)) = 0 →
      exec i s = .next (afterTrap 0x02 (BitVec.ofNat 64 (3 * 0x100 + n)) s))

/-- An agent reads `size` bytes at each address, one after the other, from state s to state t: each is reached, is neither a view's
nor poisoned, and gives what the thread sees there, with its granule's tag. -/
def ReadsFrom (a : Agent) (size : Nat) : List Nat → List (List Byte × Bool) → State → State → Prop
  | [], [], s, t => t = s
  | x :: xs, r :: rs, s, t => ∃ u k leaf, reach a x size .read false false s = .ok (.bytes k leaf, u) ∧ keyIsView k = false ∧
      (let m := u.mem.readied (eyeOf s.cur) k size
       m.firstPoison k size = none ∧ r = (m.seenBytes (eyeOf s.cur) k size, m.seenTag (eyeOf s.cur) (k / 16)) ∧
         ReadsFrom a size xs rs { u with mem := m } t)
  | _, _, _, _ => False

/-- The 256 bytes of a launch packet are read from their places, with the tags that A may load. -/
def PacketRead (s : State) (f : Ext) (ws : List DWord) (p : Packet) (t : State) : Prop :=
  ∃ a rs, Readable s f.a f.ta ∧ DerefPasses (regCap s f.a) (capAddr (regCap s f.a).val) 256 [permLD] ∧
    capAddr (regCap s f.a).val % 64 = 0 ∧ curAgent (begun s) = .ok (a, begun s) ∧
    ReadsFrom a 16 ((List.range 16).map (fun i => capAddr (regCap s f.a).val + 16 * i)) rs (begun s) t ∧
    ws = wordsOf 32 (rs.flatMap (·.1)) ∧ p = packetOf ws (rs.mapIdx (fun i r => r.2 && (i == 0 || capHas (regCap s f.a).val permLDCAP)))

/-- A node waits in the pool for a packet, at the lowest free entry; its firings follow what the launching thread has seen
(07 R212, 08 R258). -/
def pooled (p : Packet) (parent : Option Nat) (child : Nat) (e : Nat) (s : State) : State :=
  refreshReady s.cur.fid.ctx { s with
    nodes := s.nodes ++ [⟨e, s.cur.fid.ctx, p, false, s.dev.cycle, s.nextId, s.dev.cycle, 0, parent, child, parent.isSome, none,
      false, s.mem.clockAt (eyeOf s.cur)⟩]
    nextId := s.nextId + 1 }

/-- LAUNCH completes: the packet passes R212's checks and waits in the pool; a full pool makes it wait; a failed check traps with
the cause and the field's offset. -/
def Launches (f : Ext) : Prop :=
  ∀ s t c ws p, Runs (.launch f) s → PacketRead s f ws p t → findCtx t t.cur.fid.ctx = some c →
    let fault := packetFault ws p c.det (descriptorWords t c (bandOf t t.cur) p.entry.val)
    (∀ e, fault = none → freeEntry t = some e →
      exec (.launch f) s = .next (past f (pooled p none 0 e (performed 3 t)))) ∧
    (fault = none → freeEntry t = none → exec (.launch f) s = .next (noteWait s)) ∧
    (∀ cause off, fault = some (cause, off) → exec (.launch f) s = .next (afterTrap cause (BitVec.ofNat 64 off) s))

/-- SPAWN completes: the child waits in the pool with its fork path, which D receives, and the band has spawned its index. -/
def Spawns (f : Ext) : Prop :=
  ∀ s t c b ws p path e, Runs (.spawn f) s → PacketRead s f ws p t → findCtx t t.cur.fid.ctx = some c →
    bandOf t t.cur = some b →
    let child := (f.imm.extractLsb' 0 4).toNat
    packetFault ws p c.det (descriptorWords t c (bandOf t t.cur) p.entry.val) = none →
    childPath s.cur.pathw child = some path → child ∉ b.spawned → freeEntry t = some e → Writable s f.d →
    let u := pooled { p with path := path } (some b.sequence) child e (performed 3 t)
    exec (.spawn f) s = .next (past f (setData f.d path
      { u with bands := u.bands.map (fun x => if x.entry = b.entry then { x with spawned := setAdd x.spawned child } else x) }))

/-- The thread's earlier releases are performed, as an acquire at a scope begins, and what a clock covers is visible to it (08 R258). -/
def followedAt (scope : Nat) (c : List Nat) (s : State) : State :=
  { s with mem := (released scope s).mem.applyClock s.cur.pos.die (some (.agent (agentId s.cur))) c }

/-- The same at dev scope. -/
def followed (c : List Nat) (s : State) : State := followedAt 3 c s

/-- Words of 8 bytes that loads of the thread read one after the other, from state s to state t. -/
def LoadsWords (c : TCap) : List Nat → List Nat → State → State → Prop
  | [], [], s, t => t = s
  | x :: xs, w :: ws, s, t => ∃ u k leaf, DerefPasses c x 8 [permLD] ∧ x % 8 = 0 ∧ Reaches s x 8 .read false false (.bytes k leaf) u ∧
      keyIsView k = false ∧
      (let m := u.mem.readied (eyeOf s.cur) k 8
       m.firstPoison k 8 = none ∧ w = bytesNat (m.seenBytes (eyeOf s.cur) k 8) ∧ LoadsWords c xs ws { u with mem := m } t)
  | _, _, _, _ => False

/-- The children that A names. -/
def joinedChildren (a : DWord) : List Nat := (List.range 16).filter a.getLsbD

/-- JOINC completes once every named child has been spawned and its band has exited: D is the sum of their words at cursor(B) + 8·c
in ascending order, read after what the children did; before that it waits. -/
def JoinsChildren (f : Ext) : Prop :=
  ∀ (s t : State) (b : Band) (xs : List Nat), Runs (.joinc f) s → Readable s f.a f.ta → Readable s f.b f.tb → Writable s f.d →
    bandOf s s.cur = some b →
    let a := regData s f.a
    let c := regCap s f.b
    let ended := b.exited.filter (fun x => (joinedChildren a).contains x.1)
    a.getLsbD 0 = false → a.toNat < 2 ^ 16 →
    ((∃ j ∈ joinedChildren a, j ∉ b.spawned ∨ ∀ x ∈ b.exited, x.1 ≠ j) → exec (.joinc f) s = .next (noteWait s)) ∧
    ((∀ j ∈ joinedChildren a, j ∈ b.spawned ∧ ∃ x ∈ b.exited, x.1 = j) →
      LoadsWords c ((joinedChildren a).map (fun j => (capAddr c.val + 8 * j) % 2 ^ 64)) xs
        (followed (ended.foldl (fun k x => clockMerge k x.2) []) (begun s)) t → t.cur.g = s.cur.g →
      let r := xs.foldl (fun r x => ((jointOp f r.1 x).1, r.2 ||| (jointOp f r.1 x).2)) ((0, Flags.none) : Nat × Flags)
      exec (.joinc f) s = .next (past f (setData f.d (BitVec.ofNat 64 r.1) (setFlags r.2 t))) ∧
      (f.fmt ≠ 0#4 → f.fmt ≠ 14#4 → BitVec.ofNat 64 r.1 = BitVec.ofNat 64 xs.sum))

/-- A change of the context's event vector by a release at dev scope; nodes whose wait mask is met become ready.  `ev` keeps the
clocks of the changes to each bit; the context makes progress if the vector changes. -/
def eventsChanged (g : BitVec 256 → BitVec 256) (ev : Ctx → List (Nat × List Nat)) (s : State) : State :=
  refreshReady s.cur.fid.ctx { performed 3 s with
    ctxs := s.ctxs.map (fun c => if c.number = s.cur.fid.ctx then
      { c with
        events := g c.events, evClocks := ev c, lastProgress := if g c.events = c.events then c.lastProgress else s.dev.cycle } else c) }

/-- A word of the event vector. -/
def wordMask (f : Ext) (x : DWord) : BitVec 256 := x.setWidth 256 <<< (64 * (f.imm.toNat % 4))

/-- EVSET and EVCLR complete: the bits of A in word IMM change, and the clocks of the changed bits take in what the thread has seen. -/
def ChangesEvents (i : Instr) (f : Ext) (g : BitVec 256 → BitVec 256 → BitVec 256) : Prop :=
  ∀ s, Runs i s → Readable s f.a f.ta → ∃ ev : Ctx → List (Nat × List Nat),
    (∀ c k, k < 256 → (wordMask f (regData s f.a)).getLsbD k = true → ∃ x ∈ ev c, x.1 = k ∧
      ∃ old, x.2 = clockMerge old ((performed 3 (begun s)).mem.clockAt (eyeOf s.cur))) ∧
    exec i s = .next (past f (eventsChanged (fun e => g e (wordMask f (regData s f.a))) ev (begun s)))

/-- EVTEST completes: all ones when every bit of A is set in word B of the events, which is an acquire of the changes that set
them. -/
def TestsEvents (i : Instr) (f : Ext) : Prop :=
  ∀ s c, Runs i s → Readable s f.a f.ta → findCtx s s.cur.fid.ctx = some c → f.b.toNat < 4 →
    let mask : BitVec 256 := (regData s f.a).setWidth 256 <<< (64 * f.b.toNat)
    exec i s = .next (past f (
      if c.events.extractLsb' (64 * f.b.toNat) 64 &&& regData s f.a = regData s f.a then
        setPred f.d 0xFFFFFFFF#32 (followed (c.eventClock mask) (begun s))
      else setPred f.d 0#32 (begun s)))

end Sys2Proof

/-- 07 R210 to R214: SEND, SENDV, PCOUNT, LAUNCH, SPAWN, JOINC, EVSET, EVCLR and EVTEST complete. -/
def Obligations.ActorFormsComplete : Prop :=
  (∀ f, Sends (.send f) f 3 (fun s x u => Readable s f.d f.tb ∧ x = (regData s f.d).toNat ∧ u = s)) ∧
  (∀ f, Sends (.sendv f) f 7 (fun s x u => ∃ v, readV f.d f.tb s = .ok (v, u) ∧ x = v.toNat)) ∧
  (∀ f, CountsPort (.pcount f) f.ext) ∧ (∀ f, CountsPort (.pcountExt f) f) ∧
  (∀ f, Launches f) ∧ (∀ f, Spawns f) ∧ (∀ f, JoinsChildren f) ∧
  (∀ f, ChangesEvents (.evset f) f (fun e m => e ||| m)) ∧ (∀ f, ChangesEvents (.evclr f) f (fun e m => e &&& ~~~m)) ∧
  (∀ f, TestsEvents (.evtest f) f.ext) ∧ (∀ f, TestsEvents (.evtestExt f) f)

/-! ## Remote calls at the caller and in a handler (07 R226 to R231) -/

namespace Sys2Proof

open Machine

/-- Registers first to first + n − 1 are readable. -/
def BlockReadable (s : State) (first : BitVec 6) (n : Nat) (tb : Bool) : Prop := ∀ i, i < n → Readable s (first + BitVec.ofNat 6 i) tb

/-- The values of a block as a call carries them: to another device, a tag crosses on a sealed capability with GLOBAL only. -/
def blockValues (s : State) (first : BitVec 6) (n : Nat) (remote : Bool) : List TCap :=
  (List.range n).map (fun i => crossing remote (regCap s (first + BitVec.ofNat 6 i)))

/-- Nothing of the thread is on its way to a device: neither stores nor atomics (11 R315). -/
def DeviceQuiet (s : State) (device : Nat) : Prop :=
  (∀ x ∈ s.cur.remoteStores, x.failed = false → x.address.toNat / 2 ^ 50 ≠ device) ∧
    (∀ x ∈ s.cur.inFlight, x.away ≠ none → x.address.toNat / 2 ^ 50 ≠ device)

/-- The message of a call by the issuing thread. -/
def CallSent (s : State) (f : Ext) (r : CallRoute) (count : Nat) (m : CallMsg) : Prop :=
  m.ctx = s.cur.fid.ctx ∧ m.pathw = s.cur.pathw ∧ m.caller = s.cur.fid ∧ m.callerDevice = s.dev.number ∧ m.target = r.target ∧
    m.handler = f.imm.toNat % 2 ^ 12 ∧
    m.payload = blockValues s f.b (f.imm.toNat / 2 ^ 12 % 16) (decide (r.device ≠ s.dev.number)) ∧ m.count = count ∧
    m.reply = (count != 0) ∧ m.forwarded = false ∧ m.hops = 0 ∧ m.device = r.device ∧ m.owner = r.owner ∧ m.thread = s.cur.pos.thread

/-- A call is sent: the message leaves, the thread keeps the call as outstanding under the thread's next serial, and memory is as it
was. -/
def CallLeft (s t u : State) (f : Ext) (r : CallRoute) (count : Nat) : Prop :=
  ∃ m o, u.net = { t.net with calls := t.net.calls ++ [m] } ∧ CallSent s f r count m ∧ u.cur.calls = s.cur.calls ++ [o] ∧
    o.serial = m.serial ∧ o.thread = m.thread ∧ o.reg = f.d.toNat ∧ o.count = count ∧ o.device = r.device ∧ o.payload = m.payload ∧
    u.mem = t.mem ∧ m.clock = t.mem.clockAt (eyeOf s.cur) ∧ u.cur.p = s.cur.p ∧ u.cur.v = s.cur.v ∧ u.threads = t.threads ∧ u.dev = t.dev ∧
    ∀ core, findCore t s.cur.pos = some core → m.serial = core.serials.getD s.cur.pos.thread 0#32

end Sys2Proof

/-- 07 R226, R228, R229, R231: RCALL leaves its reply registers empty with a producer pending and sends the call; RCALLN counts it;
RREPLY and RFWD in a handler end it, answering or forwarding (a caller of this device then waits for the next hop's owner); RFENCE
waits for every RCALLN and is an acquire of what their handlers did; RCSTAT reports. -/
def Obligations.RemoteCallFormsComplete : Prop :=
  (∀ f s t r core, Runs (.rcall f) s → Readable s f.a f.ta → routeCall (regCap s f.a) (begun s) = .ok (r, t) → t.cur = (begun s).cur → t.dev = s.dev →
    BlockReadable s f.b (f.imm.toNat / 2 ^ 12 % 16) f.tb → findCore t s.cur.pos = some core →
    (∃ c, findCtx t s.cur.fid.ctx = some c) →
    (s.cur.calls.filter (fun c => decide (0 < c.count))).length < 32 →
    DeviceQuiet s r.device →
    let m := f.imm.toNat / 2 ^ 16 % 8
    (∀ i, i < m → Writable s (f.d + BitVec.ofNat 6 i)) →
    ∃ u, exec (.rcall f) s = .next (past f u) ∧ CallLeft s t u f r m ∧ u.cur.rcalln = s.cur.rcalln ∧
      ∀ n : BitVec 6, gAt u.cur n = if n ≠ 0#6 ∧ (∃ i, i < m ∧ n = f.d + BitVec.ofNat 6 i) then { gAt s.cur n with st := .pending }
        else gAt s.cur n) ∧
  (∀ f s t r core, Runs (.rcalln f) s → Readable s f.a f.ta → routeCall (regCap s f.a) (begun s) = .ok (r, t) → t.cur = (begun s).cur → t.dev = s.dev →
    BlockReadable s f.b (f.imm.toNat / 2 ^ 12 % 16) f.tb → findCore t s.cur.pos = some core →
    (∃ c, findCtx t s.cur.fid.ctx = some c) → s.cur.rcalln ≠ 65535 →
    DeviceQuiet s r.device →
    ∃ u, exec (.rcalln f) s = .next (past f u) ∧ CallLeft s t u f r 0 ∧ u.cur.rcalln = s.cur.rcalln + 1 ∧ u.cur.g = s.cur.g) ∧
  (∀ f s h, Runs (.rreply f) s → BlockReadable s f.a f.imm.toNat f.ta → s.cur.duty = .handler h → anyPending s.cur = false →
    h.callerDevice = s.dev.number → h.reply = true →
    exec (.rreply f) s = .next { s with
      cur := { Thread.idle with pos := s.cur.pos }
      net := { s.net with replies := s.net.replies ++
        [⟨h.caller, h.callerDevice, h.serial, h.thread, blockValues s f.a f.imm.toNat false, .clear,
          s.mem.clockAt (eyeOf s.cur)⟩] } }) ∧
  (∀ f s t r h, Runs (.rfwd f) s → Readable s f.a f.ta → routeCall (regCap s f.a) (begun s) = .ok (r, t) → t.cur = (begun s).cur → t.dev = s.dev →
    BlockReadable s f.b (f.imm.toNat / 2 ^ 12 % 16) f.tb → s.cur.duty = .handler h →
    (7 ≤ h.hops → exec (.rfwd f) s = .next (afterTrap 0x0F 0#64 s)) ∧
    (h.hops < 7 → anyPending s.cur = false → DeviceQuiet s r.device →
      ∃ m idem, exec (.rfwd f) s = .next
        { (if h.callerDevice = s.dev.number then forwardCall h r (f.imm.toNat % 2 ^ 12) idem m.payload t else t) with
          cur := { Thread.idle with pos := s.cur.pos }
          net := { t.net with calls := t.net.calls ++ [m] } } ∧
        m.caller = h.caller ∧ m.callerDevice = h.callerDevice ∧ m.serial = h.serial ∧ m.thread = h.thread ∧ m.target = r.target ∧ m.count = h.count ∧
        m.payload = blockValues s f.b (f.imm.toNat / 2 ^ 12 % 16) (decide (r.device ≠ s.dev.number)) ∧
        m.reply = h.reply ∧ m.forwarded = true ∧ m.hops = h.hops + 1 ∧ m.handler = f.imm.toNat % 2 ^ 12 ∧ m.owner = r.owner)) ∧
  (∀ (i : Instr) (f : Ext) (s : State), (∃ b, i = .rfence b ∧ f = b.ext) ∨ i = .rfenceExt f → Runs i s →
    (s.cur.rcalln ≠ 0 → exec i s = .next (noteWait s)) ∧
    (s.cur.rcalln = 0 → s.cur.rcallRecord = none →
      let u := followed s.cur.rcallClock (begun s)
      exec i s = .next (past f { u with cur := { u.cur with rcallClock := [] } })) ∧
    (∀ w, s.cur.rcalln = 0 → s.cur.rcallRecord = some w →
      let s' := dropWaits (agentId s.cur) s
      exec i s = .next (takeTrap (if (w.extractLsb' 56 8).toNat = 2 then 0x10 else 0x0F) w
        { s' with cur := { s'.cur with rcallRecord := none, rcallUnreported := 0 } }))) ∧
  (∀ (i : Instr) (f : Ext) (s : State), (∃ b, i = .rcstat b ∧ f = b.ext) ∨ i = .rcstatExt f → Runs i s → Writable s f.d →
    exec i s = .next (past f (setData f.d (BitVec.ofNat 64
      ((match s.cur.rcallRecord with
        | some w => (w.extractLsb' 48 8).toNat
        | none => 0) * 2 ^ 32 + min s.cur.rcallUnreported 255 * 2 ^ 24 +
        (s.cur.calls.filter (fun c => decide (0 < c.count))).length * 2 ^ 16 + s.cur.rcalln)) (begun s))))

/-! ## The Factor Unit (07 R215 to R224, 10 R289 to R299) -/

namespace Sys2Proof

open Machine

/-- Accesses of given addresses and sizes reach the bytes at `keys`, one after the other. -/
def ReachesSized (a : Agent) (kind : Kind) (checked fmtw : Bool) : List (Nat × Nat) → List Nat → State → State → Prop
  | [], [], s, t => s = t
  | x :: xs, k :: ks, s, t => keyIsView k = false ∧
      ∃ leaf u, reach a x.1 x.2 kind checked fmtw s = .ok (.bytes k leaf, u) ∧ ReachesSized a kind checked fmtw xs ks u t
  | _, _, _, _ => False

/-- A is a type capability whose slot holds these relations at its generation (07 R216, R218). -/
def TypeNamed (s : State) (a : TCap) (rels : List Relation) : Prop :=
  ∃ c, findCtx s s.cur.fid.ctx = some c ∧ a.tag = true ∧ capType a.val = 3 ∧
    (c.types.getD (kprSlot a.val) ⟨0#16, []⟩).gen = kprGen a.val ∧ (c.types.getD (kprSlot a.val) ⟨0#16, []⟩).relations = rels

/-- A number is read through a capability, and reading it changes nothing. -/
def ReadsNumber (s : State) (c : TCap) (addr n x : Nat) : Prop := DerefPasses c addr n [permLD] ∧ fxReadRaw addr n s = .ok (x, s)

/-- Rows first to stop − 1 of key k, from two words of the directory (10 R290). -/
def KeyRows (s : State) (x : Relation) (k first stop : Nat) : Prop :=
  ∃ lo hi, ReadsNumber s x.directory ((capAddr x.directory.val + 4 * k) % 2 ^ 64) 4 lo ∧
    ReadsNumber s x.directory ((capAddr x.directory.val + 4 * (k + 1)) % 2 ^ 64) 4 hi ∧
    first = min lo x.nrows ∧ stop = max first (min hi x.nrows)

/-- Slices of a key with n rows: the least number of slices of HEAVY rows, one at least (07 R219). -/
def slicesOf (x : Relation) (n : Nat) : Nat := max 1 ((n + heavyOf x - 1) / heavyOf x)

end Sys2Proof

/-- 10 R294: the Factor Unit's aligned loads read the bytes that the issuing thread sees, and its stores write theirs and no
other. -/
def Sys2Proof.FactorUnitAccessesMemoryPart : Prop :=
  (∀ (s t : State) (addr n k : Nat) (leaf : Option Nat), 0 < n → addr % n = 0 →
    Reaches s addr n .read false false (.bytes k leaf) t → keyIsView k = false →
    let m := t.mem.readied (eyeOf s.cur) k n
    m.firstPoison k n = none → fxReadRaw addr n s = .ok (bytesNat (m.seenBytes (eyeOf s.cur) k n), { t with mem := m })) ∧
  (∀ (s t : State) (a : Agent) (c : TCap) (xs : List (Nat × List Byte)) (ks : List Nat),
    (∀ x ∈ xs, 0 < x.2.length ∧ x.1 % x.2.length = 0) → curAgent s = .ok (a, s) →
    ReachesSized a .write true (capHas c.val permFMTW) (xs.map (fun x => (x.1, x.2.length))) ks s t →
    ∃ m, fxStore c xs s = .ok (⟨⟩, { t with mem := m, nextId := t.nextId + ks.length }) ∧
      (t.mem.wf = true → (∀ k ∈ ks, NoViews k t.mem) → m.full = t.mem.full ∧
        ∀ y, cellGet m.cells y = (lastWrite ((ks.zip xs).map (fun z => (z.1, z.2.2))) y).getD (cellGet t.mem.cells y)))

namespace Sys2Proof

open Machine

/-- The relations of a descriptor: NREL entries of eight granules each; tags need LDCAP (07 R215, R216). -/
def descriptorRelations (a : TCap) (nrel : Nat) (rs : List (List Byte × Bool)) : List (List DWord × List Bool) :=
  (List.range nrel).map (fun k =>
    let g := (rs.drop (8 * k)).take 8
    (wordsOf 16 (g.flatMap (·.1)), g.map (fun x => x.2 && capAddr a.val % 16 == 0 && capHas a.val permLDCAP)))

/-- JTLOAD completes: a descriptor that passes R216's checks is loaded into its slot under the next generation, and D is its type
capability. -/
def LoadsType (f : Ext) : Prop :=
  ∀ (s t u : State) (c : Ctx) (g g' : Agent) (head rs : List (List Byte × Bool)), Runs (.jtload f) s → Readable s f.a f.ta →
    Writable s f.d → findCtx u u.cur.fid.ctx = some c →
    let a := regCap s f.a
    let addr := capAddr a.val
    let at' (n : Nat) : List Nat := (List.range n).map (fun i => addr + 16 * i)
    curAgent (begun s) = .ok (g, begun s) → ReadsFrom g 16 (at' 4) head (begun s) t →
    let ws := wordsOf 8 (head.flatMap (·.1))
    let nrel := (ws.getD 0 0#64).toNat
    DerefPasses a addr 64 [permLD] → 1 ≤ nrel → nrel ≤ 16 → (∀ w ∈ ws.drop 1, w = 0#64) →
    DerefPasses a addr (64 + 128 * nrel) [permLD] → curAgent t = .ok (g', t) →
    ReadsFrom g' 16 ((at' (4 + 8 * nrel)).drop 4) rs t u →
    let es := descriptorRelations a nrel rs
    let rels := es.map (fun e => relationOf e.1 e.2)
    let slot := f.imm.toNat % 64
    let gen := (c.types.getD slot ⟨0#16, []⟩).gen + 1#16
    (∀ e ∈ es, relationReserved e.1 = none) →
    (typeFault rels = none →
      exec (.jtload f) s = .next (past f (setReg f.d ⟨makeType nrel gen slot (capCursor a.val), true⟩ { u with
        ctxs := u.ctxs.map (fun x => if x.number = c.number then { x with types := x.types.setIfInBounds slot ⟨gen, rels⟩ } else x) }))) ∧
    (∀ k off, typeFault rels = some (k, off) →
      exec (.jtload f) s = .next (afterTrap 0x0D (BitVec.ofNat 64 (off * 2 ^ 8 + k % 16)) s))

/-- JTCHK completes: D is a partial-result capability of the edge over B's storage; storage below the edge's keys traps 0x05. -/
def ChecksStorage (f : Ext) : Prop :=
  ∀ s rels, Runs (.jtchk f) s → Readable s f.a f.ta → Readable s f.b f.tb → Writable s f.d → TypeNamed s (regCap s f.a) rels →
    let a := regCap s f.a
    let b := regCap s f.b
    let edge := f.imm.toNat % 16
    let width := f.imm.toNat / 16 % 2 ^ 11 + 1
    let counts := f.fmt == 14#4
    let size := keyCount rels edge * (if counts then 8 else 4 * width)
    edge < rels.length → b.tag = true → capType b.val = 0 → capHas b.val permLD = true → capHas b.val permST = true →
    capHas b.val permJOIN = true → (capCursor b.val).toNat % 8 = 0 →
    (coversFrom b.val size = true →
      exec (.jtchk f) s = .next (past f (setReg f.d
        ⟨makeKpr (capPerms b.val) width counts edge (kprGen a.val) (kprSlot a.val) (capCursor b.val), true⟩ (begun s)))) ∧
    (coversFrom b.val size = false → exec (.jtchk f) s = .next (afterTrap 0x05 (capCursor b.val) s))

/-- JKEY completes with the key of a row; a key outside the dense range traps 0x0D. -/
def GivesKey (f : Ext) : Prop :=
  ∀ s rels x k, Runs (.jkey f) s → Readable s f.a f.ta → Readable s f.b f.tb → Writable s f.d → TypeNamed s (regCap s f.a) rels →
    let r := f.imm.toNat % 16
    let i := (regData s f.b).toNat % 2 ^ 32
    rels[r]? = some x →
    (x.nrows ≤ i → exec (.jkey f) s = .next (afterTrap 0x05 (capCursor (regCap s f.a).val) s)) ∧
    (i < x.nrows →
      (r = 0 → k = 0) → (r ≠ 0 → ReadsNumber (begun s) x.rows ((capAddr x.rows.val + (i * x.rowBytes + x.keyOff)) % 2 ^ 64) 4 k) →
      (k < keyCount rels r → exec (.jkey f) s = .next (past f (setData f.d (BitVec.ofNat 64 k) (begun s)))) ∧
      (keyCount rels r ≤ k → exec (.jkey f) s = .next (afterTrap 0x0D (joinInfo i false 0xFF r) s)))

/-- JHEAVY completes with the number of slices of a key, JSEG with the first row and row count of a slice. -/
def GivesSlices (f : Ext) : Prop :=
  ∀ s rels x first stop, Readable s f.a f.ta → Readable s f.b f.tb → Writable s f.d → TypeNamed s (regCap s f.a) rels →
    let r := f.imm.toNat % 16
    let k := (regData s f.b).toNat % 2 ^ 32
    let n := (regData s f.b).toNat / 2 ^ 32
    rels[r]? = some x → k < keyCount rels r → KeyRows (begun s) x k first stop →
    (Runs (.jheavy f) s →
      exec (.jheavy f) s = .next (past f (setData f.d (BitVec.ofNat 64 (slicesOf x (stop - first))) (begun s)))) ∧
    (Runs (.jseg f) s → n < slicesOf x (stop - first) →
      let lo := first + n * heavyOf x
      exec (.jseg f) s = .next (past f (setData f.d (BitVec.ofNat 64 (lo + (min (lo + heavyOf x) stop - lo) * 2 ^ 32)) (begun s)))) ∧
    (Runs (.jseg f) s → slicesOf x (stop - first) ≤ n →
      exec (.jseg f) s = .next (afterTrap 0x05 (capCursor (regCap s f.a).val) s))

/-- JUP completes: every key that the gang serves, and with DELTA every dirty one of them, has its total and count stored, in
ascending order, each under its own partial result's permissions; D is the number of keys; with DELTA their bits are set. -/
def UpPass (f : Ext) : Prop :=
  ∀ (s t0 t u : State) (rels : List Relation) (p : Pass) (band : Band) (first stop : Nat → Nat) (dirty : Nat → Bool)
    (total : Nat → Partial) (l : List Unit),
    Runs (.jup f) s → Readable s f.a f.ta → Readable s f.b f.tb → bandOf s s.cur = some band →
    let r := f.imm.toNat % 16
    let delta := f.imm.getLsbD 4
    let keys := (List.range (keyCount rels r)).filter
      (fun k => k * 0x9E3779B9 % 2 ^ 32 * band.packet.gangs / 2 ^ 32 == (s.cur.tidw.extractLsb' 14 6).toNat)
    let done := keys.filter dirty
    readPass (regCap s f.a) (regCap s f.b) r delta (begun s) = .ok ((rels, p), begun s) →
    (delta = true → p.rel.delta.tag = true) →
    (∀ k ∈ keys, keyRows p.rel k (begun s) = .ok ((first k, stop k), begun s)) →
    (∀ k ∈ keys, if delta then keyDirty p k (first k) (stop k) (begun s) = .ok (dirty k, begun s) else dirty k = true) →
    (∀ k ∈ done, keyTotal p (first k) (stop k) (begun s) = .ok (total k, begun s)) →
    fxStore ⟨p.sumOut, true⟩
      (done.flatMap (fun k => (total k).vec.mapIdx (fun j v => (capAddr p.sumOut + k * kprStride p.sumOut + 4 * j, natBytes 4 v))))
      (begun s) = .ok (⟨⟩, t0) →
    fxStore ⟨p.countOut, true⟩ (done.map (fun k => (capAddr p.countOut + k * 8, natBytes 8 (total k).count))) t0 = .ok (⟨⟩, t) →
    (if delta then (done.mapM (setDeltaBit p.rel.delta)) t = .ok (l, u) else u = t) →
    let v := if delta then performed 3 u else u
    Writable v f.d →
    ∃ fl : Flags, (∀ k, fl.getLsbD k = true ↔ ∃ x ∈ done, (total x).flags.getLsbD k = true) ∧
      exec (.jup f) s = .next (past f (setData f.d (BitVec.ofNat 64 done.length) (setFlags fl v)))

/-- JDOWN completes: for COUNT rows from FIRST on, the element of each row's key is stored in row order. -/
def DownPass (f : Ext) : Prop :=
  ∀ (s t : State) (c : Ctx) (rels : List Relation) (x : Relation) (key : Nat → Nat) (datum : Nat → List (List Byte)),
    Runs (.jdown f) s → Readable s f.a f.ta → Readable s f.b f.tb → Readable s f.c f.tc → findCtx s s.cur.fid.ctx = some c →
    let a := (regCap s f.a).val
    let b := regCap s f.b
    let e := kprEdge a
    let side := f.imm.getLsbD 0
    let source := if side = true ∨ e = 0 then x else rels.getD x.parent x
    let first := (regData s f.c).toNat % 2 ^ 32
    let count := (regData s f.c).toNat / 2 ^ 32
    let piece := if kprCounts a then 8 else 4
    (regCap s f.a).tag = true → capType a = 4 → (c.types.getD (kprSlot a) ⟨0#16, []⟩).gen = kprGen a →
    (c.types.getD (kprSlot a) ⟨0#16, []⟩).relations = rels → rels[e]? = some x → first + count ≤ source.nrows →
    DerefPasses b (capAddr b.val) (count * kprStride a) [permST] →
    (∀ i, i < count → (e = 0 → key i = 0) → (e ≠ 0 → ReadsNumber (begun s) source.rows
      ((capAddr source.rows.val + ((first + i) * source.rowBytes + (if side then x.keyOff else x.pkeyOff))) % 2 ^ 64) 4 (key i))) →
    (∀ i, i < count → (e = 0 → key i = 0) ∧ key i < keyCount rels e ∧
      (if kprCounts a then ∃ y, kprCount a (key i) (begun s) = .ok (y, begun s) ∧ datum i = [natBytes 8 y]
       else ∃ ys, kprSums a (key i) (begun s) = .ok (ys, begun s) ∧ datum i = ys.map (natBytes 4))) →
    fxStore b (((List.range count).flatMap datum).mapIdx (fun j y => ((capAddr b.val + piece * j) % 2 ^ 64, y))) (begun s) =
      .ok (⟨⟩, t) →
    Writable t f.d →
    exec (.jdown f) s = .next (past f (setData f.d (BitVec.ofNat 64 count) t))

/-- JINTER completes: the numbers of both ascending lists, in order, go to C, and their count to D. -/
def Intersects (f : Ext) : Prop :=
  ∀ (s t : State) (xs ys : List Nat), Runs (.jinter f) s → Readable s f.a f.ta → Readable s f.b f.tb → Readable s f.c f.tc →
    let lists (c : TCap) (zs : List Nat) : Prop :=
      zs.length = ((capBounds c.val).2 - capAddr c.val) / 4 ∧ DerefPasses c (capAddr c.val) (4 * zs.length) [permLD] ∧
        (∀ j z, zs[j]? = some z → fxReadRaw (capAddr c.val + 4 * j) 4 (begun s) = .ok (z, begun s)) ∧ zs.Pairwise (· < ·)
    let c := regCap s f.c
    let zs := xs.filter (fun x => decide (x ∈ ys))
    lists (regCap s f.a) xs → lists (regCap s f.b) ys → DerefPasses c (capAddr c.val) (4 * zs.length) [permST] →
    fxStore c (zs.mapIdx (fun j z => (capAddr c.val + 4 * j, natBytes 4 z))) (begun s) = .ok (⟨⟩, t) → Writable t f.d →
    exec (.jinter f) s = .next (past f (setData f.d (BitVec.ofNat 64 zs.length) t))

/-- JDELTA completes: bit k of the relation's DELTA bitmap is set and no other bit changes, or the whole bitmap is cleared. -/
def MarksDelta (f : Ext) : Prop :=
  ∀ s t rels x key leaf, Runs (.jdelta f) s → Readable s f.a f.ta → Readable s f.b f.tb → TypeNamed s (regCap s f.a) rels →
    let r := f.imm.toNat % 16
    let k := (regData s f.b).toNat % 2 ^ 32
    rels[r]? = some x → x.delta.tag = true →
    (f.imm.getLsbD 4 = false → k < keyCount rels r →
      let addr := (capAddr x.delta.val + k / 8) % 2 ^ 64
      DerefPasses x.delta addr 1 [permST] →
      Reaches (begun s) addr 1 .write false (capHas x.delta.val permFMTW) (.bytes key leaf) t → keyIsView key = false →
      (cleared t.mem key 1).firstPoison key 1 = none →
      ∃ m, exec (.jdelta f) s = .next (past f { t with mem := m, nextId := t.nextId + 1 }) ∧
        (t.mem.wf = true → NoViews key t.mem →
          WritesCells key [BitVec.ofNat 8 (bytesNat (t.mem.bytes key 1) ||| 2 ^ (k % 8))] t.mem m)) ∧
    (f.imm.getLsbD 4 = true → clearDelta x.delta (keyCount rels r) (begun s) = .ok (⟨⟩, t) →
      exec (.jdelta f) s = .next (past f t)) ∧
    (f.imm.getLsbD 4 = false → keyCount rels r ≤ k →
      exec (.jdelta f) s = .next (afterTrap 0x05 (capCursor (regCap s f.a).val) s))

end Sys2Proof

/-- 07 R216 to R224: the Factor Unit's instructions complete. -/
def Sys2Proof.FactorFormsCompletePart : Prop :=
  (∀ f, LoadsType f) ∧ (∀ f, ChecksStorage f) ∧ (∀ f, GivesKey f) ∧ (∀ f, GivesSlices f) ∧ (∀ f, UpPass f) ∧ (∀ f, DownPass f) ∧
  (∀ f, Intersects f) ∧ (∀ f, MarksDelta f)

/-- 07 R216 to R224, 10 R294: the Factor Unit's instructions complete, its loads and stores act on memory.  TINFO of JKEY's 0x0D (relation r,
field 0xFF) and of the 0x05 of JKEY, JSEG and JDELTA (A's cursor) is the model's choice (log 10). -/
def Obligations.FactorFormsComplete : Prop :=
  Sys2Proof.FactorUnitAccessesMemoryPart ∧ Sys2Proof.FactorFormsCompletePart

/-! ## Near memory (07 R233 to R236, 11 R310 to R312) -/

namespace Sys2Proof

open Machine

/-- NMCFG completes: eight legal words at cursor(A) are the pipeline's parameters; an illegal block fails check 9; a running
pipeline makes it wait. -/
def Configures (f : Ext) : Prop :=
  ∀ (s t : State) (a : Agent) (rs : List (List Byte × Bool)), Runs (.nmcfg f) s → Readable s f.a f.ta →
    let c := regCap s f.a
    let ws := rs.map (fun r => BitVec.ofNat 64 (bytesNat r.1))
    ((unitAt s s.cur.pos).busy = true → exec (.nmcfg f) s = .next (noteWait s)) ∧
    ((unitAt s s.cur.pos).busy = false → DerefPasses c (capAddr c.val) 64 [permLD] → capAddr c.val % 8 = 0 →
      curAgent (begun s) = .ok (a, begun s) →
      ReadsFrom a 8 ((List.range 8).map (fun i => capAddr c.val + 8 * i)) rs (begun s) t →
      (parLegal ws = true → exec (.nmcfg f) s = .next (past f (putUnit
        { unitAt t s.cur.pos with params := some (ws.getD 0 0#64, ws.getD 1 0#64) } t))) ∧
      (parLegal ws = false → exec (.nmcfg f) s = .next (afterTrap 0x01 (illegalInfo 9 (baseWord 0x33#6 0#4 f)) s)))

/-- NMRUN completes: the run of the thread is in progress with the parameters and the slots as they stand, which it keeps. -/
def StartsRun (f : Ext) : Prop :=
  ∀ s w0 w1, Runs (.nmrun f) s →
    let u := unitAt s s.cur.pos
    let weighs := parMultiply w0 && parMulmode w0 == 0
    (u.busy = true ∨ accessWaits s.cur = true → exec (.nmrun f) s = .next (noteWait s)) ∧
    (u.busy = false → accessWaits s.cur = false → u.params = none → exec (.nmrun f) s = .next (afterTrap 0x01 (illegalInfo 9 (baseWord 0x33#6 1#4 f)) s)) ∧
    (u.busy = false → accessWaits s.cur = false → u.params = some (w0, w1) →
      SlotReadable s 0 → SlotReadable s 3 → (weighs = true → SlotReadable s 1) → slotUsable (slotAt s.cur 0) false = true → slotUsable (slotAt s.cur 3) true = true →
      (weighs = true → slotUsable (slotAt s.cur 1) false = true ∧ (slotAt s.cur 1).record.esize = 2#3) →
      ∃ (r : PipelineRun) (g : Thread → Thread),
        exec (.nmrun f) s = .next (past f (putUnit { u with runs := u.runs ++ [r] } { begun s with cur := g (begun s).cur })) ∧
        r.issuer = s.cur.fid ∧ r.word0 = w0 ∧ r.word1 = w1 ∧ r.running = true ∧ r.taken = 0 ∧ r.written = 0 ∧ r.writes = [] ∧
        r.fault = none ∧
        r.writer = writerOf s.cur ∧ (r.rows.headD Slot.inactive) = slotAt s.cur 0 ∧ (r.out.headD Slot.inactive) = slotAt s.cur 3 ∧
        (∀ t : Thread, (g t).g = t.g ∧ (g t).v = t.v ∧ (g t).p = t.p ∧ (g t).pc = t.pc) ∧
        ∀ n, n < 8 → slotAt (g s.cur) n =
          if n = 0 ∨ n = 3 ∨ (n = 1 ∧ weighs = true) then { slotAt s.cur n with pipeline := true } else slotAt s.cur n)

/-- NMWAIT completes once no run is in progress: D is the number of output rows of the thread's run, 0 without one; the run's writes are
performed; a faulted run is reported instead. -/
def WaitsRun (i : Instr) (f : Ext) : Prop :=
  ∀ s, Runs i s →
    let u := unitAt s s.cur.pos
    let mine (r : PipelineRun) : Bool := r.issuer == s.cur.fid && r.service == inHandler s.cur
    (u.busy = true → exec i s = .next (noteWait s)) ∧
    (u.busy = false → u.runs.find? mine = none → Writable s f.d → exec i s = .next (past f (setData f.d 0#64 (begun s)))) ∧
    (∀ r, u.busy = false → u.runs.find? mine = some r → r.fault = none → Writable s f.d →
      ∃ g : Thread → Thread, exec i s = .next (past f (setData f.d (BitVec.ofNat 64 r.written)
          (putUnit { u with runs := u.runs.filter (fun x => !(mine x)) } { begun s with
            mem := s.mem.applyWhere none (fun w => r.writes.any (fun x => decide (x.1 ≤ w.id) && decide (w.id < x.2)))
            cur := g (begun s).cur }))) ∧
        (∀ t : Thread, (g t).g = t.g ∧ (g t).v = t.v ∧ (g t).p = t.p ∧ (g t).pc = t.pc) ∧
        ∀ n, n < 8 → (slotAt (g s.cur) n).pipeline = false) ∧
    (∀ r cause info, u.busy = false → u.runs.find? mine = some r → r.fault = some (cause, info) →
      ∃ t, exec i s = .next (takeTrap cause info t) ∧ SameBytes t.mem s.mem ∧ t.cur.g = s.cur.g)

/-- MBPOST completes when the mailbox is empty and no other posts ahead: it holds B, and what the thread has seen;
else it waits in its place. -/
def Posts (f : Ext) : Prop :=
  ∀ s, Runs (.mbpost f) s → Readable s f.a f.ta → Readable s f.b f.tb →
    let a := regData s f.a
    let p := coreOf (lupinPos s.cur.pos.die (s.cur.pos.cluster / 16) a.toNat)
    let box := f.imm.toNat % 64
    let u := unitAt s p
    let me := agentId s.cur
    (32 ≤ a.toNat → exec (.mbpost f) s = .next (afterTrap 0x05 a s)) ∧
    (a.toNat < 32 → heldByContext s p = false → exec (.mbpost f) s = .next (afterTrap 0x06 a s)) ∧
    (a.toNat < 32 → heldByContext s p = true → u.mailboxes.getD box none = none → waitsAhead u.waiters me box false = false →
      exec (.mbpost f) s = .next (past f (putUnit
        { u with
          mailboxes := u.mailboxes.set box (some (regData s f.b, (performed 2 (begun s)).mem.clockAt (eyeOf s.cur)))
          waiters := leaveQueue u.waiters me box }
        (performed 2 (begun s))))) ∧
    (a.toNat < 32 → heldByContext s p = true → u.mailboxes.getD box none ≠ none →
      exec (.mbpost f) s = .next (noteWait (putUnit { u with waiters := joinQueue u.waiters me box false } s)))

/-- MBWAIT completes when its mailbox is full and no other waits ahead: D takes the value, the thread
follows what its sender has seen, and the mailbox is empty; else it waits. -/
def Takes (i : Instr) (f : Ext) : Prop :=
  ∀ s, Runs i s → heldByContext s (coreOf s.cur.pos) = true → Writable s f.d →
    let box := f.a.toNat
    let u := unitAt s (coreOf s.cur.pos)
    let me := agentId s.cur
    (∀ x, u.mailboxes.getD box none = some x → waitsAhead u.waiters me box true = false →
      exec i s = .next (past f (setData f.d x.1 (putUnit
        { u with mailboxes := u.mailboxes.set box none, waiters := leaveQueue u.waiters me box } (followedAt 2 x.2 (begun s)))))) ∧
    (u.mailboxes.getD box none = none →
      exec i s = .next (noteWait (putUnit { u with waiters := joinQueue u.waiters me box true } s)))

end Sys2Proof

/-- 07 R234 to R236, 11 R310 to R312: the near-memory forms complete, and a run goes on by rows until its rows end or a fault stops
it.  How many rows run before anything else happens is a free choice, and NMWAIT's 0 without a run is the model's (log 30), as are
MBPOST's TINFO (log 10) and that an event whose condition fails changes nothing (log 6). -/
def Obligations.NearMemoryFormsComplete : Prop :=
  (∀ f, Configures f) ∧ (∀ f, StartsRun f) ∧ (∀ f, WaitsRun (.nmwait f) f.ext) ∧ (∀ f, WaitsRun (.nmwaitExt f) f) ∧
  (∀ f, Posts f) ∧ (∀ f, Takes (.mbwait f) f.ext) ∧ (∀ f, Takes (.mbwaitExt f) f) ∧
  (∀ core s, (unitAt s core).runs.find? (·.running) = none → exec (.pipelineStop core) s = .next s) ∧
  (∀ core s r, clocked s = true → (unitAt s core).runs.find? (·.running) = some r →
    ∃ k, k < rowsLeft r ∧
      let s1 := { s with free := s.free + 1 }
      ∀ a, runAgent core r s1 = .ok (a, s1) →
      (∀ x t, runPipeline a core (k + 1) r s1 = .ok (x, t) →
        exec (.pipelineStop core) s = .next (putUnit { unitAt t core with
          runs := (unitAt t core).runs.map (fun y =>
            if y.running then { x with writes := r.writes ++ [(s.nextId, t.nextId)] } else y) } t)) ∧
      (runPipeline a core (k + 1) r s1 = .error .wait → exec (.pipelineStop core) s = .next s1)) ∧
  (∀ a core n r s x t, r.fault = none → runPipeline a core (n + 1) r s = .ok (x, t) →
    (x.fault ≠ none → x.running = false) ∧ ((x.rows.headD Slot.inactive).active = false → x.running = false))

/-! ## Reserving loops (07 R237 to R240, 12 R326 to R340) -/

namespace Sys2Proof

open Machine

/-- A capability of the loop record: tagged, of a type, with permissions. -/
def RecordCap (c : TCap) (type : Nat) (perms : List Nat) : Prop :=
  c.tag = true ∧ capType c.val = type ∧ ∀ p ∈ perms, capHas c.val p = true

/-- RLBEGIN completes: the loop of a legal record waits in the pool, or is FINISHED when N is 0, and D is its sealed instance. -/
def BeginsLoop (f : Ext) : Prop :=
  ∀ (s t : State) (c : Ctx) (b : Band) (g : Agent) (rs : List (List Byte × Bool)) (e : Nat), Runs (.rlbegin f) s → Readable s f.a f.ta →
    findCtx t t.cur.fid.ctx = some c → bandOf t t.cur = some b →
    let a := regCap s f.a
    let addr := capAddr a.val
    DerefPasses a addr 96 [permLD] → addr % 16 = 0 → curAgent (begun s) = .ok (g, begun s) →
    ReadsFrom g 16 ((List.range 6).map (fun i => addr + 16 * i)) rs (begun s) t →
    let ws := wordsOf 12 (rs.flatMap (·.1))
    let cap (i : Nat) : TCap := packetCap ws (rs.map (fun r => r.2 && capHas a.val permLDCAP)) i
    let x := ws.getD 8 0#64
    let n := (x.extractLsb' 0 32).toNat
    RecordCap (cap 0) 1 [] → RecordCap (cap 1) 1 [] → RecordCap (cap 2) 0 [permRSVC, permLD, permST] →
    (capBounds (cap 2).val).1 % 8 = 0 →
    ((cap 3).tag = false ∧ ws.getD 6 0#64 = 0#64 ∧ ws.getD 7 0#64 = 0#64 ∨ RecordCap (cap 3) 0 [permLD, permST]) →
    x.extractLsb' 55 9 = 0#9 → x.extractLsb' 37 9 = 0#9 → 1 ≤ (x.extractLsb' 46 9).toNat → (x.extractLsb' 46 9).toNat ≤ 256 →
    (x.extractLsb' 32 5).toNat ≤ 16 → ws.getD 9 0#64 = 0#64 →
    hasPorts t c (formBand t t.cur) (cap 0).val = false → hasPorts t c (formBand t t.cur) (cap 1).val = false →
    let regions := regionsOf t c (cap 3) ++ (if capHas (cap 5).val permST then regionsOf t c (cap 5) else [])
    (c.det = true → holdsLoopCore c b = false ∧ formBand t t.cur ≠ none ∧
      ∀ r ∈ regions, ∃ at', r.2 = some at' ∧ ownsRegion t at' (.gang b.entry (gangOf t t.cur)) = true) →
    freeEntry t = some e → Writable s f.d →
    ∃ l u, exec (.rlbegin f) s = .next (past f (setReg f.d (loopInstance t.nextId) u)) ∧ u.loops = t.loops ++ [l] ∧
      u.cur = (begun s).cur ∧ SameBytes u.mem t.mem ∧
      l.id = t.nextId ∧ l.ctx = c.number ∧ l.band = b.entry ∧ l.n = n ∧ l.cells = cap 2 ∧ l.guard = cap 3 ∧ l.operand = cap 5 ∧
      l.gstride = (x.extractLsb' 46 9).toNat ∧ l.logw = (x.extractLsb' 32 5).toNat ∧
      l.reserveCode = unsealCap (cap 0).val ∧ l.commitCode = unsealCap (cap 1).val ∧
      l.state = (if n = 0 then .finished else .queued) ∧
      l.clock = (performed 3 t).mem.clockAt (eyeOf s.cur) ∧
      l.regions = (if c.det = true ∧ n ≠ 0 then regions.filterMap (·.2) else []) ∧
      (n ≠ 0 → ∃ node ∈ u.nodes, node.loop = some l.id ∧ node.entry = e ∧ node.packet.prio = (s.cur.ctxw.extractLsb' 17 3).toNat)

/-- A is the sealed instance of a loop of the context. -/
def LoopNamed (s : State) (a : TCap) (l : Loop) : Prop :=
  a.tag = true ∧ capType a.val = 5 ∧ s.loops.find? (fun l => l.id == capAddr a.val && l.ctx == s.cur.fid.ctx) = some l

/-- RSV completes in a reserve firing: the request leaves for the cell's home, on this device or another, and is counted; outside a
reserve round it traps 0x0E. -/
def Reserves (f : Ext) : Prop :=
  ∀ s t l, Runs (.rsv f) s → Readable s f.a f.ta → Readable s f.b f.tb → LoopNamed s (regCap s f.a) l →
    let addr := cellAt l (regData s f.b).toNat
    let sends (d : LoopDuty) (away : Bool) (parts : List (Nat × Nat)) : Prop := exec (.rsv f) s = .next (past f { t with
      loops := t.loops.map (fun x => if x.id = l.id then { x with rsvIssued := x.rsvIssued + 1 } else x)
      net := { t.net with rsvs := t.net.rsvs ++
        [⟨l.id, away, BitVec.ofNat 64 addr, parts, l.epoch, d.iteration, t.mem.clockAt (eyeOf s.cur)⟩] } })
    (∀ d p, s.cur.duty = .loop d → d.loop = l.id → d.commit = false → addr + 8 ≤ (capBounds l.cells.val).2 →
      Reaches (begun s) addr 8 .write false (capHas l.cells.val permFMTW) p t →
      (∀ k leaf, p = .bytes k leaf → sends d false [(k, 8)]) ∧ (∀ device, p = .remote device → sends d true [])) ∧
    ((∀ d, s.cur.duty = .loop d → d.loop = l.id → d.commit = true) →
      exec (.rsv f) s = .next (afterTrap 0x0E 0xFFFFFFFF#64 s))

/-- RCHK completes in a commit firing: all ones when the cell holds the loop's epoch and the firing's iteration. -/
def ChecksCell (f : Ext) : Prop :=
  ∀ s t l d k leaf, Runs (.rchk f) s → Readable s f.a f.ta → Readable s f.b f.tb → LoopNamed s (regCap s f.a) l →
    s.cur.duty = .loop d → d.loop = l.id → d.commit = true →
    let addr := cellAt l (regData s f.b).toNat
    addr + 8 ≤ (capBounds l.cells.val).2 → Reaches (begun s) addr 8 .read false false (.bytes k leaf) t → keyIsView k = false →
    let m := t.mem.readied (eyeOf s.cur) k 8
    m.firstPoison k 8 = none →
    exec (.rchk f) s = .next (past f (setPred f.d
      (if BitVec.ofNat 64 (bytesNat (m.seenBytes (eyeOf s.cur) k 8)) = BitVec.ofNat 64 (l.epoch * 2 ^ 32 + d.iteration) then
        0xFFFFFFFF#32 else 0#32) { t with mem := m }))

/-- RLFAIL completes in a commit firing: the iteration is marked failed; elsewhere it traps. -/
def MarksFailed (f : Ext) : Prop :=
  ∀ s, Runs (.rlfail f) s →
    (∀ d, s.cur.duty = .loop d → d.commit = true →
      exec (.rlfail f) s = .next (past f { begun s with cur := { (begun s).cur with duty := .loop { d with failed := true } } })) ∧
    ((∀ d, s.cur.duty = .loop d → d.commit = false) → exec (.rlfail f) s = .next (afterTrap 0x0E 0xFFFFFFFF#64 s))

/-- RLEND completes once the loop is FINISHED, as an acquire of what its firings did; it traps with its record when it is FAULTED, and waits otherwise. -/
def EndsLoop (i : Instr) (f : Ext) : Prop :=
  ∀ s l, Runs i s → Readable s f.a f.ta → LoopNamed s (regCap s f.a) l →
    (l.state = .finished → exec i s = .next (past f (followed l.clock (begun s)))) ∧
    (l.state = .faulted → exec i s = .next (afterTrap 0x0E l.record s)) ∧
    (l.state ≠ .finished → l.state ≠ .faulted → exec i s = .next (noteWait s))

/-- RLSTAT completes in any state of the loop. -/
def StatesLoop (i : Instr) (f : Ext) : Prop :=
  ∀ s l, Runs i s → Readable s f.a f.ta → LoopNamed s (regCap s f.a) l → Writable s f.d →
    (f.b.toNat ≠ 0 → exec i s = .next (past f (setData f.d
      (BitVec.ofNat 64 (min l.windowNo (2 ^ 32 - 1) * 2 ^ 32 + l.epoch)) (begun s)))) ∧
    (f.b.toNat = 0 → l.state ≠ .faulted → exec i s = .next (past f (setData f.d
      (BitVec.ofNat 64 ((if l.state = .finished then 2 ^ 32 else 0) + l.committed)) (begun s))))

end Sys2Proof

/-- 07 R237 to R240: the six loop instructions complete. -/
def Sys2Proof.LoopFormsCompletePart : Prop :=
  (∀ f, BeginsLoop f) ∧ (∀ f, Reserves f) ∧ (∀ f, ChecksCell f) ∧ (∀ f, MarksFailed f) ∧
  (∀ f, EndsLoop (.rlend f) f.ext) ∧ (∀ f, EndsLoop (.rlendExt f) f) ∧
  (∀ f, StatesLoop (.rlstat f) f.ext) ∧ (∀ f, StatesLoop (.rlstatExt f) f)

/-- 12 R328 to R334: a window fills with the carried and then new iterations and takes the context's next epoch; a request takes a
cell of another epoch or of a later iteration; the round barrier waits for every firing and acknowledgement; the window is packed
to its failed iterations, in order, and the loop is FINISHED when none is left.  That an event whose condition fails changes nothing is the
model's choice (log 6). -/
def Sys2Proof.LoopRoundsAdvancePart : Prop :=
  (∀ s loop l c, findLoop s loop = some l → l.id = loop → findCtx s l.ctx = some c → c.number = l.ctx →
    let k := min (2 ^ l.logw - l.window.length) (l.n - l.nextNew)
    let window := l.window ++ (List.range k).map (l.nextNew + ·)
    (l.state ≠ .pack → exec (.windowStart loop) s = .next s) ∧
    (l.state = .pack → loopBandRuns s l = true → window ≠ [] → c.epoch < 2 ^ 32 →
      ∃ t l' c', exec (.windowStart loop) s = .next t ∧ findLoop t loop = some l' ∧ l'.state = .reserve ∧ l'.window = window ∧
        l'.nextNew = l.nextNew + k ∧ l'.epoch = c.epoch ∧ l'.ended = [] ∧ l'.rsvIssued = 0 ∧ l'.rsvAcked = 0 ∧
        findCtx t l.ctx = some c' ∧ c'.epoch = c.epoch + 1 ∧ SameBytes t.mem s.mem) ∧
    (l.state = .pack → loopBandRuns s l = true → window ≠ [] → 2 ^ 32 ≤ c.epoch →
      ∃ t l', exec (.windowStart loop) s = .next t ∧ findLoop t loop = some l' ∧ l'.state = .faulted ∧
        l'.record = BitVec.ofNat 64 (2 ^ 41 + 0x0E * 2 ^ 32 + window.headD 0))) ∧
  (∀ s index m, s.net.rsvs[index]? = some m → m.away = true → exec (.rsvPerform index) s = .next { s with
    net := { s.net with rsvs := s.net.rsvs.eraseIdx index }
    loops := s.loops.map (fun l => if l.id = m.loop then { l with rsvAcked := l.rsvAcked + 1 } else l) }) ∧
  (∀ s index m k, s.net.rsvs[index]? = some m → m.away = false → m.parts = [(k, 8)] → keyIsView k = false →
    let s1 := recallStashes none k 8 s
    s1.mem.wf = true → s1.mem.views = [] → s1.mem.firstPoison k 8 = none →
    let old := (s1.mem.word64 k).toNat
    ∃ t, exec (.rsvPerform index) s = .next t ∧ t.net = { s.net with rsvs := s.net.rsvs.eraseIdx index } ∧ t.cur = s.cur ∧
      t.loops = s.loops.map (fun l => if l.id = m.loop then { l with rsvAcked := l.rsvAcked + 1 } else l) ∧
      (old / 2 ^ 32 ≠ m.epoch ∨ m.iteration < old % 2 ^ 32 →
        WritesCells k (natBytes 8 (BitVec.ofNat 64 (m.epoch * 2 ^ 32 + m.iteration)).toNat) s1.mem t.mem) ∧
      (old / 2 ^ 32 = m.epoch → old % 2 ^ 32 ≤ m.iteration → SameBytes t.mem s1.mem)) ∧
  (∀ s loop l, findLoop s loop = some l → l.id = loop →
    (l.state ≠ .reserve ∨ l.ended.length ≠ l.window.length ∨ l.rsvIssued ≠ l.rsvAcked → exec (.roundBarrier loop) s = .next s) ∧
    (l.state = .reserve → l.ended.length = l.window.length → l.rsvIssued = l.rsvAcked → firstFault l = none → loopBandRuns s l = true →
      ∃ t l', exec (.roundBarrier loop) s = .next t ∧ findLoop t loop = some l' ∧ l'.state = .commit ∧ l'.window = l.window ∧
        l'.ended = [] ∧ t.mem.cells = s.mem.cells) ∧
    (∀ q cause, l.state = .reserve → l.ended.length = l.window.length → l.rsvIssued = l.rsvAcked → firstFault l = some (q, cause) →
      loopCopies s l = false →
      ∃ t l', exec (.roundBarrier loop) s = .next t ∧ findLoop t loop = some l' ∧ l'.state = .faulted ∧
        l'.record = BitVec.ofNat 64 (cause * 2 ^ 32 + l.window.getD q 0) ∧ l'.regions = [])) ∧
  (∀ s loop l, findLoop s loop = some l → l.id = loop →
    let left := ((List.range l.window.length).filter (fun q => decide (q ∈ l.failed))).map (fun q => l.window.getD q 0)
    (l.state ≠ .commit ∨ l.ended.length ≠ l.window.length ∨ loopCopies s l = true → exec (.round2End loop) s = .next s) ∧
    (l.state = .commit → l.ended.length = l.window.length → loopCopies s l = false → firstFault l = none →
      ∃ t l', exec (.round2End loop) s = .next t ∧ findLoop t loop = some l' ∧ l'.window = left ∧ l'.windowNo = l.windowNo + 1 ∧
        l'.state = (if left = [] ∧ l.n ≤ l.nextNew then .finished else .pack) ∧ t.mem.cells = s.mem.cells) ∧
    (∀ q cause, l.state = .commit → l.ended.length = l.window.length → loopCopies s l = false → firstFault l = some (q, cause) →
      ∃ t l', exec (.round2End loop) s = .next t ∧ findLoop t loop = some l' ∧ l'.state = .faulted ∧
        l'.record = BitVec.ofNat 64 (2 ^ 40 + cause * 2 ^ 32 + l.window.getD q 0)))

/-- 07 R237 to R240, 12 R328 to R334: the six loop instructions complete, and a loop's windows, requests and rounds advance. -/
def Obligations.LoopsBeginAndAdvance : Prop :=
  Sys2Proof.LoopFormsCompletePart ∧ Sys2Proof.LoopRoundsAdvancePart

/-! ## Host commands (14 R366 to R376, R379) -/

namespace Sys2Proof

open Machine

/-- The session counts a command that it accepts: the next SEQ, and the cycle of the last command. -/
def counted (s : State) : State :=
  { s with dev := { s.dev with
    session := s.dev.session.map (fun x => { x with nextSeq := x.nextSeq + 1, lastCommand := s.dev.cycle }) } }

/-- The device takes commands: it has power, and no warm reset runs. -/
def DeviceTakes (s : State) : Prop := s.dev.power ≠ .d3 ∧ s.dev.warmReset = none

/-- A command reaches the session: the device takes it, the reply of the one before it has been sent, and no earlier write of the host
waits. -/
def CommandsArrive (s : State) : Prop := DeviceTakes s ∧ (∀ x ∈ s.mem.changes, x.reply = none) ∧ s.net.hostWrites = []

/-- Its header is that of the command whose opcode is `op`. -/
def CleanHeader (op : Nat) (h : CmdHeader) : Prop := h.reserved = 0#16 ∧ h.status = 0#8 ∧ h.opcode.toNat = op

/-- A command reaches its effect: it arrives, the session is open, SEQ is the next one, the header is clean, and in minimal mode the
command is one of those that R374 keeps. -/
def Accepted (op : Nat) (s : State) (h : CmdHeader) (minimal : Bool) : Prop :=
  CommandsArrive s ∧ CleanHeader op h ∧
    (s.dev.minimalMode = true → minimal = true) ∧
    ∃ x, s.dev.session = some x ∧ x.lost = none ∧ h.seq.toNat = x.nextSeq

/-- The command is executed and its reply, with its opcode, sent: `t` is the state before the reply. -/
def Answers (i : Instr) (h : CmdHeader) (status : Nat) (payload : List DWord) (s t : State) : Prop :=
  exec i s = .next (replyTo h.opcode.toNat h status payload t)

/-- The context that a command names, not being killed. -/
def InContext (s : State) (h : CmdHeader) (c : Ctx) : Prop := findCtx s h.context.toNat = some c ∧ c.killing = false

/-- The same for a payload of bytes. -/
def Reports (i : Instr) (h : CmdHeader) (payload : List Byte) (s t : State) : Prop :=
  exec i s = .next (replyBytes h.opcode.toNat h statusOk payload t)

/-- What a command does before its own effect: nothing where the device takes none; what it must follow comes first; NOSESSION without a session, REFUSED for another
SEQ, for reserved fields or for an OPCODE that is not its own, STATE in minimal mode. -/
def FollowsTheProtocol (op : Nat) (minimal : Bool) (make : CmdHeader → Instr) : Prop :=
  ∀ (h : CmdHeader) (s : State),
    (¬ DeviceTakes s → exec (make h) s = .next s) ∧
    (DeviceTakes s → (∃ x ∈ s.mem.changes, x.reply ≠ none) ∨ s.net.hostWrites ≠ [] → exec (make h) s = .next (retryWrites s)) ∧
    (CommandsArrive s →
      (s.dev.session = none → Answers (make h) h statusNoSession [] s s) ∧
      (∀ x, s.dev.session = some x →
        (x.lost ≠ none → Answers (make h) h statusNoSession [] s s) ∧
        (x.lost = none →
          (h.seq.toNat ≠ x.nextSeq → Answers (make h) h statusRefused [] s s) ∧
          (h.seq.toNat = x.nextSeq →
            (¬ CleanHeader op h → Answers (make h) h statusRefused [] s (counted s)) ∧
            (CleanHeader op h → s.dev.minimalMode = true → minimal = false →
              Answers (make h) h statusState [] s (counted s))))))

/-- A command that names no context is refused; one whose context is being killed answers STATE.  Where R367 states the payload's
length, LENGTH has it. -/
def NeedsItsContext (op : Nat) (length : Option Nat) (make : CmdHeader → Instr) : Prop :=
  ∀ (h : CmdHeader) (s : State), Accepted op s h false → (∀ n, length = some n → h.length.toNat = n) →
    (findCtx s h.context.toNat = none → Answers (make h) h statusRefused [] s (counted s)) ∧
    (∀ c, findCtx s h.context.toNat = some c → c.killing = true → Answers (make h) h statusState [] s (counted s))

/-- A command whose payload length R367 states refuses another LENGTH. -/
def NeedsItsLength (op n : Nat) (minimal : Bool) (make : CmdHeader → Instr) : Prop :=
  ∀ (h : CmdHeader) (s : State), Accepted op s h minimal → h.length.toNat ≠ n → Answers (make h) h statusRefused [] s (counted s)

end Sys2Proof

/-- 14 R366, R368, R370, R374, R379: every command but OPEN waits for the reply before it and for the host's earlier writes, and checks
its session, its SEQ and its header before its own effect; the commands of a context need a context that is not being killed.  Log 33
has the model's readings here: a SEQ that is refused is not counted, a refused OPCODE is answered under its own number, a command of a
context that is being killed answers STATE, and a lost session NOSESSION. -/
def Obligations.HostCommandsFollowTheProtocol : Prop :=
  FollowsTheProtocol 0x02 true (.close ·) ∧ FollowsTheProtocol 0x03 true (.keepalive ·) ∧
  (∀ r, FollowsTheProtocol 0x10 false (.ctxcreate · r)) ∧ (∀ r, FollowsTheProtocol 0x11 false (.ctxset · r)) ∧
  FollowsTheProtocol 0x12 false (.kill ·) ∧ (∀ r, FollowsTheProtocol 0x13 false (.mapwrite · r)) ∧
  (∀ r, FollowsTheProtocol 0x14 false (.windowset · r)) ∧ (∀ r, FollowsTheProtocol 0x15 false (.amoqset · r)) ∧
  FollowsTheProtocol 0x16 false (.epochreset ·) ∧ (∀ x y, FollowsTheProtocol 0x17 false (.event · x y)) ∧
  (∀ ps, FollowsTheProtocol 0x18 false (.capwrite · ps)) ∧ (∀ p, FollowsTheProtocol 0x20 false (.launchCommand · p)) ∧
  (∀ e b, FollowsTheProtocol 0x21 false (.preempt · e b)) ∧ (∀ b, FollowsTheProtocol 0x22 false (.resume · b)) ∧
  (∀ p, FollowsTheProtocol 0x30 false (.power · p)) ∧ FollowsTheProtocol 0x31 true (.capread ·) ∧
  FollowsTheProtocol 0x32 true (.crash ·) ∧ (∀ b, FollowsTheProtocol 0x33 false (.warmreset · b)) ∧
  (∀ b, FollowsTheProtocol 0x34 false (.alerts · b)) ∧ (∀ n, FollowsTheProtocol 0x35 true (.attest · n)) ∧
  (∀ f, FollowsTheProtocol 0x36 true (.firmware · f)) ∧ (∀ r, FollowsTheProtocol 0x37 false (.fabricmap · r)) ∧
  FollowsTheProtocol 0x38 true (.minclear ·) ∧
  (∀ r, NeedsItsContext 0x11 none (.ctxset · r)) ∧ (∀ r, NeedsItsContext 0x13 none (.mapwrite · r)) ∧
  (∀ r, NeedsItsContext 0x15 none (.amoqset · r)) ∧ NeedsItsContext 0x16 none (.epochreset ·) ∧
  (∀ x y, NeedsItsContext 0x17 (some 64) (.event · x y)) ∧
  (∀ ps, NeedsItsContext 0x18 (some (24 * ps.length)) (.capwrite · ps)) ∧
  (∀ p, NeedsItsContext 0x20 (some 256) (.launchCommand · p)) ∧ (∀ e b, NeedsItsContext 0x21 none (.preempt · e b)) ∧
  (∀ b, NeedsItsContext 0x22 none (.resume · b)) ∧
  NeedsItsLength 0x03 0 true (.keepalive ·) ∧ (∀ x y, NeedsItsLength 0x17 64 false (.event · x y)) ∧
  (∀ ps, NeedsItsLength 0x18 (24 * ps.length) false (.capwrite · ps)) ∧ (∀ p, NeedsItsLength 0x20 256 false (.launchCommand · p)) ∧
  (∀ n, NeedsItsLength 0x35 32 true (.attest · n)) ∧ (∀ f, NeedsItsLength 0x36 (16 + f.image.length) true (.firmware · f))

namespace Sys2Proof

open Machine

/-- The saved bands of a context lie within its save area. -/
def SavedWithin (s : State) (c : Ctx) : Prop :=
  ∀ x ∈ saveParts s c.number, c.saveArea.toNat ≤ x.1 ∧ x.1 + x.2 ≤ c.saveArea.toNat + c.saveSize

/-- The frames of MAPWRITE lie in their dies' HBM. -/
def FramesLie (r : MapRequest) : Prop :=
  ∀ x ∈ r.frames, x.1 < 4 ∧ x.2 % 65536 = 0 ∧ x.2 / 2 ^ 39 = x.1 ∧ keyOffset x.2 + 65536 ≤ hbmPerDie

/-- The setting of another window of a die. -/
def otherWindow (s : State) (die k : Nat) : Option Window :=
  windowOf die (s.mem.windows.getD (16 * die + k) ⟨0#64, 0#64, 0#64, 0#64⟩)

/-- OPEN: the session opens with its next SEQ 1 where the key is on the owner list, its signature verifies and no session holds
the device, or TAKEOVER is set; AUTH and BUSY else, and REFUSED for a LENGTH that its
fields do not make. -/
def OpensASession : Prop :=
  ∀ (h : CmdHeader) (r : OpenRequest) (s : State), s.dev.power ≠ .d3 → s.dev.warmReset = none →
    CleanHeader 0x01 h → h.seq = 0#64 → r.key.length = 1312 → r.signature.length = 2420 →
    (h.length.toNat ≠ 3765 → Answers (.openSession h r) h statusRefused [] s s) ∧
    (h.length.toNat = 3765 →
    let allowed : Prop := Config.sha3 r.key ∈ s.dev.owners ∧
      Config.verify r.key (bytesOf256 (Config.sha3 (bytesOf256 r.nonce))) r.signature = true
    (allowed → sessionOpen s = false ∨ r.takeover = true →
      ∃ nonce t x, Reports (.openSession h r) h (openReply r nonce) s t ∧ t.dev.session = some x ∧
        x.key = Config.sha3 r.key ∧ x.nextSeq = 1 ∧ x.lastCommand = s.dev.cycle ∧ x.lost = none ∧ t.ctxs = s.ctxs ∧
        t.mem = s.mem ∧
        t.dev.sent = s.dev.sent ++ (if s.dev.tripLatched then [wordsMessage 0x82 0 0 0 s.dev.tripPayload] else [])) ∧
    (¬ allowed → Answers (.openSession h r) h statusAuth [] s s) ∧
    (allowed → sessionOpen s = true → r.takeover = false → Answers (.openSession h r) h statusBusy [] s s))

end Sys2Proof

/-- 14 R368, R369, 13 R361: OPEN, CLOSE, KEEPALIVE, CTXCREATE, CTXSET and KILL act on the session and its contexts; KILL_COMPLETE
removes a context and reports it.  Log 33 has the model's readings here: OPEN's LENGTH, the level-0 table that CTXCREATE without
ADOPT zeroes, a KILL that is answered when it is accepted, and the zeros of a KILLED record; that an event whose condition fails
changes nothing is log 6. -/
def Obligations.SessionsAndContextsComplete : Prop :=
  OpensASession ∧
  (∀ (h : CmdHeader) (s : State), Accepted 0x02 s h true →
    ∃ t, Answers (.close h) h statusOk [] s t ∧ t.dev.session = none ∧ (∀ c ∈ t.ctxs, c.killing = true) ∧
      t.ctxs.length = s.ctxs.length) ∧
  (∀ (h : CmdHeader) (s : State), Accepted 0x03 s h true → h.length = 0#16 → Answers (.keepalive h) h statusOk [] s (counted s)) ∧
  (∀ (h : CmdHeader) (r : ContextRequest) (s : State), Accepted 0x10 s h false →
    (s.ctxs.length < 256 → contextValid s h.context.toNat r = true →
      Answers (.ctxcreate h r) h statusOk [] s
        { counted s with
          ctxs := s.ctxs ++ [newContext h.context.toNat r s.dev.cycle]
          mem := if r.adopt then s.mem else s.mem.put 4 r.root.toNat (List.replicate 8192 0#8) }) ∧
    (s.ctxs.length < 256 → contextValid s h.context.toNat r = false →
      Answers (.ctxcreate h r) h statusRefused [] s (counted s)) ∧
    (256 ≤ s.ctxs.length → Answers (.ctxcreate h r) h statusBusy [] s (counted s))) ∧
  (∀ (h : CmdHeader) (r : SettableRequest) (s : State) (c : Ctx), Accepted 0x11 s h false → InContext s h c →
    settableValid r = true → c.spillUsed ≤ (applySettable r c).spillSize → SavedWithin s (applySettable r c) →
    Answers (.ctxset h r) h statusOk [] s (putCtx (applySettable r c) (counted s))) ∧
  (∀ (h : CmdHeader) (s : State) (c : Ctx), Accepted 0x12 s h false → findCtx s h.context.toNat = some c →
    ∃ t, Answers (.kill h) h statusOk [] s t ∧
      (∀ x ∈ allThreads t, x.duty ≠ .idle → x.fid.ctx ≠ c.number) ∧ (∀ n ∈ t.nodes, n.ctx ≠ c.number) ∧
      (∀ l ∈ t.loops, l.ctx ≠ c.number) ∧ findCtx t c.number = some { c with killing := true }) ∧
  (∀ (h : CmdHeader) (s : State), Accepted 0x12 s h false → findCtx s h.context.toNat = none →
    Answers (.kill h) h statusRefused [] s (counted s)) ∧
  (∀ (ctx : Nat) (s : State) (c : Ctx), findCtx s ctx = some c → c.killing = true →
    ∃ t, exec (.killComplete ctx) s = .next (ctxFault ctx kindKilled 0 0#64 0#64 0#64 0#64 t) ∧ findCtx t ctx = none ∧
      ∀ b ∈ t.bands, b.ctx ≠ ctx) ∧
  (∀ (ctx : Nat) (s : State), findCtx s ctx = none → exec (.killComplete ctx) s = .next s)

/-- 14 R367, 08 R250, 05 R157, 12 R329, 13 R359: MAPWRITE, WINDOWSET, AMOQSET, EPOCHRESET, EVENT and CAPWRITE change what they name and
answer OK.  Log 33 has the model's readings of MAPWRITE's reply, which waits for the changes of leaves in force, and of a CAPWRITE
whose store would wait, which is executed later; which capability CAPWRITE refuses is log 12's. -/
def Obligations.ContextTablesComplete : Prop :=
  (∀ (h : CmdHeader) (r : MapRequest) (s : State) (c : Ctx), Accepted 0x13 s h false → InContext s h c →
    let reply := wordsMessage 0x13 c.number statusOk h.seq.toNat []
    let c' : Ctx := { c with frames := r.frames.foldl (fun fs x => fs.modify x.1 (· ++ [x.2])) c.frames }
    let t := mapAll c reply r.entries (putCtx c' (counted s))
    mapValid c r.entries (counted s) = true → FramesLie r →
    ((∀ x ∈ t.mem.changes, x.reply ≠ some reply) → Answers (.mapwrite h r) h statusOk [] s t) ∧
    ((∃ x ∈ t.mem.changes, x.reply = some reply) → exec (.mapwrite h r) s = .next t)) ∧
  (∀ (c : Ctx) (reply : Option HostMsg) (e : MapEntry) (s : State) (k : Nat),
    entryAddress s.mem e.address.toNat e.level 0 c.root.toNat = some k → (∀ x ∈ s.mem.changes, x.entryAt ≠ k) →
    (entryKind (s.mem.word64 k) ≠ 2 →
      mapOne c reply e s = { s with mem := s.mem.put 4 k (natBytes 8 (hostEntry e.word).toNat) }) ∧
    (s.mem.wf = true → entryKind (s.mem.word64 k) = 2 → entryMigrating ((mapOne c reply e s).mem.word64 k) = true ∧
      (mapOne c reply e s).mem.changes.length = s.mem.changes.length + 1)) ∧
  (∀ (h : CmdHeader) (r : WindowRequest) (s : State), Accepted 0x14 s h false → windowValid r = true →
    (∀ k w x, k < 16 → k ≠ r.window → otherWindow s r.die k = some w → windowOf r.die r.words = some x →
      windowsOverlap x w = false) →
    ∃ t, Answers (.windowset h r) h statusOk [] s t ∧
      t.mem.windows = s.mem.windows.set (16 * r.die + r.window) r.words ∧ (s.mem.views = [] → t.mem.cells = s.mem.cells)) ∧
  (∀ (h : CmdHeader) (r : WindowRequest) (s : State), Accepted 0x14 s h false → windowValid r = false →
    Answers (.windowset h r) h statusRefused [] s (counted s)) ∧
  (∀ (h : CmdHeader) (r : AmoqRequest) (s : State) (c : Ctx), Accepted 0x15 s h false → InContext s h c → r.window < 64 →
    (∀ n, r.batch = some n → 1 ≤ n ∧ n ≤ 1048576) →
    (windowOfCtx s c.number r.window).accepted = [] → (windowOfCtx s c.number r.window).held = [] →
    Answers (.amoqset h r) h statusOk [] s (modWindow c.number r.window
      (fun w => { w with
        counter := r.counter.getD w.counter
        batch := r.batch.getD w.batch
        next := if r.counter.isSome || r.batch.isSome then 0 else w.next
        area := r.area
        told := false }) (counted s))) ∧
  (∀ (h : CmdHeader) (s : State) (c : Ctx), Accepted 0x16 s h false → InContext s h c →
    ((∀ l ∈ s.loops, l.ctx = c.number → l.state = .finished ∨ l.state = .faulted) →
      Answers (.epochreset h) h statusOk [] s (putCtx { c with epoch := 1 } (counted s))) ∧
    ((∃ l ∈ s.loops, l.ctx = c.number ∧ l.state ≠ .finished ∧ l.state ≠ .faulted) →
      Answers (.epochreset h) h statusState [] s (counted s))) ∧
  (∀ (h : CmdHeader) (x y : BitVec 256) (s : State) (c : Ctx), Accepted 0x17 s h false → InContext s h c → h.length.toNat = 64 →
    ∃ t d, Answers (.event h x y) h statusOk ((List.range 4).map (eventWord ((c.events ||| x) &&& ~~~y))) s t ∧
      findCtx t c.number = some d ∧ d.events = (c.events ||| x) &&& ~~~y) ∧
  (∀ (h : CmdHeader) (pairs : List CapPair) (s : State) (c : Ctx), Accepted 0x18 s h false → InContext s h c → pairs.length ≤ 64 →
    h.length.toNat = 24 * pairs.length →
    (∀ t, storeCaps c pairs (counted s) = .ok (⟨⟩, t) → Answers (.capwrite h pairs) h statusOk [] s t) ∧
    (∀ e, storeCaps c pairs (counted s) = .error e →
      ((e = .wait ∨ ∃ t, e = .hold t) → exec (.capwrite h pairs) s = .next s) ∧
      (e ≠ .wait → (∀ t, e ≠ .hold t) → Answers (.capwrite h pairs) h statusRefused [] s (counted s)))) ∧
  (∀ (h : CmdHeader) (x : CapPair) (s t : State) (c : Ctx) (k : Nat) (leaf : Option Nat), Accepted 0x18 s h false → InContext s h c →
    h.length.toNat = 24 → hostCap x.cap = true → x.address.toNat % 16 = 0 → k % 16 = 0 → keyIsView k = false →
    reach (hubAgent c) x.address.toNat 16 .write false false (counted s) = .ok (.bytes k leaf, t) →
    t.mem.wf = true → NoViews k t.mem →
    ∃ m, Answers (.capwrite h [x]) h statusOk [] s { t with mem := m, nextId := t.nextId + 1 } ∧
      LandsBytes k (natBytes 16 x.cap.toNat) t.mem m ∧ k / 16 ∈ m.tags) ∧
  (∀ (c : Ctx) (x : CapPair) (rest : List CapPair) (s : State), hostCap x.cap = false →
    storeCaps c (x :: rest) s = .error (.trap 0x05 x.address))

namespace Sys2Proof

open Machine

/-- The 32 words and the packet of a host's LAUNCH; a nonzero capability field is tagged (14 R367). -/
def launchedPacket (packet : BitVec 2048) : List DWord × Packet :=
  let ws := (List.range 32).map (fun i => packet.extractLsb' (64 * i) 64)
  (ws, packetOf ws ((List.range 9).map (fun i => ws.getD (2 * i) 0#64 != 0#64 || ws.getD (2 * i + 1) 0#64 != 0#64)))

/-- A band that firings may run in: running or draining. -/
def bandLive (b : Band) : Prop := b.state = .running ∨ b.state = .draining

/-- The place in the save area for a band that PREEMPT is to evict; none retains it (13 R353). -/
def preemptPlace (s : State) (c : Ctx) (evict : Bool) (b : Band) : Option Nat :=
  if evict then savePlace s c (saveNeed b.packet) else none

/-- The band as PREEMPT stops it, its place in the save area taken. -/
def preemptOne (c : Ctx) (evict : Bool) (b : Band) (s : State) : State :=
  let t := beginPreempt b.entry (preemptPlace s c evict b).isSome s
  { t with bands := t.bands.map (fun x =>
      if x.entry = b.entry then { x with saveAt := (preemptPlace s c evict b).map (fun k => (w64 k, saveNeed b.packet)) } else x) }

/-- A place in the save area: inside it and clear of every part in use. -/
def PlaceFits (s : State) (c : Ctx) (k n : Nat) : Prop :=
  c.saveArea.toNat ≤ k ∧ k + n ≤ c.saveArea.toNat + c.saveSize ∧ ∀ x ∈ saveParts s c.number, overlaps k n x.1 x.2 = false

/-- A fragment begins an image where none is staged, or goes on where the last one ended (14 R367). -/
def FragmentFits (s : State) (f : FirmwareFragment) : Prop :=
  (if s.dev.stagingStage = 0 then f.offset = 0
   else f.offset = s.dev.staging.length ∧ f.stage = s.dev.stagingStage ∧ f.slot = s.dev.stagingSlot ∧
    f.total = s.dev.stagingTotal) ∧
  ((1 ≤ f.stage ∧ f.stage ≤ 5) ∨ f.stage = 7) ∧ f.slot ≤ 1 ∧ f.total ≤ 2 ^ 24 ∧ f.image.length ≤ 65504 ∧
  f.offset + f.image.length ≤ f.total ∧ (f.last = true → f.offset + f.image.length = f.total)

/-- The bytes staged after a fragment. -/
def stagedWith (s : State) (f : FirmwareFragment) : List Byte := (if s.dev.stagingStage = 0 then [] else s.dev.staging) ++ f.image

/-- The fault of a launched packet: 0x05 for a capability that the host may not tag, else the packet's own (14 R367). -/
def launchFault (s : State) (c : Ctx) (packet : BitVec 2048) : Option (Nat × Nat) :=
  let ws := (launchedPacket packet).1
  let p := (launchedPacket packet).2
  if (p.entry :: p.operands).all (fun x => !x.tag || hostCap x.val) then packetFault ws p c.det (descriptorWords s c none p.entry.val)
  else some (0x05, 0)

end Sys2Proof

/-- 14 R367, 13 R353, R354, R356: LAUNCH adds a node, PREEMPT stops the bands it names and reports each one's mode and size, RESUME
brings saved bands back.  Which capability fields of a host's LAUNCH are tagged or refused is log 12's; STATE for a band that is not
live, or not saved, and the size that PREEMPT reports are log 32's. -/
def Obligations.WorkCommandsComplete : Prop :=
  (∀ (h : CmdHeader) (packet : BitVec 2048) (s : State) (c : Ctx), Accepted 0x20 s h false → InContext s h c → h.length.toNat = 256 →
    let fault := launchFault (counted s) c packet
    (∀ e, fault = none → freeEntry s = some e →
      ∃ t n, Answers (.launchCommand h packet) h statusOk [] s t ∧ n ∈ t.nodes ∧ n.entry = e ∧ n.packet = (launchedPacket packet).2 ∧
        n.ctx = c.number ∧ n.entered = s.dev.cycle ∧ n.spawned = false ∧
        (let seen := s.mem.clockAt (hubAgent c).eye
         n.clock = if n.ready then clockMerge seen (c.eventClock n.packet.wait) else seen) ∧ t.nodes.length = s.nodes.length + 1) ∧
    (fault = none → freeEntry s = none → Answers (.launchCommand h packet) h statusBusy [] s (counted s)) ∧
    (fault ≠ none → Answers (.launchCommand h packet) h statusRefused [] s (counted s))) ∧
  (∀ (h : CmdHeader) (evict : Bool) (s : State) (c : Ctx), Accepted 0x21 s h false → InContext s h c →
    (∀ e b, selectedBy s c.number (some e) = [b] → bandLive b →
      Answers (.preempt h evict (some e)) h statusOk
        [w64 b.entry, w64 (if (preemptPlace s c evict b).isSome then 1 else 0), w64 (saveNeed b.packet)] s
        (preemptOne c evict b (counted s))) ∧
    (∀ e, selectedBy s c.number (some e) = [] →
      Answers (.preempt h evict (some e)) h statusRefused [] s (counted s)) ∧
    (∀ e, selectedBy s c.number (some e) ≠ [] → (∀ b ∈ selectedBy s c.number (some e), ¬ bandLive b) →
      Answers (.preempt h evict (some e)) h statusState [] s (counted s)) ∧
    (∃ payload t, Answers (.preempt h evict none) h statusOk payload s t ∧
      ∀ b ∈ t.bands, b.ctx = c.number → ¬ bandLive b)) ∧
  (∀ (s : State) (c : Ctx) (n k : Nat), savePlace s c n = some k → PlaceFits s c k n) ∧
  (∀ (s : State) (c : Ctx) (n : Nat), savePlace s c n = none → ∀ k, ¬ PlaceFits s c k n) ∧
  (∀ (h : CmdHeader) (s : State) (c : Ctx), Accepted 0x22 s h false → InContext s h c →
    (∀ e b, selectedBy s c.number (some e) = [b] → b.state = .saved →
      Answers (.resume h (some e)) h statusOk [] s (resumeOne b (counted s))) ∧
    (∀ e, selectedBy s c.number (some e) = [] → Answers (.resume h (some e)) h statusRefused [] s (counted s)) ∧
    (∀ e, selectedBy s c.number (some e) ≠ [] → (∀ b ∈ selectedBy s c.number (some e), b.state ≠ .saved) →
      Answers (.resume h (some e)) h statusState [] s (counted s)) ∧
    (∃ t, Answers (.resume h none) h statusOk [] s t)) ∧
  (∀ (b : Band) (s : State), b.evicted = true → (∀ n ∈ s.nodes, n.entry ≠ b.entry) →
    ∃ n, (resumeOne b s).nodes = s.nodes ++ [n] ∧ n.entry = b.entry ∧ n.ready = true ∧ n.resumed = true ∧
      n.entered = b.entered ∧
      n.clock = b.clock ∧ n.sequence = b.sequence ∧ n.spawned = b.bySpawn)

/-- 14 R371 to R376, R378, R379, 11 R325: POWER, CAPREAD, CRASH, ALERTS, ATTEST, FIRMWARE, FABRICMAP and MINCLEAR report or change
the device; WARMRESET empties the compute dies, and its reply comes when the reset is complete.  The model's choices here: the
sensors' order and number and the words of the reports (log 34); MINCLEAR's STATE (log 33); what only the package knows of a latched
trip after its second, and CYCLE 0 (log 37); that an event whose condition fails changes nothing (log 6). -/
def Obligations.DeviceCommandsComplete : Prop :=
  (∀ (h : CmdHeader) (target : PowerState) (s : State), Accepted 0x30 s h false →
    (powerPath s.dev.power target = true → powerAllows s target = true → s.dev.tripLatched = false ∨ target ≠ .d0 →
      ∃ payload t, Answers (.power h target) h statusOk payload s t ∧ payload.length = 25 + Config.railGroups ∧
        t.dev.powerTarget = some target ∧ t.dev.tripLatched = s.dev.tripLatched) ∧
    (∀ n, s.dev.tripLatched = true → target = .d0 → s.dev.tripAt = some n → s.dev.cycle < n + 850000000 →
      ∃ payload t, Answers (.power h target) h statusState payload s t ∧ t.dev.powerTarget = s.dev.powerTarget ∧
        t.dev.tripLatched = true) ∧
    (powerPath s.dev.power target = true → powerAllows s target = true → s.dev.tripLatched = true → target = .d0 →
      (∀ n, s.dev.tripAt = some n → n + 850000000 ≤ s.dev.cycle) →
      ∃ payload t, (Answers (.power h target) h statusOk payload s t ∧ t.dev.powerTarget = some .d0 ∧ t.dev.tripLatched = false) ∨
        (Answers (.power h target) h statusState payload s t ∧ t.dev.powerTarget = s.dev.powerTarget ∧
          t.dev.tripLatched = true)) ∧
    (powerPath s.dev.power target = false ∨ powerAllows s target = false →
      ∃ payload t, Answers (.power h target) h statusState payload s t ∧ t.dev.powerTarget = s.dev.powerTarget)) ∧
  (∀ (h : CmdHeader) (s : State), Accepted 0x31 s h true → Answers (.capread h) h statusOk (capabilityList s) s (counted s)) ∧
  (∀ (h : CmdHeader) (s : State), Accepted 0x32 s h true → Answers (.crash h) h statusOk
    (s.dev.crash.flatMap (·.payload) ++ errorWords s ++ alertWords s ++ (if s.dev.minimalMode then [s.dev.bootRecord] else [])) s
    (counted s)) ∧
  (∀ (h : CmdHeader) (nonce : BitVec 256) (s : State), Accepted 0x35 s h true → h.length.toNat = 32 → Reports (.attest h nonce) h
    (attestReport (counted s) nonce ++ Config.deviceSign (bytesOf256 (Config.sha3 (attestReport (counted s) nonce)))) s
    (counted s)) ∧
  (∀ (h : CmdHeader) (s : State), Accepted 0x38 s h true →
    (s.dev.minimalMode = true → ∃ t, Answers (.minclear h) h statusOk [] s t ∧ t.dev.minimalMode = false ∧
      t.dev.failedStarts = 0 ∧ t.dev.power = .d3 ∧ t.dev.cycle = 0) ∧
    (s.dev.minimalMode = false → Answers (.minclear h) h statusState [] s (counted s))) ∧
  (∀ (h : CmdHeader) (clear : Bool) (s : State), Accepted 0x34 s h false →
    ∃ t, Answers (.alerts h clear) h statusOk (alertWords s) s t ∧
      t.dev.alerts = (if clear then List.replicate 16 [] else s.dev.alerts) ∧
      t.dev.alertsLost = (if clear then List.replicate 16 0 else s.dev.alertsLost)) ∧
  (∀ (h : CmdHeader) (f : FirmwareFragment) (s : State), Accepted 0x36 s h true → h.length.toNat = 16 + f.image.length →
    (FragmentFits s f → f.last = false → ∃ t, Answers (.firmware h f) h statusOk [] s t ∧
      t.dev.staging = stagedWith s f ∧ t.dev.stagingStage = f.stage ∧ t.dev.stagingSlot = f.slot ∧ t.dev.stagingTotal = f.total ∧
      t.dev.firmware = s.dev.firmware) ∧
    (FragmentFits s f → f.last = true →
      (∀ t, storeImageOf f.stage (stagedWith s f) (discardStaging (counted s)) = some t →
        Answers (.firmware h f) h statusOk [] s t) ∧
      (storeImageOf f.stage (stagedWith s f) (discardStaging (counted s)) = none →
        Answers (.firmware h f) h statusRefused [] s (discardStaging (counted s)))) ∧
    (¬ FragmentFits s f → Answers (.firmware h f) h statusRefused [] s (discardStaging (counted s)))) ∧
  (∀ (h : CmdHeader) (r : FabricRequest) (s : State), Accepted 0x37 s h false →
    (r.number < 16384 → (∀ x ∈ r.entries, x.1 < 16384) →
      (s.ctxs = [] → ∃ t, Answers (.fabricmap h r) h statusOk [] s t ∧ t.dev.number = r.number ∧
        t.dev.fabricMap = r.entries) ∧
      (s.ctxs ≠ [] → Answers (.fabricmap h r) h statusState [] s (counted s))) ∧
    (16384 ≤ r.number ∨ (∃ x ∈ r.entries, 16384 ≤ x.1) → Answers (.fabricmap h r) h statusRefused [] s (counted s))) ∧
  (∀ (h : CmdHeader) (flush : Bool) (s : State), Accepted 0x33 s h false →
    ∃ t, exec (.warmreset h flush) s = .next t ∧ t.cur = Thread.idle ∧ t.threads = [] ∧ t.bands = [] ∧ t.nodes = [] ∧
      t.ctxs = [] ∧ t.cores = [] ∧ t.dev.power = .d2 ∧ t.dev.warmReset = some ⟨flush, h.seq, false⟩ ∧ t.dev.sent = s.dev.sent ∧
      (flush = true → s.mem.views = [] → s.mem.changes = [] → (∀ d ∈ s.mem.dirty, dieWorks s d.die = true) → ∀ c, c ∈ t.mem.cells ↔ c ∈ s.mem.cells ∧ keyIsStore c.1 = false)) ∧
  (∀ (s : State) (w : WarmReset) (xs : List FirmwareStage), s.dev.warmReset = some w → bootStages 1 s.dev.firmware = (none, xs) →
    ∃ t rest, exec .warmResetComplete s = .next t ∧ t.dev.power = .d0 ∧ t.dev.cycle = 0 ∧ t.dev.warmReset = none ∧
      t.dev.firmware = xs ∧ t.dev.failedStarts = 0 ∧
      t.dev.sent = s.dev.sent ++ [wordsMessage 0x33 0 statusOk w.seq.toNat []] ++ rest) ∧
  (∀ (s : State), s.dev.warmReset = none → exec .warmResetComplete s = .next s)

/-! ## The pool, bands and firings (09 R262 to R279, 13 R354, R355, 12 R326, R339) -/

namespace Sys2Proof

open Machine

/-- A dispatched node's band: every resource reserved, every instance idle before its first firing, the node gone from the
pool. -/
def Dispatches (s : State) (n : Node) (a : Actor) (die : Nat) : Prop :=
  ∃ t b, exec .poolDispatch s = .next t ∧ b ∈ t.bands ∧ b.entry = n.entry ∧ b.ctx = n.ctx ∧ b.packet = n.packet ∧ b.actor = a ∧ b.clock = n.clock ∧
    b.parent = n.parent ∧ b.child = n.child ∧ b.bySpawn = n.spawned ∧
    b.state = .reserving ∧ b.die = die ∧ b.instances.length = n.packet.gangs * n.packet.instances ∧
    (∀ i ∈ b.instances, i.state = .idle ∧ i.count = 0 ∧ i.fifos = [[], [], [], []]) ∧
    (∀ x ∈ bandCores b, ∃ core ∈ t.cores, core.pos = x.2 ∧ core.band = n.entry) ∧ ∀ m ∈ t.nodes, m.entry ≠ n.entry

/-- The conditions of FIRING_START: the band runs, the instance is fireable, the thread of its core is free, and no parked firing
and no other instance precedes it (R262 to R265). -/
def StartsHere (s : State) (c : Ctx) (b : Band) (i : Instance) (p : Pos) (thread : Nat) : Prop :=
  let k := i.index % gangWidth b.packet
  b.state = .running ∧ fireable b i = true ∧ mayTake s c b i.gang i.index thread = true ∧ bandCore b i.gang k = some p ∧
    ((parkedOn s b i.gang k).any (fun t => !c.det || mappedThread b t.fid.inst == thread)) = false ∧
    (c.det = true ∨ (fireableOn s b i.gang k).head? = some i.index)

/-- The g registers at entry: the packet's operands from g1 on, with their tags, and zero, untagged and full elsewhere. -/
def EntryRegisters (x : Thread) (xs : List TCap) : Prop :=
  (∀ i o, xs[i]? = some o → i + 1 < 64 → x.g.getD (i + 1) GReg.zero = ⟨o.val, o.tag, .full, .clear, []⟩) ∧
    ∀ n, n < 64 → (n = 0 ∨ xs.length < n) → x.g.getD n GReg.zero = ⟨0#128, false, .full, .clear, []⟩

/-- What a firing begins with, by 01 R19: the packet's operands, every other register zero and full, p0 all true and the other
predicates zero, no stream, no flag, no trap, and the pc at the entry address; and its system registers (01 R34 to R37). -/
def BeginsFiring (s : State) (x : Thread) (b : Band) (i : Instance) (pos : Pos) : Prop :=
  x.pos = pos ∧ x.duty = .firing ∧ x.fid = ⟨b.ctx, b.entry, i.gang, i.index, i.count⟩ ∧ x.hold = .running ∧
    EntryRegisters x b.packet.operands ∧ (∀ n, n < 28 → x.v.getD n VReg.zero = ⟨0#1024, .full⟩) ∧
    (∀ n, n < 8 → x.p.getD n 0#32 = if n = 0 then 0xFFFFFFFF#32 else 0#32) ∧ (∀ n, n < 8 → (slotAt x n).active = false) ∧
    x.fstat = 0#64 ∧ x.tcause = 0#64 ∧ x.tpc = 0#64 ∧ x.tinfo = 0#64 ∧ x.trapped = false ∧
    x.code = unsealCap b.packet.entry.val ∧ x.pc = capCursor x.code ∧ x.pathw = b.packet.path ∧
    x.ctxw = ctxWord s.dev.number b.packet b.ctx ∧ x.tidw = tidWord i.count i.index i.gang pos ∧ x.allotw = allotWord b.packet ∧
    x.calls = [] ∧ x.bad = []

end Sys2Proof

/-- 09 R267, R276 to R278, R275, 12 R326: POOL_DISPATCH dispatches the node that ranks first among those that can be, fails it with
NODEFAIL at the first check it does not pass, and leaves loops to LOOP_DISPATCH; BAND_DISPATCH makes a reserving band run;
LOOP_DISPATCH gives a loop its cores; none of them acts while the compute clocks are stopped. That an event whose condition fails
changes nothing is the model's choice (log 6). -/
def Obligations.NodesAreDispatched : Prop :=
  (∀ s, clocked s = false → exec .poolDispatch s = .next s ∧ (∀ band, exec (.bandDispatch band) s = .next s) ∧
    ∀ loop, exec (.loopDispatch loop) s = .next s) ∧
  (∀ s, clocked s = true → poolChoice s = none → exec .poolDispatch s = .next (passOver s)) ∧
  (∀ s n, clocked s = true → poolChoice s = some n → n.loop ≠ none → exec .poolDispatch s = .next s) ∧
  (∀ s n c, clocked s = true → poolChoice s = some n → n.loop = none → n.resumed = false → findCtx s n.ctx = some c →
    (∀ a die xs, nodeCheck s c n.packet = .ok a → choosePlaces s c n.packet = some (die, xs) →
      Dispatches s n a die) ∧
    (∀ k, nodeCheck s c n.packet = .error k →
      exec .poolDispatch s = .next (poolActed (ctxFault n.ctx kindNodefail 0x05 n.packet.path 0#64 0#64 (w64 k)
        { s with nodes := s.nodes.filter (fun m => m.entry != n.entry) })))) ∧
  (∀ s n c b die xs, clocked s = true → poolChoice s = some n → n.loop = none → n.resumed = true → findCtx s n.ctx = some c →
    findBand s n.entry = some b → choosePlaces s c n.packet = some (die, xs) →
    exec .poolDispatch s = .next (poolActed (replaceBand c b die xs s))) ∧
  (∀ (s : State) (band : Nat), clocked s = true → ∃ t, exec (.bandDispatch band) s = .next t ∧
    ∀ b, findBand s band = some b →
      findBand t band = some (if b.state = .reserving then { b with state := .running } else b)) ∧
  (∀ s loop l n c, clocked s = true → findLoop s loop = some l → poolChoice s = some n → n.loop = some loop → findCtx s l.ctx = some c →
    ∃ t, exec (.loopDispatch loop) s = .next t ∧
      ∀ p ∈ (loopSet c s).1, ∃ x ∈ t.cores, x.pos = p ∧ x.band = l.band) ∧
  (∀ s loop, findLoop s loop = none → exec (.loopDispatch loop) s = .next s)

/-- 09 R262 to R265, R269, 01 R19, 13 R352: a fireable instance starts on a free thread of its core with the entry state of R19; a
firing that has waited 1,024 cycles is parked for one that waits for its thread; a parked firing returns; an element in flight
enters its FIFO when there is room.  Where a parked firing's state stands in the save area is the model's choice (log 24), as is that
an event whose condition fails changes nothing (log 6). -/
def Obligations.FiringsStartParkAndReturn : Prop :=
  (∀ s band gang inst thread b c i p, findBand s band = some b → findCtx s b.ctx = some c →
    findInstance b gang inst = some i → StartsHere s c b i p thread →
    ∃ t x, exec (.firingStart band gang inst thread) s = .next t ∧ threadAt t { p with thread := thread } = some x ∧
      BeginsFiring s x b i { p with thread := thread } ∧
      ∃ b' i', findBand t band = some b' ∧ findInstance b' gang inst = some i' ∧ i'.state = .running ∧ i'.count = i.count) ∧
  (∀ s band gang inst thread b i, findBand s band = some b → findInstance b gang inst = some i →
    b.state ≠ .running ∨ fireable b i = false → exec (.firingStart band gang inst thread) s = .next s) ∧
  (∀ s f t b c w k i, threadOf s f = some t → findBand s f.band = some b → findCtx s b.ctx = some c → t.waitFrom = some w →
    ofBand b t = true → t.hold = .running → t.stopped = false → b.state = .running →
    let core := f.inst % gangWidth b.packet
    (fireableOn s b f.gang core).find? (fun i => !c.det || mappedThread b i == t.pos.thread) = some k →
    findInstance b f.gang k = some i →
    (c.det = true ∨ ∀ n, n < threadsOn b.packet core → threadFree s { t.pos with thread := n } = false) →
    (w + 1024 ≤ s.dev.cycle → ∃ u x, exec (.park f) s = .next u ∧ x ∈ u.threads ∧ x.fid = f ∧ x.hold = .parked ∧ x.g = t.g ∧
      x.pc = t.pc ∧ x.parkedAt = parkPlace s f.ctx) ∧
    (s.dev.cycle < w + 1024 → exec (.park f) s = .next s)) ∧
  (∀ s f thread t b c p, s.threads.find? (fun t => t.hold == .parked && t.fid == f) = some t → t.duty = .firing →
    findBand s f.band = some b → findCtx s f.ctx = some c → bandLive b →
    let core := f.inst % gangWidth b.packet
    bandCore b f.gang core = some p → mayTake s c b f.gang f.inst thread = true →
    (((parkedOn s b f.gang core).filter (fun x => !c.det || mappedThread b x.fid.inst == thread)).head?).map (·.fid) = some f →
    t.waitPassed = false →
    ∃ u x, exec (.parkedRestore f thread) s = .next u ∧ threadAt u { p with thread := thread } = some x ∧ x.fid = f ∧
      (∀ n : Fin 64, x.g[n] = if t.g[n].st = .full ∧ savedPoison s.mem t.parkedAt 0 n.val = true then { t.g[n] with st := .poisoned }
        else t.g[n]) ∧ x.pc = t.pc ∧ x.tidw = tidWord f.firing f.inst f.gang { p with thread := thread }) ∧
  (∀ (s : State) (c : Ctx) (k : DWord) (n : Nat), findCtx s c.number = some c → c.saveArea.toNat + c.saveSize ≤ 2 ^ 64 →
    parkPlace s c.number = some (k, n) → n = 8192 ∧ PlaceFits s c k.toNat n) ∧
  (∀ s f thread, (∀ t ∈ s.threads, t.hold = .parked → t.fid ≠ f) → exec (.parkedRestore f thread) s = .next s) ∧
  (∀ (s : State) (index : Nat) (e : Element) (b : Band) (d : Instance), s.net.elements[index]? = some e →
    findBand s e.band = some b → findInstance b e.gang e.inst = some d →
    (∀ x ∈ s.net.elements.take index, ¬ (x.band = e.band ∧ x.srcGang = e.srcGang ∧ x.srcInst = e.srcInst ∧ x.srcPort = e.srcPort)) →
    (roomOf b d e.port ≠ 0 →
      exec (.elementArrival index) s = .next (modInstance e.band e.gang e.inst (pushElement e.port e.sent)
        { s with net := { s.net with elements := s.net.elements.eraseIdx index } })) ∧
    (roomOf b d e.port = 0 → exec (.elementArrival index) s = .next s))

/-- 09 R272, 13 R354, R355, 14 R361: a running band whose instances are all idle and unfireable, with nothing in flight, drains; a
draining one with its engines retired, and its stores to other devices acknowledged or lost, exits, releases its cores and applies its set mask; a band being pre-empted is saved once
its engines are done, its threads suspended, and PREEMPTED is reported. That an event whose condition fails changes nothing is the model's choice (log 6). -/
def Obligations.BandsDrainExitAndAreSaved : Prop :=
  (∀ s band b, findBand s band = some b →
    (b.state = .running → exitTest s b = true →
      ∃ t, exec (.bandDrain band) s = .next t ∧ findBand t band = some { b with state := .draining } ∧ t.cur = s.cur ∧
        t.mem = s.mem) ∧
    (b.state ≠ .running ∨ exitTest s b = false → exec (.bandDrain band) s = .next s)) ∧
  (∀ s band b c, findBand s band = some b → b.entry = band → findCtx s b.ctx = some c → c.number = b.ctx →
    (b.state = .draining → enginesBusy s b = false → (∀ r ∈ b.stores, timeoutPassed s b.ctx r.issued 4 = true) →
      ∃ t c', exec (.bandExit band) s = .next t ∧ findBand t band = none ∧
        (∀ x ∈ bandCores b, ∀ core ∈ t.cores, core.pos ≠ x.2) ∧ (∀ l ∈ t.loops, l.band ≠ band) ∧
        findCtx t b.ctx = some c' ∧ c'.events = c.events ||| b.packet.set ∧
        (∀ x ∈ t.bands, b.parent = some x.sequence → ∃ clock, (b.child, clock) ∈ x.exited)) ∧
    (b.state ≠ .draining ∨ enginesBusy s b = true ∨ (∃ r ∈ b.stores, timeoutPassed s b.ctx r.issued 4 = false) → exec (.bandExit band) s = .next s)) ∧
  (∀ s band b c, findBand s band = some b → b.entry = band → findCtx s b.ctx = some c → c.killing = false →
    (b.state = .preempting → copiesInFlight s b = false →
      ∃ t, exec (.bandSaved band) s =
          .next (ctxFault b.ctx kindPreempted 0x18 b.packet.path 0#64 0#64 (w64 (if b.evict && saveFits s b then 1 else 0)) t) ∧
        (∃ b', findBand t band = some b' ∧ b'.state = .saved ∧ (b.evict = true → saveFits s b = true → b'.evicted = true ∧ b'.places = [] ∧ b'.saveAt = b.saveAt) ∧
          ((b.evict && saveFits s b) = false → b'.places = b.places ∧ b'.saveAt = none)) ∧
        ∀ x ∈ allThreads t, ofBand b x = true → ∃ parked, x.hold = .suspended parked) ∧
    (b.state ≠ .preempting ∨ copiesInFlight s b = true → exec (.bandSaved band) s = .next s))

/-! ## Inboxes, handlers, replies and watchdogs (07 R227 to R232, 09 R283 to R286, 11 R313 to R322, 13 R352) -/

namespace Sys2Proof

open Machine

/-- The owner's state once it has taken the head of its inbox. -/
def headTaken (q : Pos) (rest : List InMsg) (s : State) : State :=
  putOwner (settleInbox 17 { ownerAt s q with inbox := rest }) s

/-- The owner at q may take the head of its inbox: nothing to spill first, its service thread is free, and no failed
unit runs its core. -/
def MayTakeHead (s : State) (q : Pos) (m : InMsg) (rest : List InMsg) : Prop :=
  spillDue (ownerAt s q) = false ∧ threadFree s q = true ∧ coreWorks s (coreOf q) = true ∧ (ownerAt s q).inbox = m :: rest

/-- The registers that a reply call names hold four values or a record, in order, with the clock that a reader follows, and the
call is no longer outstanding. -/
def Fills (f : FiringId) (c : OutCall) (values : List TCap) (mark : Mark) (clock : List Nat) (t : State) : Prop :=
  ∃ th, threadOf t f = some th ∧
    (∀ i, i < c.count → 1 ≤ c.reg → c.reg + c.count ≤ 64 → th.g.getD (c.reg + i) GReg.zero =
      ⟨(values.getD i zeroCap).val, (values.getD i zeroCap).tag, .full, mark, clock⟩) ∧
    ∀ x ∈ th.calls, ¬ (x.serial = c.serial ∧ x.thread = c.thread)

/-- A call without a reply is complete: the counter falls, the first unreported record is kept, and RFENCE follows the owner. -/
def Finishes (th : Thread) (f : FiringId) (c : OutCall) (record : Option DWord) (clock : List Nat) (t : State) : Prop :=
  ∃ th', threadOf t f = some th' ∧ th'.rcalln = th.rcalln - 1 ∧
    th'.rcallRecord = (match th.rcallRecord with | some w => some w | none => record) ∧
    th'.rcallUnreported = (if record.isSome then th.rcallUnreported + 1 else th.rcallUnreported) ∧
    th'.rcallClock = clockMerge th.rcallClock clock ∧
    ∀ x ∈ th'.calls, ¬ (x.serial = c.serial ∧ x.thread = c.thread)

/-- The four words of a timeout record: KIND 2, cause 0x10, STAGE 2, the serial, and the target (07 R230). -/
def timeoutWords (c : OutCall) : List DWord := recordWords 2 0x10 2 c.hops c.serial 0#64 0#64 c.target

/-- A call gets the timeout record. -/
def TimesOut (i : Instr) (f : FiringId) (c : OutCall) (s : State) : Prop :=
  ∀ th, threadOf s f = some th → ∃ t, exec i s = .next t ∧
    (c.count ≠ 0 → Fills f c ((timeoutWords c).map (fun w => ⟨dataVal w, false⟩)) (.timeout ((timeoutWords c).getD 0 0#64)) [] t) ∧
    (c.count = 0 → Finishes th f c (some ((timeoutWords c).getD 0 0#64)) [] t)

end Sys2Proof

/-- 09 R283 to R286, 11 R313, R314, R317, 07 R227, 05 R166: a call enters its owner's inbox or is held; held arrivals spill to the
heap and come back; the head of the inbox starts its handler on the owner's service thread, or is refused with STAGE 0; a handler
that runs or waits too long traps 0x0F or 0x19.  What another device answers to a call is State.fabricIn's next entry, and a call is
lost where there is none (log 27); that an event whose condition fails changes nothing is log 6. -/
def Obligations.MessagesReachTheirOwners : Prop :=
  (∀ (index : Nat) (s : State) (m : CallMsg), s.net.calls[index]? = some m →
    let taken : State := { s with net := { s.net with calls := s.net.calls.eraseIdx index } }
    let o := ownerAt s m.owner
    (m.device = s.dev.number →
      (∀ x ∈ s.net.calls.take index, ¬ (x.caller = m.caller ∧ x.callerDevice = m.callerDevice ∧ x.owner = m.owner)) →
      (o.held = [] → o.spill = [] → o.inbox.length < 64 →
        ∃ t, exec (.callArrival index) s = .next t ∧ (ownerAt t m.owner).inbox = o.inbox ++ [.call m] ∧
          t.net.calls = taken.net.calls) ∧
      (o.held.length < 16 → (o.spill ≠ [] ∨ 64 ≤ o.inbox.length) →
        ∃ t, exec (.callArrival index) s = .next t ∧ (ownerAt t m.owner).held = o.held ++ [.call m] ∧
          t.net.calls = taken.net.calls) ∧
      (16 ≤ o.held.length → exec (.callArrival index) s = .next s)) ∧
    (m.device ≠ s.dev.number → s.fabricIn = [] → exec (.callArrival index) s = .next taken) ∧
    (∀ x rest, m.device ≠ s.dev.number → s.fabricIn = x :: rest →
      exec (.callArrival index) s = .next (foreignAnswer m x { taken with fabricIn := rest }))) ∧
  (∀ (p : Pos) (s : State) (m : InMsg) (c : Ctx),
    let q := serviceOf p
    let o := ownerAt s q
    clocked s = true → o.held = [m] → spillDue o = true → threadFree s q = true → findCtx s m.ctx = some c →
    (c.spillUsed + m.record ≤ c.spillSize → ∃ t c', exec (.spillDuty p) s = .next t ∧ (ownerAt t q).held = [] ∧
      (ownerAt t q).spill = o.spill ++ [m] ∧ findCtx t m.ctx = some c' ∧ c'.spillUsed = c.spillUsed + m.record) ∧
    (c.spillSize < c.spillUsed + m.record → exec (.spillDuty p) s = .next (spillFull m.ctx (putOwner { o with held := [m] } s)))) ∧
  (∀ (p : Pos) (s : State) (m : InMsg) (rest : List InMsg),
    let q := serviceOf p
    let o := ownerAt s q
    o.spill = m :: rest →
    (o.inbox.length < 64 → ∃ t, exec (.loopbackRefill p) s = .next t ∧ o.inbox ++ [m] <+: (ownerAt t q).inbox ∧
      (ownerAt t q).spill = rest) ∧
    (64 ≤ o.inbox.length → exec (.loopbackRefill p) s = .next s)) ∧
  (∀ (p : Pos) (s : State) (m : CallMsg) (rest : List InMsg) (c : Ctx),
    let q := serviceOf p
    clocked s = true → MayTakeHead s q (.call m) rest → findCtx s m.ctx = some c →
    let u := applyCall m q (headTaken q rest s)
    (∀ e, handlerEntry u c m.handler = some e → entryAllows e q = true →
      keyOf u c none (capAddr m.target.val) 1 ≠ none →
      ∃ t x, exec (.handlerStart p) s = .next t ∧ threadAt t q = some x ∧ x = handlerThread m e q s.dev.cycle) ∧
    (∀ e, handlerEntry u c m.handler = some e → entryAllows e q = true →
      keyOf u c none (capAddr m.target.val) 1 = none → exec (.handlerStart p) s = .next (refuseCall m 0x09 0 (u.mem.clockAt (serviceEye q)) u)) ∧
    (∀ e, handlerEntry u c m.handler = some e → entryAllows e q = false →
      exec (.handlerStart p) s = .next (refuseCall m 0x06 0 (u.mem.clockAt (serviceEye q)) u)) ∧
    (handlerEntry u c m.handler = none → exec (.handlerStart p) s = .next (refuseCall m 0x09 0 (u.mem.clockAt (serviceEye q)) u))) ∧
  (∀ (p : Pos) (s : State) (l : LandMsg) (rest : List InMsg) (x : Xfer) (c : Ctx) (e : HandlerEntry),
    let q := serviceOf p
    clocked s = true → MayTakeHead s q (.land l) rest → findXfer s l.core l.channel l.id = some x → findCtx s l.ctx = some c →
    handlerEntry (headTaken q rest s) c l.handler = some e →
    (entryAllows e q = true → ∃ t y, exec (.landingHandler p) s = .next t ∧ threadAt t q = some y ∧
      y.duty = .landing ⟨l.core, l.channel, l.id, l.packet, capCursor l.dest, l.bytes.length, 0, l.writer⟩ ∧ y.fid = x.issuer ∧
      y.code = unsealCap e.handler.val ∧ y.pc = capCursor y.code ∧ y.v = payloadRegs l.bytes) ∧
    (entryAllows e q = false →
      exec (.landingHandler p) s = .next (faultTransfer l.core l.channel l.id l.packet 0x06 (headTaken q rest s)))) ∧
  (∀ (p : Pos) (s : State) (t : Thread), threadAt s (serviceOf p) = some t → inHandler t = true →
    (4096 ≤ executedOf t → exec (.handlerRunLimit p) s = .next (trapAt (serviceOf p) 0x0F 4096#64 s)) ∧
    (executedOf t < 4096 → exec (.handlerRunLimit p) s = .next s) ∧
    (∀ w, t.waitFrom = some w →
      (w + 2 ^ 20 ≤ s.dev.cycle → exec (.handlerWaitLimit p) s = .next (trapAt (serviceOf p) 0x19 0#64 s)) ∧
      (s.dev.cycle < w + 2 ^ 20 → exec (.handlerWaitLimit p) s = .next s)))

/-- 07 R228, R230, R231, 11 R320 to R322, 05 R142, R143, 13 R352: an arriving reply fills the registers of its call, an arriving
completion lowers the counter, and one for a serial that is not outstanding is discarded; a lost call gets the timeout record; a
remote load that is not answered traps 0x10; a store acknowledged within the timeout is no longer awaited, and another has failed;
the watchdogs trap 0x19. That an event whose condition fails changes nothing is the model's choice (log 6). -/
def Obligations.AnswersReachTheirCallers : Prop :=
  (∀ (index : Nat) (s : State) (m : ReplyMsg), s.net.replies[index]? = some m →
    let taken : State := { s with net := { s.net with replies := s.net.replies.eraseIdx index } }
    (∀ c, callNamed s m.caller m.thread m.serial = some c → c.count ≠ 0 →
      ∃ t, exec (.replyArrival index) s = .next t ∧ t.net = taken.net ∧ Fills m.caller c m.values m.mark m.clock t) ∧
    (callNamed s m.caller m.thread m.serial = none → exec (.replyArrival index) s = .next taken)) ∧
  (∀ (index : Nat) (s : State) (m : DoneMsg), s.net.dones[index]? = some m →
    let taken : State := { s with net := { s.net with dones := s.net.dones.eraseIdx index } }
    (∀ c th, threadOf s m.caller = some th → callNamed s m.caller m.thread m.serial = some c → c.count = 0 →
      ∃ t, exec (.rcallnCompletion index) s = .next t ∧ t.net = taken.net ∧ Finishes th m.caller c m.record m.clock t) ∧
    (callNamed s m.caller m.thread m.serial = none → exec (.rcallnCompletion index) s = .next taken)) ∧
  (∀ (f : FiringId) (serial : Word) (s : State) (c : OutCall), callOf s f serial = some c → c.serial = serial →
    (c.device ≠ s.dev.number →
      (timeoutPassed s f.ctx c.issued 4 = true → TimesOut (.callTimeout f serial) f c s) ∧
      (timeoutPassed s f.ctx c.issued 4 = false → exec (.callTimeout f serial) s = .next s) ∧
      (c.idem = false → TimesOut (.transportError f serial) f c s) ∧
      (c.idem = true → exec (.transportError f serial) s = .next s)) ∧
    (c.device = s.dev.number → exec (.callTimeout f serial) s = .next s ∧ exec (.transportError f serial) s = .next s ∧
      exec (.rudiReissue f serial) s = .next s) ∧
    (∀ th, threadOf s f = some th → c.device ≠ s.dev.number → c.idem = true → c.reissues < 3 →
      timeoutPassed s f.ctx c.issued (c.reissues + 1) = true →
      ∃ t, exec (.rudiReissue f serial) s = .next t ∧ t.net.calls = s.net.calls ++ [callMessage s th c] ∧
        ∃ c', callOf t f serial = some c' ∧ c'.reissues = c.reissues + 1) ∧
    (c.idem = false ∨ 3 ≤ c.reissues ∨ timeoutPassed s f.ctx c.issued (c.reissues + 1) = false → exec (.rudiReissue f serial) s = .next s)) ∧
  (∀ (kind : UnitKind) (number : Nat) (s : State),
    ((∃ found, (kind, number, found) ∈ s.dev.failedUnits ∧ found + cyclesPerMillisecond ≤ s.dev.cycle) → ∃ t, exec (.lostReplyFill kind number) s = .next t ∧
      ∀ f th, threadOf t f = some th → ∀ c ∈ th.calls, ¬ (c.device = s.dev.number ∧ unitRuns kind number c.owner = true)) ∧
    ((∀ found, (kind, number, found) ∈ s.dev.failedUnits → s.dev.cycle < found + cyclesPerMillisecond) → exec (.lostReplyFill kind number) s = .next s)) ∧
  (∀ (f : FiringId) (s : State) (t : Thread), threadOf s f = some t →
    (∀ a w, t.awaitsFabric = some (a, w) → t.hold = .running →
      (timeoutPassed s f.ctx w 4 = true → exec (.remoteLoadTimeout f) s = .next (trapFiring f 0x10 a s)) ∧
      (timeoutPassed s f.ctx w 4 = false → exec (.remoteLoadTimeout f) s = .next s)) ∧
    (t.awaitsFabric = none → exec (.remoteLoadTimeout f) s = .next s) ∧
    (∀ id, (∀ r ∈ t.remoteStores, r.id = id → timeoutPassed s f.ctx r.issued 4 = false) →
      ∃ u t', exec (.remoteWriteAck f id true) s = .next u ∧ threadOf u f = some t' ∧
        t'.remoteStores = t.remoteStores.filter (fun r => r.id != id)) ∧
    (∀ id ok, ∃ u t', exec (.remoteWriteAck f id ok) s = .next u ∧ threadOf u f = some t' ∧
      (∀ r ∈ t'.remoteStores, r.id = id → r.failed = true) ∧
      ∀ r ∈ t.remoteStores, r.id = id → (ok = false ∨ timeoutPassed s f.ctx r.issued 4 = true) →
        { r with failed := true } ∈ t'.remoteStores) ∧
    (∀ c w, findCtx s f.ctx = some c → t.waitFrom = some w → clocksRun s t = true → t.waitPassed = false →
      (w + c.waitLimit ≤ s.dev.cycle → t.hold ≠ .parked → exec (.watchdogWait f) s = .next (trapFiring f 0x19 0#64 s)) ∧
      (w + c.waitLimit ≤ s.dev.cycle → t.hold = .parked →
        ∃ u t', exec (.watchdogWait f) s = .next u ∧ threadOf u f = some t' ∧ t'.waitPassed = true ∧ t'.pc = t.pc) ∧
      (s.dev.cycle < w + c.waitLimit → exec (.watchdogWait f) s = .next s)) ∧
    (∀ c, findCtx s f.ctx = some c → clocksRun s t = true → t.hold = .running →
      (c.runLimit ≠ 0 → t.runFrom + c.runLimit ≤ s.dev.cycle → exec (.watchdogRun f) s =
        .next (trapFiring f 0x19 1#64 (modFiring f (fun t => { t with runFrom := s.dev.cycle }) s))) ∧
      (c.runLimit = 0 ∨ s.dev.cycle < t.runFrom + c.runLimit → exec (.watchdogRun f) s = .next s)))

/-! ## Coherence, page changes and accesses from outside (08 R249 to R260, 13 R357 to R360, 09 R281, 14 R370) -/

namespace Sys2Proof

open Machine

/-- What an access from outside does: its effect when every check passes, else nothing here; its answer leaves the device. -/
def OutsideDoes (i : Instr) (s : State) (m : Act Unit) : Prop :=
  (∀ t, m s = .ok (⟨⟩, t) → exec i s = .next t) ∧
  (∀ cause info, m s = .error (.trap cause info) → exec i s = .next s)

/-- No core's stash holds a line. -/
def NoStashLines (s : State) : Prop := ∀ c ∈ s.cores, ∀ x, some x ∈ c.stash → x.valid = []

/-- A range of at most one page of a context is reached by the hub at a key that is no view's. -/
def HubReaches (s : State) (c : Ctx) (a n : Nat) (kind : Kind) (checked fmtw : Bool) (k : Nat) (t : State) : Prop :=
  0 < n ∧ a % 65536 + n ≤ 65536 ∧ keyIsView k = false ∧ ∃ leaf, reach (hubAgent c) a n kind checked fmtw s = .ok (.bytes k leaf, t)

/-- The hub reads the bytes that it sees at a key: `m` is memory after it, dirty view lines over them recalled. -/
def HubReads (c : Ctx) (k n : Nat) (t : State) (bs : List Byte) (m : Memory) : Prop :=
  m = t.mem.readied (hubAgent c).eye k n ∧ m.firstPoison k n = none ∧ bs = m.seenBytes (hubAgent c).eye k n

/-- A store from outside: nothing but memory and the count of writes changes; its bytes stand at their place, where every die and
the hub sees them, and no other byte changes. -/
def HubStores (i : Instr) (s t : State) (k : Nat) (bs : List Byte) (tag : Bool) : Prop :=
  ∃ m, exec i s = .next { t with mem := m, nextId := t.nextId + 1 } ∧
    (t.mem.wf = true → NoViews k t.mem → LandsBytes k bs t.mem m ∧ (k % 16 = 0 → (k / 16 ∈ m.tags ↔ tag = true)))

end Sys2Proof

/-- 08 R249, R252, R253, R257: a recalled or evicted line is dirty nowhere, and memory's bytes are as they were; a view line is given up,
or kept clean; a line that a copy engine holds is not recalled; a write becomes visible to a die that has applied everything
before it, and to a die that has not, it does not. That an event whose condition fails changes nothing is the model's choice (log 6). -/
def Obligations.LinesAndWritesReachTheirHomes : Prop :=
  (∀ (line : Nat) (invalidate : Bool) (s : State),
    (copyOwned s none (128 * line) 128 = true → exec (.directoryRecall line invalidate) s = .next s) ∧
    (copyOwned s none (128 * line) 128 = false → keyIsView (128 * line) = false →
      ∃ t, exec (.directoryRecall line invalidate) s = .next t ∧ t.cur = s.cur ∧ (∀ d ∈ t.mem.dirty, d.line ≠ line) ∧
        (invalidate = false ∨ NoStashLines s → t.mem.cells = s.mem.cells ∧ t.mem.tags = s.mem.tags)) ∧
    (copyOwned s none (128 * line) 128 = false → keyIsView (128 * line) = true →
      ∃ t, exec (.directoryRecall line invalidate) s = .next t ∧
        ∀ v ∈ t.mem.views, v.line = line → invalidate = false ∧ v.dirty = false)) ∧
  (∀ (line : Nat) (s : State),
    (keyIsView (128 * line) = false → ∃ t, exec (.dirtyLineEviction line) s = .next t ∧ t.mem.cells = s.mem.cells ∧
      t.mem.tags = s.mem.tags ∧ ∀ d ∈ t.mem.dirty, d.line ≠ line) ∧
    (keyIsView (128 * line) = true → ∃ t, exec (.dirtyLineEviction line) s = .next t ∧ ∀ v ∈ t.mem.views, v.line ≠ line)) ∧
  (∀ (id : Nat) (s : State),
    (∃ t, exec (.writeVisibility id) s = .next t ∧ t.mem.cells = s.mem.cells ∧ t.mem.tags = s.mem.tags ∧ t.cur = s.cur ∧
      ((s.mem.unseen.map (fun w => (w.id, w.toDie))).Nodup →
        ∀ w ∈ s.mem.unseen, w.id = id / 8 → w.toDie = id % 8 →
          s.mem.ready w = true →
          ∀ x ∈ t.mem.unseen, ¬ (x.id = id / 8 ∧ x.toDie = id % 8))) ∧
    ((∀ w ∈ s.mem.unseen, w.id = id / 8 → w.toDie = id % 8 →
        s.mem.ready w = false) →
      exec (.writeVisibility id) s = .next s))

/-- 13 R357 to R359, 09 R281: a page change that nothing pins, and whose frame no request of a loop still reaches, is released: the new word stands in the entry, with the device's fields as
they were, and the deferred reply of its MAPWRITE is sent with its last change; a migration begins by setting MIGRATING and taking a frame of the new die. That an event whose condition fails changes nothing is
the model's choice (log 6). -/
def Sys2Proof.PageChangesCompletePart : Prop :=
  (∀ (index : Nat) (s : State) (x : PageChange), s.mem.changes[index]? = some x →
    (pagePinned s x.entryAt = false → rsvWithin s (entryPhys (s.mem.word64 x.entryAt)) x.size = false →
      (∀ y ∈ s.mem.changes.take index, y.entryAt ≠ x.entryAt) →
      ∃ t, exec (.leafChangeRelease index) s = .next t ∧ x ∉ t.mem.changes ∧
        (∀ r, x.reply = some r → (∀ y ∈ s.mem.changes, y ≠ x → y.reply ≠ some r) → t.dev.sent = s.dev.sent ++ [r]) ∧
        ((x.reply = none ∨ ∃ y ∈ s.mem.changes, y ≠ x ∧ y.reply = x.reply) → t.dev.sent = s.dev.sent) ∧
        (x.migration = none → s.mem.wf = true → s.mem.views = [] →
          t.mem.word64 x.entryAt = newLeaf (s.mem.word64 x.entryAt) x.word)) ∧
    (pagePinned s x.entryAt = true ∨ rsvWithin s (entryPhys (s.mem.word64 x.entryAt)) x.size = true → exec (.leafChangeRelease index) s = .next s)) ∧
  (∀ (ctx : Nat) (address : DWord) (die : Nat) (s : State) (c : Ctx) (l : Leaf) (frame : Nat) (rest : List Nat),
    findCtx s ctx = some c → walk s.mem c (address.toNat % 2 ^ 50) = some l →
    entryPlace l.word = true → entryPlaced l.word = true → entryMigrating l.word = false → keyDie (entryPhys l.word) ≠ die →
    remoteMajority s ctx (w64 (address.toNat % 2 ^ 50 / 65536 * 65536)) (keyDie (entryPhys l.word)) = true →
    c.frames.getD die [] = frame :: rest →
    ∃ t x c', exec (.pageMigration ctx address die) s = .next t ∧ t.mem.changes = s.mem.changes ++ [x] ∧
      x.entryAt = l.entryAt ∧ x.migration = some (frame, die) ∧ x.size = 65536 ∧
      (s.mem.wf = true → entryMigrating (t.mem.word64 l.entryAt) = true) ∧
      findCtx t ctx = some c' ∧ c'.frames = c.frames.set die rest) ∧
  (∀ (ctx : Nat) (address : DWord) (die : Nat) (s : State), findCtx s ctx = none →
    exec (.pageMigration ctx address die) s = .next s)

/-- 08 R260, 14 R370: an access of another device, and a host's UET access while its session is open, act as the hub's: a load changes no
byte that it reads, a store is performed at dev scope: every die and the hub sees its bytes, and no other byte changes; one that fails
a check has no effect here, and a write of the host that must wait is kept and tried again.  A range of several pages is served page
by page.  That an access of another device acts as the hub's, and that its answer leaves the model, is log 28's; what a host reads is
kept with what the device sends (log 34), and an access to no open session changes nothing (log 6): the model's choices. -/
def Obligations.OutsideAccessesArePerformed : Prop :=
  (∀ (s : State) (d ctx : Nat) (a : DWord) (c : Ctx), findCtx s ctx = some c → a.toNat / 2 ^ 50 = s.dev.number →
    (∀ size, OutsideDoes (.remoteAccessArrival (.load d ctx a size)) s (do let _ ← hubRead c a.toNat size)) ∧
    (∀ bs, OutsideDoes (.remoteAccessArrival (.store d ctx a bs)) s (hubWrite c true a.toNat bs false)) ∧
    (∀ bs, OutsideDoes (.remoteAccessArrival (.packet d ctx a bs)) s (hubWrite c true a.toNat bs false)) ∧
    (∀ x, a.toNat % 16 = 0 → OutsideDoes (.remoteAccessArrival (.storeCap d ctx a x)) s
      (hubWrite c true a.toNat (natBytes 16 x.val.toNat) (x.tag && capSealed x.val && capHas x.val permGLOBAL))) ∧
    (∀ op width operand returns p t old u, 0 < width → a.toNat % width = 0 →
      reach (hubAgent c) a.toNat width .write returns true s = .ok (p, t) →
      updateAt (hubAgent c) p a.toNat width (some 3)
        (fun old => combine op (8 * width) old (operand.toNat % 2 ^ (8 * width))) t = .ok (old, u) →
      exec (.remoteAccessArrival (.atomic d ctx a op width operand returns)) s = .next u)) ∧
  (∀ (s : State) (d ctx : Nat) (a : DWord) (size : Nat), a.toNat / 2 ^ 50 ≠ s.dev.number →
    exec (.remoteAccessArrival (.load d ctx a size)) s = .next s) ∧
  (∀ (s t : State) (d ctx k : Nat) (a : DWord) (c : Ctx), findCtx s ctx = some c → a.toNat / 2 ^ 50 = s.dev.number →
    (∀ n bs m, HubReaches s c a.toNat n .read false false k t → HubReads c k n t bs m →
      exec (.remoteAccessArrival (.load d ctx a n)) s = .next { t with mem := m }) ∧
    (∀ bs, HubReaches s c a.toNat bs.length .write true true k t →
      HubStores (.remoteAccessArrival (.store d ctx a bs)) s t k bs false ∧
      HubStores (.remoteAccessArrival (.packet d ctx a bs)) s t k bs false) ∧
    (∀ x, a.toNat % 16 = 0 → HubReaches s c a.toNat 16 .write true true k t →
      HubStores (.remoteAccessArrival (.storeCap d ctx a x)) s t k (natBytes 16 x.val.toNat)
        (x.tag && capSealed x.val && capHas x.val permGLOBAL)) ∧
    (∀ number fn x, HubReaches s c a.toNat 4 .write true true k t → a.toNat % 4 = 0 → keyIsCluster k = true → fn = 2 ∨ fn = 3 →
      (fn = 2 → t.mem.isFull k = false ∧ waitsAhead t.mem.waiters ⟨2 ^ 16, 3, d, number, ctx⟩ k false = false) →
      ∃ u, exec (.remoteAccessArrival (.fullWord d ctx a number fn x)) s = .next u ∧ u.mem.isFull k = true ∧
        ∀ i, i < 4 → cellGet u.mem.cells (k + i) = (natBytes 4 x.toNat).getD i 0#8)) ∧
  (∀ (s : State) (d ctx : Nat) (a : DWord) (c : Ctx), findCtx s ctx = some c → a.toNat / 2 ^ 50 = s.dev.number →
    (∀ number fn x, OutsideDoes (.remoteAccessArrival (.fullWord d ctx a number fn x)) s
      (hubFullWord c ⟨2 ^ 16, 3, d, number, ctx⟩ a.toNat fn x)) ∧
    (∀ fn x, OutsideDoes (.remoteAccessArrival (.barrier d ctx a fn x)) s (hubBarrier c a.toNat fn x))) ∧
  (∀ (s t : State) (ctx k : Nat) (a : DWord) (c : Ctx), findCtx s ctx = some c → sessionOpen s = true →
    (∀ bs, s.net.hostWrites = [] → HubReaches s c a.toNat bs.length .write false true k t →
      HubStores (.hostUetWrite ctx a bs) s t k bs false) ∧
    (∀ n bs m, HubReaches s c a.toNat n .read false false k t → HubReads c k n t bs m →
      exec (.hostUetRead ctx a n) s = .next { t with
        mem := m, dev := { t.dev with sent := t.dev.sent ++ [⟨0, ctx, 0, 0, n, wordsOf ((n + 7) / 8) bs⟩] } })) ∧
  (∀ (s : State) (ctx : Nat) (a : DWord) (c : Ctx), findCtx s ctx = some c → sessionOpen s = true →
    (∀ bs, s.net.hostWrites = [] → OutsideDoes (.hostUetWrite ctx a bs) s (hubWrite c false a.toNat bs false) ∧
      (hubWrite c false a.toNat bs false s = .error .wait →
        exec (.hostUetWrite ctx a bs) s = .next { s with net := { s.net with hostWrites := [⟨ctx, a, bs⟩] } })) ∧
    (∀ bs, sessionOpen (retryWrites s) = true → (retryWrites s).net.hostWrites = [] →
      exec (.hostUetWrite ctx a bs) s = exec (.hostUetWrite ctx a bs) (retryWrites s)) ∧
    (∀ n bs t, hubRead c a.toNat n s = .ok (bs, t) → exec (.hostUetRead ctx a n) s = .next
      { t with dev := { t.dev with sent := t.dev.sent ++ [⟨0, ctx, 0, 0, n, wordsOf ((n + 7) / 8) bs⟩] } })) ∧
  (∀ (c : Ctx) (addr n m : Nat) (s t u : State) (bs cs : List Byte), 0 < n → 0 < m → (addr + n) % 65536 = 0 →
    hubRead c addr n s = .ok (bs, t) → hubRead c (addr + n) m t = .ok (cs, u) → hubRead c addr (n + m) s = .ok (bs ++ cs, u)) ∧
  (∀ (c : Ctx) (checked : Bool) (addr : Nat) (bs cs : List Byte) (s t : State), bs ≠ [] → cs ≠ [] → (addr + bs.length) % 65536 = 0 →
    hubWrite c checked addr bs false s = .ok (⟨⟩, t) →
    hubWrite c checked addr (bs ++ cs) false s = hubWrite c checked (addr + bs.length) cs false t) ∧
  (∀ (s : State) (ctx : Nat) (a : DWord), sessionOpen s = false →
    (∀ bs, exec (.hostUetWrite ctx a bs) s = .next s) ∧ ∀ n, exec (.hostUetRead ctx a n) s = .next s)

/-- 13 R360: an uncorrectable error poisons the 16 bytes that it strikes and is logged; no byte changes; a corrected error is logged, and
nothing else changes. That an error whose place and address do not fit changes nothing is the model's choice (log 6). -/
def Sys2Proof.ErrorsPoisonAndAreLoggedPart : Prop :=
  (∀ (place : ErrorPlace) (address : Nat) (s : State),
    (errorFits s.mem place address = true → ∃ t, exec (.uncorrectableError place address) s = .next t ∧
      t.mem.cells = s.mem.cells ∧ t.mem.tags = s.mem.tags ∧ t.dev.errorLog = s.dev.errorLog ++ [(place, address)] ∧ t.cur = s.cur ∧
      (keyIsView (16 * (address / 16)) = false → place ≠ .hbm ∨ (∀ d ∈ s.mem.dirty, d.line ≠ address / 128) →
        address / 16 ∈ t.mem.poison) ∧
      (keyIsView (16 * (address / 16)) = true → place = .l2 →
        ∀ v ∈ t.mem.views, v.line = address / 16 / 8 → address / 16 ∈ v.poison) ∧
      (place = .hbm → ∀ d ∈ t.mem.dirty, d.line = address / 128 → address / 16 ∈ d.poison)) ∧
    (errorFits s.mem place address = false → exec (.uncorrectableError place address) s = .next s)) ∧
  (∀ (place : ErrorPlace) (address : Nat) (s : State), exec (.correctedSoftError place address) s =
    .next { s with dev := { s.dev with correctedLog := s.dev.correctedLog ++ [(place, address)] } })

/-- 13 R357 to R360, 09 R281: page changes are released and migrations begin; an uncorrectable error poisons the 16 bytes that it strikes. -/
def Obligations.PageChangesAndErrorsComplete : Prop :=
  Sys2Proof.PageChangesCompletePart ∧ Sys2Proof.ErrorsPoisonAndAreLoggedPart

/-! ## The package (14 R364 to R380, 11 R324, R325, 02 R72) -/

namespace Sys2Proof

open Machine

/-- A device message: it goes to the open session with the session's own message sequence; without a session nothing is sent. -/
def SendsMessage (s t : State) (opcode ctx : Nat) (payload : List DWord) : Prop :=
  (∀ x, s.dev.session = some x → ∃ rest, t.dev.sent = s.dev.sent ++ [wordsMessage opcode ctx 0 x.messageSeq payload] ++ rest) ∧
  (s.dev.session = none → t.dev.sent = s.dev.sent)

/-- A start that failed: the counter rises and the cause record is kept (14 R374). -/
def StartFailed (s t : State) (stage slots code : Nat) : Prop :=
  t.dev.failedStarts = s.dev.failedStarts + 1 ∧ t.dev.powerTarget = none ∧
    t.dev.bootRecord = w64 (stage * 2 ^ 24 + slots * 2 ^ 16 + code * 2 ^ 8 + min (s.dev.failedStarts + 1) 255)

/-- The cycle since which nothing has changed for a context whose nodes wait: its last progress, or the entry of its oldest node
(14 R369). -/
def stalledSince (s : State) (c : Ctx) (n : Node) : Nat :=
  max c.lastProgress ((s.nodes.filter (fun x => x.ctx == c.number && !x.resumed)).foldl (fun t x => min t x.entered) n.entered)

/-- Every band that ran or drained is being pre-empted by retention (14 R372). -/
def EveryBandRetained (t : State) : Prop := ∀ b ∈ t.bands, ¬ bandLive b ∧ (b.state = .preempting → b.evict = false)

end Sys2Proof

/-- 02 R72: an illegal encoding raises cause 0x01 with its word and the number of its first failing check in TINFO. -/
def Sys2Proof.IllegalEncodingRaisesCause01Part : Prop :=
  ∀ (check : Nat) (word : Word) (s : State),
    (inHandler s.cur = false ∨ executedOf s.cur < 4096 →
      exec (.illegalEncoding check word) s = .next (afterTrap 0x01 (illegalInfo check word) s)) ∧
    (inHandler s.cur = true → 4096 ≤ executedOf s.cur →
      exec (.illegalEncoding check word) s = .next (afterTrap 0x0F 4096#64 s))

/-- 13 R343, R344, R347, 04 R134, R135, 02 R72: delivery of a trap; a trap that is not delivered stops its firing and is reported; ETRAP raises cause
0x17 and NOP nothing; an illegal encoding raises cause 0x01; ERET
leaves trap state, unless what it restores came back poisoned: 0x12, whose TINFO of 0 is the model's choice (log 32). -/
def Obligations.TrapsAreTaken : Prop :=
  Sys2Proof.TrapDeliveryPart ∧ Sys2Proof.TrapsWithoutDeliveryStopTheFiringPart ∧ Sys2Proof.EtrapRaisesCause17Part ∧ Sys2Proof.IllegalEncodingRaisesCause01Part ∧ Sys2Proof.EretLeavesTrapStatePart

/-- 14 R372, R374, R379, R380: a trip pre-empts every band by retention and latches; a critical trip enters D3; a commanded power state is
reached when its entry condition holds; a cold boot starts each stage whose image passes, or fails with a record; three failed
starts end in minimal mode.  The model's choices here: TRIP's payload words and action codes (log 34); the order of a trip's steps,
CYCLE 0, D0 in minimal mode, the self-test that fails and BOOT_TIMEOUT's stage, which the package alone knows (log 37); that an event
whose condition fails changes nothing (log 6). -/
def Obligations.PowerEventsComplete : Prop :=
  (∀ (sensor : Sensor) (value : Nat) (s : State),
    (s.dev.power ≠ .d3 → s.dev.warmReset = none → tripLevel sensor value = true →
      ∃ t, exec (.trip sensor value) s = .next t ∧ t.dev.tripLatched = true ∧ t.dev.tripAt = some s.dev.cycle ∧ t.dev.power = s.dev.power ∧
        (s.dev.power = .d0 → t.dev.powerTarget = some .d1) ∧ (sensor, value) ∈ t.dev.sensors ∧ EveryBandRetained t ∧
        SendsMessage s t 0x82 0 [w64 (sensorNumber sensor), w64 value, 1#64] ∧ t.mem.cells = s.mem.cells ∧ t.mem.tags = s.mem.tags) ∧
    (s.dev.power = .d3 ∨ tripLevel sensor value = false ∨ s.dev.warmReset ≠ none →
      exec (.trip sensor value) s = .next s)) ∧
  (∀ (die value : Nat) (s : State),
    (s.dev.power ≠ .d3 → 120 ≤ value →
      ∃ t, exec (.criticalTrip die value) s = .next t ∧ t.dev.power = .d3 ∧ t.ctxs = [] ∧ t.bands = [] ∧ t.threads = [] ∧
        t.dev.session = none ∧ t.dev.owners = s.dev.owners ∧ t.dev.failedStarts = s.dev.failedStarts ∧ t.mem = Memory.reset ∧
        SendsMessage s t 0x82 0 [w64 die, w64 value, 2#64]) ∧
    (s.dev.power = .d3 ∨ value < 120 → exec (.criticalTrip die value) s = .next s)) ∧
  (∀ (target : PowerState) (s : State),
    (s.dev.powerTarget ≠ some target → exec (.powerStateReached target) s = .next s) ∧
    (s.dev.powerTarget = some target →
      (target = .d0 → ∃ t, exec (.powerStateReached target) s = .next t ∧ t.dev.power = .d0 ∧ t.dev.powerTarget = none ∧
        (s.dev.power = .d3 → t.dev.failedStarts = 0 ∧ t.dev.cycle = 0) ∧ t.mem = s.mem) ∧
      (target = .d1 → (∀ b ∈ s.bands, ¬ bandLive b ∧ b.state ≠ .preempting) →
        ∃ t, exec (.powerStateReached target) s = .next t ∧ t.dev.power = .d1 ∧ t.mem = s.mem ∧ t.cores = s.cores) ∧
      (target = .d2 → powerAllows s .d2 = true →
        ∃ t, exec (.powerStateReached target) s = .next t ∧ t.dev.power = .d2 ∧ t.cores = [] ∧
          (∀ c ∈ t.mem.cells, keyIsStore c.1 = false) ∧ t.mem.windows = Memory.reset.windows ∧
          (∀ o ∈ t.owners, o.inbox = [] ∧ o.held = []) ∧ ∀ x ∈ allThreads t, inHandler x = false) ∧
      (target = .d3 → powerAllows s .d3 = true →
        ∃ t, exec (.powerStateReached target) s = .next t ∧ t.dev.power = .d3 ∧ t.mem = Memory.reset ∧
          t.dev.owners = s.dev.owners ∧ t.dev.firmware = s.dev.firmware))) ∧
  (∀ (s : State),
    (s.dev.power ≠ .d3 ∨ s.dev.powerTarget ≠ none → exec .coldBoot s = .next s) ∧
    (s.dev.power = .d3 → s.dev.powerTarget = none →
      (3 ≤ s.dev.failedStarts → ∃ t, exec .coldBoot s = .next t ∧ t.dev.power = .d0 ∧ t.dev.minimalMode = true ∧
        t.dev.cycle = 0 ∧ (∀ i x, s.dev.ports[i]? = some x → t.dev.ports[i]? = some (if i = 0 ∧ x = .up then .oneLane else .down))) ∧
      (∀ xs, s.dev.failedStarts < 3 → bootStages 1 s.dev.firmware = (none, xs) →
        ∃ t, exec .coldBoot s = .next t ∧ ((t.dev.powerTarget = some .d0 ∧ t.dev.firmware = xs) ∨
          ∃ i, i < 5 ∧ StartFailed s t (i + 1) (slotsTried xs i) 5)) ∧
      (∀ stage code xs, s.dev.failedStarts < 3 → bootStages 1 s.dev.firmware = (some (stage, code), xs) →
        ∃ t, exec .coldBoot s = .next t ∧ StartFailed s t stage 3 code)) ∧
    (s.dev.power = .d3 → s.dev.powerTarget = some .d0 →
      ∃ t i, i < 5 ∧ exec .bootTimeout s = .next t ∧ StartFailed s t (i + 1) (slotsTried s.dev.firmware i) 6) ∧
    (s.dev.power ≠ .d3 ∨ s.dev.powerTarget ≠ some .d0 → exec .bootTimeout s = .next s))

/-- 14 R364, R368, R369, R377, 11 R324, R325: heartbeats, stalls and unit faults are reported; a silent session is lost after 2 s and its
contexts end 60 s later; a port that failed stays down; links, alerts, throttles and refresh change only what is logged and timed.
The payload words of STALL, DEVFAULT and HEARTBEAT and the numbers of unit kinds are log 34's, and that an event whose condition fails
changes nothing is log 6's: the model's choices. -/
def Obligations.PackageReportsComplete : Prop :=
  (∀ (s : State),
    (s.dev.warmReset = none → s.dev.power ≠ .d3 →
      ∃ t, exec .heartbeat s = .next t ∧ SendsMessage s t 0x84 0 [w64 s.dev.cycle, w64 s.dev.faultCount] ∧ t.cur = s.cur ∧ t.mem = s.mem) ∧
    (s.dev.warmReset ≠ none ∨ s.dev.power = .d3 → exec .heartbeat s = .next s)) ∧
  (∀ (ctx : Nat) (s : State) (c : Ctx) (n : Node), findCtx s ctx = some c →
    (oldestNode ((s.nodes.filter (fun n => n.ctx == ctx && !n.resumed)).filter (·.ready))).orElse
      (fun _ => oldestNode (s.nodes.filter (fun n => n.ctx == ctx && !n.resumed))) = some n →
    ((∀ b ∈ s.bands, b.ctx = ctx → ¬ bandLive b ∧ b.state ≠ .saved) → stalledSince s c n + c.stallInterval ≤ s.dev.cycle →
      ∃ t, exec (.stall ctx) s = .next t ∧ SendsMessage s t 0x81 ctx ([w64 ctx, n.packet.path] ++ rankKey s n) ∧ t.nodes = s.nodes ∧
        ∀ c', findCtx t ctx = some c' → c'.lastProgress = s.dev.cycle) ∧
    ((∃ b ∈ s.bands, b.ctx = ctx ∧ (bandLive b ∨ b.state = .saved)) ∨ s.dev.cycle < stalledSince s c n + c.stallInterval →
      exec (.stall ctx) s = .next s)) ∧
  (∀ (kind : UnitKind) (number : Nat) (s : State),
    (s.dev.warmReset = none → ∃ t, exec (.devfault kind number) s = .next t ∧
      (∃ found, (kind, number, found) ∈ t.dev.failedUnits) ∧
      (kind = .port → ∀ x, t.dev.ports[number]? = some x → x = .down) ∧
      SendsMessage s t 0x83 0 [w64 (kindNumber kind), w64 number, w64 s.dev.cycle] ∧ t.mem = s.mem) ∧
    (s.dev.warmReset ≠ none → ∃ t, exec (.devfault kind number) s = .next t ∧
      (∃ found, (kind, number, found) ∈ t.dev.failedUnits) ∧
      t.dev.failedAt = s.dev.failedAt ++ [(kind, number, s.dev.cycle)] ∧ t.dev.sent = s.dev.sent)) ∧
  (∀ (port : Nat) (up : Bool) (s : State), ∃ x : PortState,
    exec (.linkStateChange port up) s = .next { s with dev := { s.dev with ports := s.dev.ports.set port x } } ∧
    (up = false ∨ (∃ found, (UnitKind.port, port, found) ∈ s.dev.failedUnits) → x = .down) ∧
    (up = true → (∀ found, (UnitKind.port, port, found) ∉ s.dev.failedUnits) →
      x = if s.dev.minimalMode = false then .up else if port = 0 then .oneLane else .down)) ∧
  (∀ (s : State) (x : Session), s.dev.session = some x →
    (x.lost = none → s.dev.warmReset = none → x.lastCommand + 2 * cyclesPerSecond ≤ s.dev.cycle →
      exec .sessionLost s = .next { s with dev := { s.dev with session := some { x with lost := some s.dev.cycle } } }) ∧
    (x.lost ≠ none ∨ s.dev.cycle < x.lastCommand + 2 * cyclesPerSecond → exec .sessionLost s = .next s) ∧
    (∀ at', x.lost = some at' → at' + 60 * cyclesPerSecond ≤ s.dev.cycle →
      ∃ t, exec .orphanContextKill s = .next t ∧ t.dev.session = none ∧ t.ctxs = [] ∧
        ((∀ y ∈ s.mem.changes, y.reply = none) → t.dev.sent = s.dev.sent)) ∧
    (∀ at', x.lost = some at' → s.dev.cycle < at' + 60 * cyclesPerSecond → exec .orphanContextKill s = .next s)) ∧
  (∀ (stack : Nat) (entry : AlertEntry) (s : State), stack < s.dev.alerts.length →
    ∃ t, exec (.activationAlert stack entry) s = .next t ∧ t.mem = s.mem ∧
      t.dev.throttles = s.dev.throttles ++ [⟨stack, entry.channel, entry.sequencer, s.dev.cycle + 65536⟩] ∧
      ((s.dev.alerts.getD stack []).length < 256 →
        t.dev.alerts.getD stack [] = s.dev.alerts.getD stack [] ++ [{ entry with cycle := s.dev.cycle }]) ∧
      (256 ≤ (s.dev.alerts.getD stack []).length → t.dev.alerts = s.dev.alerts ∧
        t.dev.alertsLost = s.dev.alertsLost.modify stack (· + 1))) ∧
  (∀ (index : Nat) (s : State) (x : Throttle), s.dev.throttles[index]? = some x →
    (x.expires ≤ s.dev.cycle → exec (.throttleExpiry index) s =
      .next { s with dev := { s.dev with throttles := s.dev.throttles.eraseIdx index } }) ∧
    (s.dev.cycle < x.expires → exec (.throttleExpiry index) s = .next s)) ∧
  (∀ (channel bank : Nat) (s : State),
    exec (.refreshDue channel bank true) s = .next { s with dev := { s.dev with refresh := s.dev.refresh ++ [(channel, bank)] } } ∧
    exec (.refreshDue channel bank false) s = .next s ∧
    ∃ t, exec (.refreshPostponeLimit channel bank) s = .next t ∧ (channel, bank) ∉ t.dev.refresh ∧ t.mem = s.mem)

/-! ## The whole machine -/

namespace Sys2Proof

open Machine

/-- The words at the pc of the issuing thread: each is fetched there without a trap, and fetching it changes nothing. -/
def WordsAtPc (s : State) (ws : List Word) : Prop :=
  ∀ j, j < ws.length → fetchWord (s.cur.pc + w64 (4 * j)).toNat s = .ok (ws.getD j 0#32, s)

end Sys2Proof

/-- 01 R29: an instruction whose governing predicate is off has no effect but its draws: the pc moves past it, and no register, flag,
byte of memory or any other state changes. -/
def Obligations.PredicatedOffInstructionsOnlyAdvance : Prop :=
  ∀ (i : Instr) (op : BitVec 6) (fn : BitVec 4) (f : Ext) (s : State), i.fields = some (op, fn, f) →
    FormAdmitted op fn f s → ¬ FormEnabled op fn f s →
    ∃ sto, exec i s = .next { begun s with cur := { (begun s).cur with pc := nextPc s.cur f, sto := sto } } ∧
      (f.rm ≠ 5#3 → sto = s.cur.sto)

/-- 11 R316, R317, 07 R208, 01 R47, 13 R362: what every instruction meets before its effect: in a handler, the limit of 4,096
instructions and the forms R316 permits (0x0F); a unit that the core or thread lacks (0x01, check 10); a register outside the
allotment (0x02, with file and number in TINFO); a governing predicate that came back poisoned (0x12).  That they stand in this
order, and also before a predicate that turns the instruction off, is the model's reading (log 9); 0x12's TINFO of 0 is its choice
(log 32). -/
def Obligations.CommonChecksPrecedeEveryEffect : Prop :=
  ∀ (i : Instr) (op : BitVec 6) (fn : BitVec 4) (f : Ext) (s : State), i.fields = some (op, fn, f) →
    (inHandler s.cur = true → 4096 ≤ executedOf s.cur → exec i s = .next (afterTrap 0x0F 4096#64 s)) ∧
    (inHandler s.cur = true → executedOf s.cur < 4096 → handlerPermits op.toNat fn.toNat = false →
      exec i s = .next (afterTrap 0x0F ((baseWord op fn f).setWidth 64) s)) ∧
    ((inHandler s.cur = true → executedOf s.cur < 4096 ∧ handlerPermits op.toNat fn.toNat = true) →
      (unitMissing s.cur op.toNat fn.toNat = true → exec i s = .next (afterTrap 0x01 (illegalInfo 10 (baseWord op fn f)) s)) ∧
      (∀ info, unitMissing s.cur op.toNat fn.toNat = false → (formFor op fn f.len).bind (fun r => outside s r f) = some info →
        exec i s = .next (afterTrap 0x02 info s)) ∧
      (unitMissing s.cur op.toNat fn.toNat = false → (formFor op fn f.len).bind (fun r => outside s r f) = none →
        ¬ Sound (predItems f.pred.toNat) s → exec i s = .next (afterTrap 0x12 0#64 s)))

namespace Sys2Proof

open Machine

/-- A thread that issues once the results that reach it have landed. -/
def IssuesLanded (s : State) : Prop := mayIssue s s.cur = true ∧ mayIssue (landResults s) (landResults s).cur = true

/-- The words at the pc are those of one instruction, as far as its first word's LEN says. -/
def InstructionAtPc (s : State) (ws : List Word) : Prop :=
  WordsAtPc s ws ∧ ws.length = lenWords ((ws.getD 0 0#32).extractLsb' 0 2)

/-- The thread's stores to other devices at the start of a step: those that the remote timeout has passed have failed (05 R142). -/
def storesNow (s : State) : List RemoteStore :=
  s.cur.remoteStores.map (fun r => if timeoutPassed s (ctxOf s.cur) r.issued 4 then { r with failed := true } else r)

/-- What the decoder reads from words. -/
def Decodes (lupin : Bool) (ws : List Word) (r : Except Nat Instr) : Prop :=
  decodeWords lupin (ws.getD 0 0#32) (ws.getD 1 0#32) (ws.getD 2 0#32) (ws.getD 3 0#32) (ws.getD 4 0#32) = r

end Sys2Proof

/-- 01 R32, 02 R51, R72: a step of a thread that may issue runs the instruction that the words at its pc decode to, and CYCLE advances;
words whose first fails check 1, 2 or 3, and words that fail a later check, run the illegal-encoding trap; a turn of an event runs
that event; a turn of a thread runs the instruction at that thread's pc; a turn that shows a write to some agents changes no byte
(notes/assumptions/7.md).  Before its instruction the issuing thread finds in its registers those results in flight that have arrived,
any of them (01 R23, 05 R154; notes/assumptions/14.md), and as failed those stores to other devices that their timeout has passed, and
no other register differs; the instruction follows the writes that the replies it reads brought (07 R232; notes/assumptions/7.md). -/
def Obligations.StepRunsTheDecodedInstruction : Prop :=
  (∀ (s : State) (ws : List Word) (i : Instr), s.turns = [] → s.late = [] → IssuesLanded s → InstructionAtPc (landResults s) ws →
    Decodes (landResults s).cur.pos.lupin ws (.ok i) → step s = ticked (exec i (hearReplies i (landResults s)))) ∧
  (∀ (s : State) (w : Word) (n : Nat), s.turns = [] → s.late = [] → IssuesLanded s →
    WordsAtPc (landResults s) [w] → decodeHead w = .error n →
    step s = ticked (exec (.illegalEncoding n w) (landResults s))) ∧
  (∀ (s : State) (ws : List Word) (n : Nat), s.turns = [] → s.late = [] → IssuesLanded s → InstructionAtPc (landResults s) ws →
    Decodes (landResults s).cur.pos.lupin ws (.error n) →
    step s = ticked (exec (.illegalEncoding n (ws.getD 0 0#32)) (landResults s))) ∧
  (∀ (s : State) (e : Instr) (late : List Nat) (rest : List Turn), s.turns = .event e late :: rest →
    step s = ticked (exec e { s with turns := rest, late := late })) ∧
  (∀ (s t : State) (p : Pos) (late : List Nat) (rest : List Turn) (ws : List Word) (i : Instr), s.turns = .issue p late :: rest →
    selectThread p { s with turns := rest, late := late } = some t → IssuesLanded t → InstructionAtPc (landResults t) ws →
    Decodes (landResults t).cur.pos.lupin ws (.ok i) → step s = ticked (exec i (hearReplies i (landResults t)))) ∧
  (∀ (s : State), s.turns = [] → mayIssue { s with late := [] } s.cur = false → step s = .next (tickCycle { s with late := [] })) ∧
  (∀ (s : State), s.cur.inFlight = [] → landResults s = { s with cur := { s.cur with remoteStores := storesNow s } }) ∧
  (∀ (s : State), (∀ r ∈ s.cur.inFlight, r.away = none) →
    ∃ arrives : List Bool, arrives.length = s.cur.inFlight.length ∧
      landResults s = { s with
        free := s.free + arrives.length
        cur := { ((s.cur.inFlight.zip arrives).filter (·.2)).foldl (fun t r => fillResult r.1.reg r.1.data t) s.cur with
          remoteStores := storesNow s
          inFlight := ((s.cur.inFlight.zip arrives).filter (fun r => !r.2)).map (·.1) } }) ∧
  (∀ (s : State) (id : Nat) (viewer : Viewer) (rest : List Turn), s.turns = .shows id viewer :: rest →
    ∃ t, step s = .next (tickCycle t) ∧ t.cur = s.cur ∧ t.turns = rest ∧ SameBytes t.mem s.mem ∧
      ∀ w ∈ t.mem.unseen, w.id = id → viewer ∈ w.shown) ∧
  (∀ (i : Instr) (s : State), (∀ n, (gRead s.cur n).reply = []) → hearReplies i s = s)

/-- 02 R52, R53, 15 to 19: words that the spec's programs give in hexadecimal decode to the instructions they stand for. -/
def Obligations.AssembledWordsDecode : Prop :=
  decodeTableWord 32 0x0000843C = some (.mfs ⟨false, false, 0#6, 2#6, 4#6⟩) ∧
  decodeTableWord 32 0x9251C808 = some (.shlI6 ⟨false, false, 37#6, 7#6, 8#6⟩) ∧
  decodeTableWord 32 0x04055810 = some (.mov ⟨false, true, 0#6, 21#6, 24#6⟩) ∧
  decodeTableWord 32 0x00B18514 = some (.cmpEq ⟨false, false, 11#6, 6#6, 5#6⟩) ∧
  decodeTableWord 32 0x00804F20 = some (.cadd ⟨false, false, 8#6, 1#6, 15#6⟩) ∧
  decodeTableWord 32 0x41404244 = some (.stc ⟨false, false, 20#6, 1#6, 2#6⟩) ∧
  decodeTableWord 32 0x10034060 = some (.barr ⟨false, false, 0#6, 13#6, 0#6⟩) ∧
  decodeTableWord 32 0x400000C8 = some (.rfence ⟨false, false, 0#6, 0#6, 0#6⟩)

/-- 02 R51 to R54, R72: on either kind of core, the decoder reads back every well-formed instruction from its bytes, and leaves the bytes
after it. -/
def Obligations.DecodeInvertsEncode : Prop :=
  ∀ (lupin : Bool) (i : Instr) (rest : List Byte), i.fields ≠ none → i.wf lupin = true →
    decode lupin (encodeBytes i ++ rest) = .ok (i, rest)

/-- The model's own convention (notes/assumptions/4.md): memory is a list in one canonical form, and every step keeps it: each address at
most once and in rising order, no byte listed that reads as zero, and the sets of tagged, poisoned and full units strictly rising. -/
def Obligations.StepsKeepMemoryCanonical : Prop :=
  ∀ (s t : State), MemoryCanonical s → step s = .next t → MemoryCanonical t

/-- 14 R372 to R374, R365, 01 R43, and the model's choices of notes/assumptions/3.md: at reset no thread holds a firing, no context, band, node
or core is in use, no session is open, memory lists nothing and is canonical. -/
def Obligations.ResetIsEmpty : Prop :=
  MemoryCanonical State.reset ∧ State.reset.mem.cells = [] ∧ State.reset.mem.tags = [] ∧ State.reset.cur.duty = .idle ∧
  State.reset.threads = [] ∧ State.reset.ctxs = [] ∧ State.reset.bands = [] ∧ State.reset.nodes = [] ∧ State.reset.cores = [] ∧
  State.reset.dev.session = none ∧ State.reset.dev.minimalMode = false ∧ State.reset.dev.failedStarts = 0
end

