-- ==== Sys2Proof/Laws/Act.lean ====
section
/-!
SUPPORT. Laws/Act.lean: how computations on the machine evaluate, and one lemma per shared operation on registers.
-/

namespace Sys2Proof.Machine

/-! ## The computation steps -/

theorem act_bind {α β : Type} (x : Act α) (f : α → Act β) (s : State) :
    (x >>= f) s = match x s with | .ok r => f r.1 r.2 | .error e => .error e := by
  show StateT.bind x f s = _
  unfold StateT.bind
  cases h : x s <;> rfl

theorem act_bind_ok {α β : Type} {x : Act α} {f : α → Act β} {s : State} {a : α} {t : State} (h : x s = .ok (a, t)) :
    (x >>= f) s = f a t := by simp [act_bind, h]

theorem act_bind_error {α β : Type} {x : Act α} {f : α → Act β} {s : State} {e : Exc} (h : x s = .error e) :
    (x >>= f) s = .error e := by simp [act_bind, h]

@[simp] theorem act_pure {α : Type} (a : α) (s : State) : (pure a : Act α) s = .ok (a, s) := rfl

@[simp] theorem act_get (s : State) : (get : Act State) s = .ok (s, s) := rfl

@[simp] theorem act_set (t s : State) : (set t : Act PUnit) s = .ok (⟨⟩, t) := rfl

@[simp] theorem act_modify (f : State → State) (s : State) : (modify f : Act PUnit) s = .ok (⟨⟩, f s) := rfl

@[simp] theorem act_throw {α : Type} (e : Exc) (s : State) : (throw e : Act α) s = .error e := rfl

@[simp] theorem act_trap {α : Type} (c : Nat) (i : DWord) (s : State) : (trap c i : Act α) s = .error (.trap c i) := rfl

@[simp] theorem act_reportTrap {α : Type} (c : Nat) (i : DWord) (f : State → State) (s : State) :
    (reportTrap c i f : Act α) s = .error (.report c i f) := rfl

theorem act_ite {α : Type} (b : Prop) [Decidable b] (x y : Act α) (s : State) :
    (if b then x else y) s = if b then x s else y s := by split <;> rfl

@[simp] theorem act_modCur (f : Thread → Thread) (s : State) : modCur f s = .ok (⟨⟩, { s with cur := f s.cur }) := rfl

@[simp] theorem act_modMem (f : Memory → Memory) (s : State) : modMem f s = .ok (⟨⟩, { s with mem := f s.mem }) := rfl

@[simp] theorem act_modDev (f : Device → Device) (s : State) : modDev f s = .ok (⟨⟩, { s with dev := f s.dev }) := rfl

@[simp] theorem act_modNet (f : Net → Net) (s : State) : modNet f s = .ok (⟨⟩, { s with net := f s.net }) := rfl

@[simp] theorem act_trapIf (b : Bool) (c : Nat) (i : DWord) (s : State) :
    trapIf b c i s = if b then .error (.trap c i) else .ok (⟨⟩, s) := by cases b <;> rfl

@[simp] theorem act_waitIf (b : Bool) (s : State) : waitIf b s = if b then .error .wait else .ok (⟨⟩, s) := by
  cases b <;> rfl

@[simp] theorem act_freshValue (w : Nat) (s : State) :
    freshValue w s = .ok (Config.freeValue s.free w, { s with free := s.free + 1 }) := rfl

@[simp] theorem act_freshId (s : State) : freshId s = .ok (s.nextId, { s with nextId := s.nextId + 1 }) := rfl

/-! ## Registers -/

theorem readG_readable {s : State} {n : BitVec 6} {tb : Bool} (h : Readable s n tb) : readG n tb s = .ok (regCap s n, s) := by
  obtain ⟨hs, hm⟩ := h
  unfold regOf at hs hm
  unfold readG
  simp only [act_bind, act_get, hs, regCap, regOf]
  rcases hm with hm | rfl
  · simp only [hm, act_pure]
  · cases (gRead s.cur n).mark <;> simp

theorem readData_readable {s : State} {n : BitVec 6} {tb : Bool} (h : Readable s n tb) :
    readData n tb s = .ok (regData s n, s) := by
  unfold readData
  rw [act_bind_ok (readG_readable h)]
  rfl

theorem readB_readable {s : State} {f : Ext} (h : BReadable s f) : readB f s = .ok (bData s f, s) := by
  unfold readB bData
  rw [act_ite]
  split
  · rfl
  · exact readData_readable (h.resolve_left ‹_›)

theorem readBCap_readable {s : State} {f : Ext} (h : BReadable s f) : readBCap f s = .ok (bCap s f, s) := by
  unfold readBCap bCap
  rw [act_ite]
  split
  · rfl
  · exact readG_readable (h.resolve_left ‹_›)

theorem writeG_writable {s : State} {n : BitVec 6} (x : TCap) (h : Writable s n) : writeG n x s = .ok (⟨⟩, setReg n x s) := by
  unfold writeG setReg
  rcases h with rfl | h
  · simp
  · by_cases hn : n = 0#6
    · subst hn; simp
    · have hp : ((gAt s.cur n).st == RegState.pending) = false := by simpa using h
      simp [hn, hp, act_bind, setG]

theorem writeData_writable {s : State} {n : BitVec 6} (x : DWord) (h : Writable s n) :
    writeData n x s = .ok (⟨⟩, setData n x s) := writeG_writable _ h

@[simp] theorem act_readGood (items : List Nat) (s : State) :
    readGood items s = if holdsBad items s.cur then .error (.trap 0x12 0#64) else .ok (⟨⟩, s) := by
  unfold readGood
  simp [act_bind]

theorem readGood_sound {items : List Nat} {s : State} (h : Sound items s) : readGood items s = .ok (⟨⟩, s) := by
  unfold Sound at h
  simp [h]

theorem readP_sound {n : BitVec 6} {s : State} (h : Sound (predItems n.toNat) s) : readP n s = .ok (predOf s n, s) := by
  unfold readP
  rw [act_bind_ok (readGood_sound h)]
  rfl

/-- Before an instruction acts, nothing has become good or bad. -/
@[simp] theorem sound_begun (items : List Nat) (s : State) : Sound items (begun s) ↔ Sound items s := by
  unfold Sound holdsBad begun beginInstr countExecuted
  cases s.cur.duty <;> rfl

@[simp] theorem act_writeP (n : BitVec 6) (x : Word) (s : State) : writeP n x s = .ok (⟨⟩, setPred n x s) := by
  unfold writeP setPred
  rw [act_ite]
  split <;> rfl

/-! ## The common steps -/

@[simp] theorem act_advance (f : Ext) (s : State) : advance f s = .ok (⟨⟩, past f s) := rfl

theorem handlerGate_admitted {op : BitVec 6} {fn : BitVec 4} {f : Ext} {s : State} {w : Word} (h : FormAdmitted op fn f s) :
    handlerGate op.toNat fn.toNat w s = .ok (⟨⟩, s) := by
  unfold handlerGate
  simp only [act_bind, act_get]
  cases hh : inHandler s.cur
  · simp
  · obtain ⟨h1, h2⟩ := h.1 hh
    have : decide (4096 ≤ executedOf s.cur) = false := by simp; omega
    simp [act_bind, this, h2]

/-- A form that passes the common checks and its predicate runs its body, and the pc moves on unless the form jumps. -/
theorem instrWith_runs {jumps : Bool} {op : BitVec 6} {fn : BitVec 4} {f : Ext} {body : Act Unit} {s t : State}
    (ha : FormAdmitted op fn f s) (he : FormEnabled op fn f s) (hb : body (begun s) = .ok (⟨⟩, t)) :
    instrWith jumps op fn f body s = .next (if jumps then t else past f t) := by
  unfold instrWith run
  have h3 := ha.2.2.1
  have h4 : holdsBad (predItems f.pred.toNat) (begun s).cur = false := (sound_begun _ s).2 ha.2.2.2.1
  unfold FormEnabled at he
  simp only [act_bind, handlerGate_admitted ha, act_get, ha.2.1, act_trapIf, h3, act_pure, act_modCur, act_ite, he,
    act_readGood, if_true, Bool.false_eq_true, if_false]
  erw [h4]
  simp only [Bool.false_eq_true, if_false]
  erw [hb]
  cases jumps <;> simp

theorem instr_runs {op : BitVec 6} {fn : BitVec 4} {f : Ext} {body : Act Unit} {s t : State}
    (ha : FormAdmitted op fn f s) (he : FormEnabled op fn f s) (hb : body (begun s) = .ok (⟨⟩, t)) :
    instr op fn f body s = .next (past f t) := instrWith_runs ha he hb

theorem jumpInstr_runs {op : BitVec 6} {fn : BitVec 4} {f : Ext} {body : Act Unit} {s t : State}
    (ha : FormAdmitted op fn f s) (he : FormEnabled op fn f s) (hb : body (begun s) = .ok (⟨⟩, t)) :
    jumpInstr op fn f body s = .next t := instrWith_runs ha he hb

/-- How a body's early end shows in the instruction's outcome. -/
theorem instrWith_ends {jumps : Bool} {op : BitVec 6} {fn : BitVec 4} {f : Ext} {body : Act Unit} {s : State} {e : Exc}
    (ha : FormAdmitted op fn f s) (he : FormEnabled op fn f s) (hb : body (begun s) = .error e) :
    instrWith jumps op fn f body s = run (throw e) s := by
  unfold instrWith run
  have h3 := ha.2.2.1
  have h4 : holdsBad (predItems f.pred.toNat) (begun s).cur = false := (sound_begun _ s).2 ha.2.2.2.1
  unfold FormEnabled at he
  simp only [act_bind, handlerGate_admitted ha, act_get, ha.2.1, act_trapIf, h3, act_pure, act_modCur, act_ite, he,
    act_readGood, if_true, Bool.false_eq_true, if_false]
  erw [h4]
  simp only [Bool.false_eq_true, if_false]
  erw [hb]
  simp

end Sys2Proof.Machine
end

