-- ==== Sys2Proof/Laws/Memory.lean ====
section
/-!
SUPPORT. Laws/Memory.lean: reading after writing, and that every memory operation keeps the canonical form.
-/

namespace Sys2Proof.Machine

/-! ## Bytes -/

/-- A byte written reads back. -/
@[simp] theorem cellGet_cellPut_same (cs : List Host.Cell) (k : Nat) (x : Byte) (h : cellsWf cs = true) :
    cellGet (cellPut cs k x) k = x := by
  induction cs with
  | nil => unfold cellPut; split <;> simp_all [cellGet]
  | cons c rest ih =>
    obtain ⟨a, b⟩ := c
    have hrest : cellsWf rest = true := by
      cases rest with
      | nil => rfl
      | cons d r => simp only [cellsWf, Bool.and_eq_true] at h; exact h.2
    have above : ∀ (r : List Host.Cell) (n : Nat), cellsWf ((n, b) :: r) = true → ∀ m, m ≤ n → cellGet r m = unlisted := by
      intro r
      induction r with
      | nil => intros; rfl
      | cons d r ihr =>
        obtain ⟨e, y⟩ := d
        intro n hn m hm
        simp only [cellsWf, Bool.and_eq_true, decide_eq_true_eq] at hn
        have hne : e ≠ m := by omega
        have : cellsWf ((e, b) :: r) = true := by
          cases r with
          | nil => simp only [cellsWf]; exact hn.1.2
          | cons q r' =>
            obtain ⟨q1, q2⟩ := q
            simp only [cellsWf, Bool.and_eq_true, decide_eq_true_eq] at hn ⊢
            exact ⟨⟨hn.2.1.1, hn.1.2⟩, hn.2.2⟩
        simp only [cellGet, hne, if_false]
        exact ihr e this m (by omega)
    unfold cellPut
    split
    · rename_i hlt
      have : a ≠ k := by omega
      simp [cellGet, this, ih hrest]
    · split
      · rename_i hle heq
        subst heq
        split
        · rename_i hx; rw [hx]; exact above rest a h a (Nat.le_refl a)
        · simp [cellGet]
      · rename_i hle hne
        split
        · rename_i hx
          rw [hx]
          simp only [cellGet, hne, if_false]
          exact above rest a h k (by omega)
        · simp [cellGet]

/-- The other bytes read as before. -/
@[simp] theorem cellGet_cellPut_ne (cs : List Host.Cell) (k j : Nat) (x : Byte) (h : j ≠ k) :
    cellGet (cellPut cs k x) j = cellGet cs j := by
  induction cs with
  | nil => unfold cellPut; split <;> simp [cellGet, Ne.symm h]
  | cons c rest ih =>
    obtain ⟨a, b⟩ := c
    unfold cellPut
    split
    · simp [cellGet, ih]
    · split
      · rename_i heq; subst heq
        split <;> simp [cellGet, Ne.symm h]
      · split <;> simp [cellGet, Ne.symm h]

/-- Keys strictly above a bound. -/
theorem cellsWf_cons {a : Nat} {b : Byte} {cs : List Host.Cell} :
    cellsWf ((a, b) :: cs) = true ↔ b ≠ unlisted ∧ cellsWf cs = true ∧ (∀ c, cs.head? = some c → a < c.1) := by
  cases cs with
  | nil => simp [cellsWf]
  | cons d r =>
    obtain ⟨e, y⟩ := d
    simp only [cellsWf, Bool.and_eq_true, decide_eq_true_eq, bne_iff_ne, List.head?_cons, Option.some.injEq]
    constructor
    · rintro ⟨⟨h1, h2⟩, h3⟩
      exact ⟨h2, h3, fun c hc => hc ▸ h1⟩
    · rintro ⟨h1, h2, h3⟩
      exact ⟨⟨h3 _ rfl, h1⟩, h2⟩

theorem cellPut_head {cs : List Host.Cell} {k : Nat} {x : Byte} {n : Nat} (hk : n < k)
    (h : ∀ c, cs.head? = some c → n < c.1) (hw : cellsWf cs = true) : ∀ c, (cellPut cs k x).head? = some c → n < c.1 := by
  cases cs with
  | nil =>
    unfold cellPut
    split
    · intro c hc; cases hc
    · intro c hc; cases hc; exact hk
  | cons d r =>
    obtain ⟨a, b⟩ := d
    have ha : n < a := h _ rfl
    unfold cellPut
    split
    · intro c hc; cases hc; exact ha
    · split
      · split
        · intro c hc
          have := (cellsWf_cons.1 hw).2.2 c hc
          omega
        · intro c hc; cases hc; exact hk
      · split
        · intro c hc; cases hc; exact ha
        · intro c hc; cases hc; exact hk

/-- Writing a byte keeps the canonical form. -/
theorem cellPut_wf {cs : List Host.Cell} (k : Nat) (x : Byte) (h : cellsWf cs = true) : cellsWf (cellPut cs k x) = true := by
  induction cs with
  | nil => unfold cellPut; split <;> simp_all [cellsWf]
  | cons d r ih =>
    obtain ⟨a, b⟩ := d
    obtain ⟨h1, h2, h3⟩ := cellsWf_cons.1 h
    unfold cellPut
    split
    · rename_i hlt
      exact cellsWf_cons.2 ⟨h1, ih h2, cellPut_head hlt h3 h2⟩
    · split
      · rename_i heq
        split
        · exact h2
        · rename_i hx
          exact cellsWf_cons.2 ⟨hx, h2, fun c hc => heq ▸ h3 c hc⟩
      · split
        · exact h
        · rename_i hx
          refine cellsWf_cons.2 ⟨hx, h, fun c hc => ?_⟩
          cases hc
          show k < a
          omega

theorem cellsPut_wf {cs : List Host.Cell} (k : Nat) (bs : List Byte) (h : cellsWf cs = true) :
    cellsWf (cellsPut cs k bs) = true := by
  induction bs generalizing cs k with
  | nil => exact h
  | cons b rest ih => exact ih (k + 1) (cellPut_wf k b h)

/-- Bytes outside a written range read as before. -/
theorem cellGet_cellsPut_outside (cs : List Host.Cell) (k j : Nat) (bs : List Byte) (h : j < k ∨ k + bs.length ≤ j) :
    cellGet (cellsPut cs k bs) j = cellGet cs j := by
  induction bs generalizing cs k with
  | nil => rfl
  | cons b rest ih =>
    have hl : (b :: rest).length = rest.length + 1 := rfl
    show cellGet (cellsPut (cellPut cs k b) (k + 1) rest) j = _
    rw [ih _ _ (by omega), cellGet_cellPut_ne _ _ _ _ (by omega)]

/-- The bytes of a written range read back. -/
theorem cellGet_cellsPut_inside (cs : List Host.Cell) (k j : Nat) (bs : List Byte) (hw : cellsWf cs = true)
    (h : j < bs.length) : cellGet (cellsPut cs k bs) (k + j) = bs.getD j 0#8 := by
  induction bs generalizing cs k j with
  | nil => simp at h
  | cons b rest ih =>
    show cellGet (cellsPut (cellPut cs k b) (k + 1) rest) (k + j) = _
    cases j with
    | zero =>
      rw [cellGet_cellsPut_outside _ _ _ _ (by omega)]
      simpa using cellGet_cellPut_same cs k b hw
    | succ i =>
      have : k + (i + 1) = (k + 1) + i := by omega
      rw [this, ih _ _ _ (cellPut_wf k b hw) (by simpa using h)]
      simp

/-! ## Rising lists -/

theorem setWf_cons {a : Nat} {xs : List Nat} : setWf (a :: xs) = true ↔ setWf xs = true ∧ ∀ b, xs.head? = some b → a < b := by
  cases xs with
  | nil => simp [setWf]
  | cons b r => simp [setWf, and_comm]

theorem setAdd_head {xs : List Nat} {k n : Nat} (hk : n < k) (h : ∀ b, xs.head? = some b → n < b) :
    ∀ b, (setAdd xs k).head? = some b → n < b := by
  cases xs with
  | nil => intro b hb; cases hb; exact hk
  | cons a r =>
    have ha := h a rfl
    unfold setAdd
    split
    · intro b hb; cases hb; exact ha
    · split
      · intro b hb; cases hb; exact ha
      · intro b hb; cases hb; exact hk

theorem setAdd_wf {xs : List Nat} (k : Nat) (h : setWf xs = true) : setWf (setAdd xs k) = true := by
  induction xs with
  | nil => rfl
  | cons a r ih =>
    obtain ⟨h1, h2⟩ := setWf_cons.1 h
    unfold setAdd
    split
    · rename_i hlt
      exact setWf_cons.2 ⟨ih h1, setAdd_head hlt h2⟩
    · split
      · exact h
      · refine setWf_cons.2 ⟨h, fun b hb => ?_⟩
        cases hb
        omega

theorem setWf_above {a : Nat} {xs : List Nat} (h : setWf (a :: xs) = true) : ∀ b ∈ xs, a < b := by
  induction xs generalizing a with
  | nil => intro b hb; cases hb
  | cons c r ih =>
    obtain ⟨h1, h2⟩ := setWf_cons.1 h
    have hc := h2 c rfl
    intro b hb
    cases hb with
    | head => exact hc
    | tail _ hb => exact Nat.lt_trans hc (ih h1 b hb)

theorem setWf_of_above {a : Nat} {xs : List Nat} (h : setWf xs = true) (ha : ∀ b ∈ xs, a < b) : setWf (a :: xs) = true := by
  refine setWf_cons.2 ⟨h, fun b hb => ha b ?_⟩
  cases xs with
  | nil => cases hb
  | cons c r => cases hb; exact List.mem_cons_self ..

theorem setFilter_wf (p : Nat → Bool) {xs : List Nat} (h : setWf xs = true) : setWf (xs.filter p) = true := by
  induction xs with
  | nil => rfl
  | cons a r ih =>
    obtain ⟨h1, _⟩ := setWf_cons.1 h
    rw [List.filter_cons]
    split
    · exact setWf_of_above (ih h1) (fun b hb => setWf_above h b (List.mem_of_mem_filter hb))
    · exact ih h1

theorem setDrop_wf {xs : List Nat} (k : Nat) (h : setWf xs = true) : setWf (setDrop xs k) = true := setFilter_wf _ h

theorem foldl_setDrop_wf (ks : List Nat) {xs : List Nat} (h : setWf xs = true) : setWf (ks.foldl setDrop xs) = true := by
  induction ks generalizing xs with
  | nil => exact h
  | cons k r ih => exact ih (setDrop_wf k h)

theorem mem_setDrop {xs : List Nat} {k g : Nat} : g ∈ setDrop xs k ↔ g ∈ xs ∧ g ≠ k := by
  simp [setDrop, List.mem_filter]

theorem mem_foldl_setDrop {ks xs : List Nat} {g : Nat} : g ∈ ks.foldl setDrop xs ↔ g ∈ xs ∧ g ∉ ks := by
  induction ks generalizing xs with
  | nil => simp
  | cons k r ih => simp only [List.foldl_cons, ih, mem_setDrop, List.mem_cons, not_or]; tauto

theorem mem_setAdd {xs : List Nat} {k g : Nat} : g ∈ setAdd xs k ↔ g = k ∨ g ∈ xs := by
  induction xs with
  | nil => simp [setAdd]
  | cons a r ih =>
    unfold setAdd
    split
    · simp only [List.mem_cons, ih]; tauto
    · split
      · rename_i heq; subst heq; simp
      · simp

/-! ## Memory operations keep the canonical form -/

theorem Memory.wf_iff (m : Memory) :
    m.wf = true ↔ cellsWf m.cells = true ∧ setWf m.tags = true ∧ setWf m.poison = true ∧ setWf m.full = true := by
  simp [Memory.wf, and_assoc]

/-- The canonical form reads four fields only. -/
theorem Memory.wf_congr {m n : Memory} (h1 : m.cells = n.cells) (h2 : m.tags = n.tags) (h3 : m.poison = n.poison)
    (h4 : m.full = n.full) (h : n.wf = true) : m.wf = true := by
  rw [Memory.wf_iff] at *; rw [h1, h2, h3, h4]; exact h

/-- Two memories agree on bytes, tags, poison and full/empty bits. -/
structure Memory.SameData (m n : Memory) : Prop where
  cells : m.cells = n.cells
  tags : m.tags = n.tags
  poison : m.poison = n.poison
  full : m.full = n.full

theorem Memory.SameData.refl (m : Memory) : Memory.SameData m m := ⟨rfl, rfl, rfl, rfl⟩

theorem Memory.SameData.trans {l m n : Memory} (h : Memory.SameData l m) (k : Memory.SameData m n) : Memory.SameData l n :=
  ⟨h.cells.trans k.cells, h.tags.trans k.tags, h.poison.trans k.poison, h.full.trans k.full⟩

theorem Memory.SameData.wf {m n : Memory} (h : Memory.SameData m n) (k : n.wf = true) : m.wf = true :=
  Memory.wf_congr h.cells h.tags h.poison h.full k

theorem touchLine_same (m : Memory) (die l : Nat) : Memory.SameData (m.touchLine die l) m := by
  unfold Memory.touchLine; split <;> exact ⟨rfl, rfl, rfl, rfl⟩

theorem cleanLine_same (m : Memory) (l : Nat) : Memory.SameData (m.cleanLine l) m := ⟨rfl, rfl, rfl, rfl⟩

theorem setZero_same (m : Memory) (l : Nat) (z : Bool → Bool) : Memory.SameData (m.setZero l z) m := ⟨rfl, rfl, rfl, rfl⟩

theorem foldl_same {α : Type} (f : Memory → α → Memory) (hf : ∀ m x, Memory.SameData (f m x) m) (xs : List α) (m : Memory) :
    Memory.SameData (xs.foldl f m) m := by
  induction xs generalizing m with
  | nil => exact .refl m
  | cons x r ih => exact (ih (f m x)).trans (hf m x)

theorem applyWhere_same (m : Memory) (v : Option Viewer) (p : DieWrite → Bool) : Memory.SameData (m.applyWhere v p) m :=
  ⟨rfl, rfl, rfl, rfl⟩

theorem tick_same (m : Memory) (e : Eye) : Memory.SameData (m.tick e).1 m := ⟨rfl, rfl, rfl, rfl⟩

theorem offer_same (m : Memory) (w : DieWrite) (late : Bool) : Memory.SameData (m.offer w late) m := by
  unfold Memory.offer; split <;> exact ⟨rfl, rfl, rfl, rfl⟩

theorem publish_same (m : Memory) (e : Eye) (late : List Nat) (id : Nat) (r : Option Nat) (c : List Nat)
    (before : List Host.Cell) (tags : List (Nat × Bool)) : Memory.SameData (m.publish e late id r c before tags) m :=
  foldl_same _ (fun m _ => offer_same m _ _) _ _

theorem storeClock_same (m : Memory) (e : Eye) (k n : Nat) (r : Option Nat) : Memory.SameData (m.storeClock e k n r) m :=
  ⟨rfl, rfl, rfl, rfl⟩

theorem markZero_same (m : Memory) (l : Nat) : Memory.SameData (m.markZero l) m := ⟨rfl, rfl, rfl, rfl⟩

/-- What a write of lines does before its bytes land: the cache alone changes. -/
theorem lines_same (m : Memory) (die k : Nat) (bs : List Byte) :
    Memory.SameData (if keyIsStore k then m
      else if 4 ≤ die then (linesOf k bs.length).foldl Memory.cleanLine m
      else (linesOf k bs.length).foldl (fun m l => (m.touchLine die l).setZero l (zeroAfter (lineBytes k l bs))) m) m := by
  split
  · exact .refl m
  · split
    · exact foldl_same _ cleanLine_same _ m
    · exact foldl_same _ (fun m l => (setZero_same ..).trans (touchLine_same ..)) _ m

/-- What `put` does to bytes, tags and poison; it leaves the full/empty bits. -/
theorem put_data (m : Memory) (die k : Nat) (bs : List Byte) :
    (m.put die k bs).cells = cellsPut m.cells k bs ∧
    (m.put die k bs).tags = (granules k bs.length).foldl setDrop m.tags ∧
    (m.put die k bs).poison = (wholeGranules k bs.length).foldl setDrop m.poison ∧ (m.put die k bs).full = m.full := by
  have h := lines_same m die k bs
  unfold Memory.put
  exact ⟨by dsimp only; rw [h.cells], by dsimp only; rw [h.tags], by dsimp only; rw [h.poison], h.full⟩

theorem put_wf {m : Memory} (die k : Nat) (bs : List Byte) (h : m.wf = true) : (m.put die k bs).wf = true := by
  obtain ⟨h1, h2, h3, h4⟩ := put_data m die k bs
  rw [Memory.wf_iff] at *
  rw [h1, h2, h3, h4]
  exact ⟨cellsPut_wf k bs h.1, foldl_setDrop_wf _ h.2.1, foldl_setDrop_wf _ h.2.2.1, h.2.2.2⟩

theorem setPoison_wf {m : Memory} (g : Nat) (h : m.wf = true) : (m.setPoison g).wf = true := by
  unfold Memory.setPoison
  split
  · exact Memory.wf_congr (n := m) rfl rfl rfl rfl h
  · rw [Memory.wf_iff] at *; exact ⟨h.1, h.2.1, setAdd_wf _ h.2.2.1, h.2.2.2⟩

theorem setFull_wf {m : Memory} (k : Nat) (f : Bool) (h : m.wf = true) : (m.setFull k f).wf = true := by
  rw [Memory.wf_iff] at *
  refine ⟨h.1, h.2.1, h.2.2.1, ?_⟩
  unfold Memory.setFull
  cases f
  · exact setDrop_wf _ h.2.2.2
  · exact setAdd_wf _ h.2.2.2

theorem foldl_setAdd_wf (gs : List Nat) {xs : List Nat} (h : setWf xs = true) : setWf (gs.foldl setAdd xs) = true := by
  induction gs generalizing xs with
  | nil => exact h
  | cons g r ih => exact ih (setAdd_wf g h)

theorem storeView_wf {m : Memory} (v : ViewLine) (h : m.wf = true) : (m.storeView v).wf = true := by
  have key : ∀ (ws : List DieWrite) (k : Nat) (bs : List Byte) (gs : List Nat),
      ({ ({ m with unseen := ws } : Memory).put v.die k bs with
          poison := gs.foldl setAdd (({ m with unseen := ws } : Memory).put v.die k bs).poison } : Memory).wf = true := by
    intro ws k bs gs
    obtain ⟨h1, h2, h3, h4⟩ := (Memory.wf_iff _).1
      (put_wf v.die k bs (Memory.wf_congr (n := m) (m := { m with unseen := ws }) rfl rfl rfl rfl h))
    exact (Memory.wf_iff _).2 ⟨h1, h2, foldl_setAdd_wf _ h3, h4⟩
  unfold Memory.storeView
  split
  · split
    · exact key _ _ _ _
    · exact h
  · exact h

theorem viewWriteback_wf {m : Memory} (v : ViewLine) (keep : Bool) (h : m.wf = true) : (m.viewWriteback v keep).wf = true :=
  Memory.wf_congr (n := (m.applyWhere none _).storeView v) rfl rfl rfl rfl (storeView_wf v ((applyWhere_same m none _).wf h))

theorem recallViews_wf {m : Memory} (k n : Nat) (w : Bool) (h : m.wf = true) : (m.recallViews k n w).wf = true := by
  unfold Memory.recallViews
  generalize m.views.filter _ = vs
  induction vs generalizing m with
  | nil => exact h
  | cons v r ih => exact ih (viewWriteback_wf v false h)

theorem foldl_wf {α : Type} (f : Memory → α → Memory) (hf : ∀ m x, m.wf = true → (f m x).wf = true) (xs : List α) {m : Memory}
    (h : m.wf = true) : (xs.foldl f m).wf = true := by
  induction xs generalizing m with
  | nil => exact h
  | cons x r ih => exact ih (hf m x h)

theorem openView_same (m : Memory) (die l : Nat) : Memory.SameData (m.openView die l) m := by
  unfold Memory.openView
  split
  · rename_i w _ _
    have h := applyWhere_same m none (fun x => x.within (w.storedKey l) (128 / w.factor) || x.within (w.scaleKey l) 16)
    exact ⟨h.cells, h.tags, h.poison, h.full⟩
  · exact .refl m

theorem putView_same (m : Memory) (die k : Nat) (bs : List Byte) : Memory.SameData (m.putView die k bs) m := ⟨rfl, rfl, rfl, rfl⟩

theorem closeViews_wf {m : Memory} (k n : Nat) (h : m.wf = true) : (m.closeViews k n).wf = true :=
  foldl_wf _ (fun _ v h => viewWriteback_wf v false h) _ h

theorem putBytes_wf {m : Memory} (die k : Nat) (bs : List Byte) (tag : Bool) (h : m.wf = true) :
    (m.putBytes die k bs tag).wf = true := by
  unfold Memory.putBytes
  split
  · have h2 := (foldl_same _ (fun m l => putView_same m die (linePart k bs.length l).1 (lineBytes k l bs))
      (linesOf k bs.length) m).wf h
    dsimp only
    split
    · exact closeViews_wf _ _ h2
    · exact h2
  · dsimp only
    split
    · obtain ⟨h1, h2, h3, h4⟩ := (Memory.wf_iff _).1 (put_wf die k bs h)
      exact (Memory.wf_iff _).2 ⟨h1, setAdd_wf _ h2, h3, h4⟩
    · exact put_wf die k bs h

/-- A write keeps the canonical form. -/
theorem write_wf {m : Memory} (e : Eye) (late : List Nat) (id : Nat) (r : Option Nat) (k : Nat) (bs : List Byte) (tag : Bool)
    (h : m.wf = true) : (m.write e late id r k bs tag).wf = true := by
  unfold Memory.write
  split
  · exact putBytes_wf _ _ _ _ ((storeClock_same m e k bs.length r).wf h)
  · dsimp only
    refine putBytes_wf _ _ _ _ ((publish_same ..).wf ((tick_same ..).wf ?_))
    split
    · exact (foldl_same _ (fun m l => openView_same m e.die l) _ m).wf h
    · exact recallViews_wf _ _ _ h

/-! ## What an eye sees -/

theorem foldl_unseen {α : Type} (f : Memory → α → Memory) (hf : ∀ m x, (f m x).unseen = m.unseen) (xs : List α) (m : Memory) :
    (xs.foldl f m).unseen = m.unseen := by
  induction xs generalizing m with
  | nil => rfl
  | cons x r ih => exact (ih (f m x)).trans (hf m x)

theorem put_unseen (m : Memory) (die k : Nat) (bs : List Byte) : (m.put die k bs).unseen = m.unseen := by
  have ht : ∀ (m : Memory) l, (m.touchLine die l).unseen = m.unseen := by intro m l; unfold Memory.touchLine; split <;> rfl
  have hz : ∀ (m : Memory) l z, (m.setZero l z).unseen = m.unseen := fun _ _ _ => rfl
  unfold Memory.put
  dsimp only
  split
  · rfl
  · split
    · exact foldl_unseen Memory.cleanLine (fun _ _ => rfl) _ _
    · exact foldl_unseen _ (fun m l => (hz _ _ _).trans (ht m l)) _ _

/-- What an eye sees at a key reads the list of unseen writes only. -/
theorem seenOr_congr {m n : Memory} (h : m.unseen = n.unseen) (e : Eye) (k : Nat) (b : Byte) : m.seenOr e k b = n.seenOr e k b := by
  unfold Memory.seenOr Memory.lying; rw [h]

theorem firstHidden_append (e : Eye) (ws : List DieWrite) (w : DieWrite) :
    firstHidden e (ws ++ [w]) = if w.hidden e then (firstHidden e ws).or (some w) else none := by
  unfold firstHidden; rw [List.foldl_append]; rfl

/-- An eye that sees every write to a place sees the newest. -/
theorem firstHidden_none {e : Eye} {ws : List DieWrite} (h : ∀ w ∈ ws, w.hidden e = false) : firstHidden e ws = none := by
  induction ws using List.reverseRecOn with
  | nil => rfl
  | append_singleton ws w _ =>
    rw [firstHidden_append, h w (List.mem_append_right _ (List.mem_singleton_self _))]; rfl

theorem firstHidden_map {e : Eye} {f : DieWrite → DieWrite} (hf : ∀ w, (f w).hidden e = w.hidden e) (ws : List DieWrite) :
    firstHidden e (ws.map f) = (firstHidden e ws).map f := by
  induction ws using List.reverseRecOn with
  | nil => rfl
  | append_singleton ws w ih =>
    rw [List.map_append, List.map_cons, List.map_nil, firstHidden_append, firstHidden_append, hf, ih]
    cases w.hidden e <;> cases firstHidden e ws <;> rfl

/-- No write hidden from an eye touches a key: the eye sees the newest byte. -/
theorem seenOr_clear {m : Memory} {e : Eye} {k : Nat} (h : ∀ w ∈ m.unseen, w.hidden e = true → ∀ c ∈ w.before, c.1 ≠ k)
    (b : Byte) : m.seenOr e k b = b := by
  unfold Memory.seenOr Memory.lying
  rw [firstHidden_none]
  · rfl
  · intro w hw
    obtain ⟨hw, ht⟩ := List.mem_filter.1 hw
    obtain ⟨c, hc, hk⟩ := List.any_eq_true.1 (Bool.and_eq_true _ _ ▸ ht).2
    cases hv : w.hidden e
    · rfl
    · exact absurd (beq_iff_eq.1 hk) (h w hw hv c hc)

/-- A change of the unseen writes that keeps what stands at a key, and who sees it, changes nothing there. -/
theorem seenOr_map {m : Memory} {e : Eye} {k : Nat} {f : DieWrite → DieWrite} (h1 : ∀ w, (f w).hidden e = w.hidden e)
    (h2 : ∀ w, (f w).toDie = w.toDie)
    (h3 : ∀ w, w.toDie = e.die → (f w).before.find? (fun c => c.1 == k) = w.before.find? (fun c => c.1 == k)) (b : Byte) :
    ({ m with unseen := m.unseen.map f } : Memory).seenOr e k b = m.seenOr e k b := by
  have hk : ∀ w : DieWrite, w.toDie = e.die → (f w).atKey k = w.atKey k := by
    intro w hw
    have any_find : ∀ cs : List Host.Cell, cs.any (fun c => c.1 == k) = (cs.find? (fun c => c.1 == k)).isSome := by
      intro cs; rw [Bool.eq_iff_iff, List.find?_isSome]; simp
    unfold DieWrite.atKey
    rw [any_find, any_find, h3 w hw]
  unfold Memory.seenOr Memory.lying
  dsimp only
  rw [List.filter_map]
  have hp : (fun w => w.toDie == e.die && w.atKey k) ∘ f = fun w => w.toDie == e.die && w.atKey k := by
    funext w
    show ((f w).toDie == e.die && (f w).atKey k) = _
    rw [h2]
    by_cases hw : w.toDie = e.die
    · rw [hk w hw]
    · rw [beq_eq_false_iff_ne.2 hw]; rfl
  rw [hp, firstHidden_map h1]
  cases hm : firstHidden e (m.unseen.filter (fun w => w.toDie == e.die && w.atKey k)) with
  | none => rfl
  | some w =>
    have hw : w.toDie = e.die := by
      have key : ∀ ws : List DieWrite, firstHidden e ws = some w → w ∈ ws := by
        intro ws
        induction ws using List.reverseRecOn with
        | nil => intro h; cases h
        | append_singleton ws x ih =>
          rw [firstHidden_append]
          intro h
          split at h
          · cases hx : firstHidden e ws with
            | none => rw [hx] at h; cases h; simp
            | some y => rw [hx] at h; cases h; exact List.mem_append_left _ (ih hx)
          · cases h
      exact beq_iff_eq.1 (Bool.and_eq_true _ _ ▸ (List.mem_filter.1 (key _ hm)).2 : _ ∧ _).1
    simp only [Option.map_some, Option.bind_some, h3 w hw]

theorem find_filter_notin {cs : List Host.Cell} {keys : List Nat} {k : Nat} (h : k ∉ keys) :
    (cs.filter (fun c => !(keys.contains c.1))).find? (fun c => c.1 == k) = cs.find? (fun c => c.1 == k) := by
  rw [List.find?_filter]
  congr 1
  funext c
  by_cases hc : c.1 = k
  · simp [hc, h]
  · simp [hc]

/-- Keys hidden at a die leave every other key, and every other die. -/
theorem seenOr_hide_ne (m : Memory) (d : Nat) (keys grains : List Nat) (e : Eye) (k : Nat) (h : d = e.die → k ∉ keys) (b : Byte) :
    ({ m with unseen := hideKeys d keys grains m.unseen } : Memory).seenOr e k b = m.seenOr e k b := by
  unfold hideKeys
  refine seenOr_map (fun w => ?_) (fun w => ?_) (fun w hw => ?_) b
  · split <;> rfl
  · split <;> rfl
  · split
    · rename_i hd; exact find_filter_notin (h (hd.symm.trans hw))
    · rfl

/-- Hiding keys touches only the writes of one die. -/
theorem hideKeys_mem {d : Nat} {keys grains : List Nat} {ws : List DieWrite} {w : DieWrite} (h : w ∈ hideKeys d keys grains ws) :
    ∃ x ∈ ws, (∀ e, w.hidden e = x.hidden e) ∧ (∀ c ∈ w.before, c ∈ x.before ∧ (x.toDie = d → c.1 ∉ keys)) := by
  obtain ⟨x, hx, rfl⟩ := List.mem_map.1 h
  refine ⟨x, hx, fun e => ?_, fun c hc => ?_⟩
  · split <;> rfl
  · split at hc
    · obtain ⟨h1, h2⟩ := List.mem_filter.1 (by exact hc)
      exact ⟨h1, fun _ => by simpa using h2⟩
    · exact ⟨hc, fun h => absurd h ‹_›⟩

/-- Keys hidden at the eye's die show their newest bytes. -/
theorem seenOr_hide_same (m : Memory) (keys grains : List Nat) (e : Eye) (k : Nat) (h : k ∈ keys) (b : Byte) :
    ({ m with unseen := hideKeys e.die keys grains m.unseen } : Memory).seenOr e k b = b := by
  refine seenOr_clear (fun w hw hv c hc hk => ?_) b
  obtain ⟨x, _, h1, h2⟩ := hideKeys_mem hw
  rw [h1] at hv
  have hd : x.toDie = e.die := by
    unfold DieWrite.hidden at hv
    simp only [Bool.and_eq_true, beq_iff_eq] at hv
    exact hv.1
  exact (h2 c hc).2 hd (hk ▸ h)

/-- A write that stays unseen was not selected, and shows no more than before. -/
theorem applySelected_mem {sel : DieWrite → Bool} {ws : List DieWrite} {w : DieWrite} (h : w ∈ applySelected sel ws) :
    ∃ x ∈ ws, sel x = false ∧ (∀ e, w.hidden e = x.hidden e) ∧ ∀ c ∈ w.before, c ∈ x.before := by
  have fold : ∀ (xs : List DieWrite) (y : DieWrite),
      (∀ e, (xs.foldl (fun y x => y.hide (x.before.map (·.1)) (x.tags.map (·.1))) y).hidden e = y.hidden e) ∧
      ∀ c ∈ (xs.foldl (fun y x => y.hide (x.before.map (·.1)) (x.tags.map (·.1))) y).before, c ∈ y.before := by
    intro xs
    induction xs with
    | nil => exact fun y => ⟨fun _ => rfl, fun _ h => h⟩
    | cons x r ih =>
      intro y
      obtain ⟨h1, h2⟩ := ih (y.hide (x.before.map (·.1)) (x.tags.map (·.1)))
      exact ⟨h1, fun c hc => (List.mem_filter.1 (h2 c hc)).1⟩
  induction ws with
  | nil => cases h
  | cons a r ih =>
    unfold applySelected at h
    dsimp only at h
    split at h
    · obtain ⟨x, hx, hs⟩ := ih h
      exact ⟨x, List.mem_cons_of_mem _ hx, hs⟩
    · rename_i hs
      rcases List.mem_cons.1 h with rfl | h
      · exact ⟨a, List.mem_cons_self .., by simpa using hs, fold _ a⟩
      · obtain ⟨x, hx, hs⟩ := ih h
        exact ⟨x, List.mem_cons_of_mem _ hx, hs⟩

/-- A wanted write comes no later than itself. -/
theorem precedes_self {m : Memory} {want : DieWrite → Bool} {w : DieWrite} (h : w ∈ m.unseen) (hw : want w = true) :
    m.precedes want w = true :=
  List.any_eq_true.2 ⟨w, h, by simp [hw]⟩

/-- Where every write hidden from an eye at a key is wanted, and the eye is among the viewers, it sees the newest byte afterwards. -/
theorem applyWhere_seenOr {m : Memory} {viewer : Option Viewer} {want : DieWrite → Bool} {e : Eye} {k : Nat}
    (hv : ∀ v, viewer = some v → v.sees e = true)
    (h : ∀ w ∈ m.unseen, w.hidden e = true → (∃ c ∈ w.before, c.1 = k) → want w = true) (b : Byte) :
    (m.applyWhere viewer want).seenOr e k b = b := by
  refine seenOr_clear (fun w hw hh c hc hk => ?_) b
  cases viewer with
  | none =>
    obtain ⟨x, hx, hs, h1, h2⟩ := applySelected_mem hw
    rw [precedes_self hx (h x hx (h1 e ▸ hh) ⟨c, h2 c hc, hk⟩)] at hs
    cases hs
  | some v =>
    obtain ⟨x, hx, rfl⟩ := List.mem_map.1 hw
    split at hh
    · unfold DieWrite.hidden at hh
      simp [hv v rfl] at hh
    · rename_i hn
      rw [if_neg hn] at hc
      have hp := precedes_self hx (h x hx hh ⟨c, hc, hk⟩)
      rw [hp] at hn
      have hin : v ∈ x.shown := by simpa using hn
      unfold DieWrite.hidden at hh
      simp only [Bool.and_eq_true, Bool.not_eq_true', List.any_eq_false] at hh
      exact hh.2 v hin (hv v rfl)

/-- A fold keeps what each of its steps keeps. -/
theorem foldl_keeps {α β : Type} (f : α → β → α) (P : α → Prop) (hf : ∀ a b, P a → P (f a b)) (xs : List β) {a : α} (h : P a) :
    P (xs.foldl f a) := by
  induction xs generalizing a with
  | nil => exact h
  | cons x r ih => exact ih (hf a x h)

/-- A write offered to another die than the eye's, or over other keys, changes nothing. -/
theorem offer_seen_ne (m : Memory) (w : DieWrite) (late : Bool) (e : Eye) (k : Nat) (hk : w.toDie = e.die → k ∉ w.before.map (·.1))
    (b : Byte) : (m.offer w late).seenOr e k b = m.seenOr e k b := by
  unfold Memory.offer
  split
  · unfold Memory.seenOr Memory.lying
    have hw : (w.toDie == e.die && w.atKey k) = false := by
      by_cases hd : w.toDie = e.die
      · have := hk hd
        rw [List.mem_map] at this
        simp only [DieWrite.atKey, Bool.and_eq_false_iff, List.any_eq_false, beq_iff_eq]
        exact .inr (fun c hc h => this ⟨c, hc, h⟩)
      · simp [hd]
    simp [List.filter_append, hw]
  · exact seenOr_hide_ne m _ _ _ e k hk b

/-- A write that an eye sees shows it the newest bytes of its keys, late or not. -/
theorem offer_seen_same (m : Memory) (w : DieWrite) (late : Bool) (e : Eye) (k : Nat) (hd : w.toDie = e.die) (h : w.hidden e = false)
    (hk : k ∈ w.before.map (·.1)) (b : Byte) : (m.offer w late).seenOr e k b = b := by
  unfold Memory.offer
  split
  · unfold Memory.seenOr Memory.lying
    have hw : (w.toDie == e.die && w.atKey k) = true := by
      obtain ⟨c, hc, hck⟩ := List.mem_map.1 hk
      simp only [DieWrite.atKey, hd, beq_self_eq_true, Bool.true_and, List.any_eq_true]
      exact ⟨c, hc, by simp [hck]⟩
    simp [List.filter_append, hw, firstHidden_append, h]
  · rw [hd]; exact seenOr_hide_same m _ _ e k hk b

/-- The writer sees its own write, and every other byte as before (08 R256). -/
theorem publish_seen (m : Memory) (e : Eye) (late : List Nat) (id : Nat) (r : Option Nat) (c : List Nat) (before : List Host.Cell)
    (tags : List (Nat × Bool)) (k : Nat) (b : Byte) :
    (m.publish e late id r c before tags).seenOr e k b = if k ∈ before.map (·.1) then b else m.seenOr e k b := by
  unfold Memory.publish
  dsimp only
  generalize hds : List.range (max 5 (e.die + 1)) = ds
  by_cases hk : k ∈ before.map (·.1)
  · rw [if_pos hk]
    have hmem : e.die ∈ ds ∨ m.seenOr e k b = b := .inl (hds ▸ List.mem_range.2 (by omega))
    clear hds
    induction ds generalizing m with
    | nil => rcases hmem with h | h; exacts [absurd h List.not_mem_nil, h]
    | cons d rest ih =>
      rw [List.foldl_cons]
      apply ih
      by_cases hd : d = e.die
      · exact .inr (offer_seen_same m _ _ e k hd (by simp [DieWrite.hidden, Viewer.sees, hd]) hk b)
      · rcases hmem with h | h
        · rcases List.mem_cons.1 h with h | h
          · exact absurd h.symm hd
          · exact .inl h
        · exact .inr ((offer_seen_ne m _ _ e k (fun h => absurd h hd) b).trans h)
  · rw [if_neg hk]
    exact foldl_keeps _ (fun x : Memory => x.seenOr e k b = m.seenOr e k b)
      (fun x d hx => (offer_seen_ne x _ _ e k (fun _ => hk) b).trans hx) _ rfl

/-- Memory right after reset is in canonical form. -/
theorem reset_wf : State.reset.mem.wf = true := by
  unfold State.reset; simp [Memory.reset, Memory.wf, cellsWf, setWf]

end Sys2Proof.Machine
end

