-- ==== Sys2Proof/Laws/State.lean ====
section
/-!
SUPPORT. Laws/State.lean: what each named update of the state leaves as it was, one lemma per field per update.
-/

namespace Sys2Proof

open Machine

/-! ## begun -/

@[simp] theorem begun_threads (s : State) : (begun s).threads = s.threads := rfl
@[simp] theorem begun_mem (s : State) : (begun s).mem = s.mem := rfl
@[simp] theorem begun_cores (s : State) : (begun s).cores = s.cores := rfl
@[simp] theorem begun_savedCores (s : State) : (begun s).savedCores = s.savedCores := rfl
@[simp] theorem begun_savedUnits (s : State) : (begun s).savedUnits = s.savedUnits := rfl
@[simp] theorem begun_poolTried (s : State) : (begun s).poolTried = s.poolTried := rfl
@[simp] theorem begun_images (s : State) : (begun s).images = s.images := rfl
@[simp] theorem begun_units (s : State) : (begun s).units = s.units := rfl
@[simp] theorem begun_owners (s : State) : (begun s).owners = s.owners := rfl
@[simp] theorem begun_ctxs (s : State) : (begun s).ctxs = s.ctxs := rfl
@[simp] theorem begun_nodes (s : State) : (begun s).nodes = s.nodes := rfl
@[simp] theorem begun_bands (s : State) : (begun s).bands = s.bands := rfl
@[simp] theorem begun_loops (s : State) : (begun s).loops = s.loops := rfl
@[simp] theorem begun_net (s : State) : (begun s).net = s.net := rfl
@[simp] theorem begun_dev (s : State) : (begun s).dev = s.dev := rfl
@[simp] theorem begun_late (s : State) : (begun s).late = s.late := rfl
@[simp] theorem begun_turns (s : State) : (begun s).turns = s.turns := rfl
@[simp] theorem begun_fabricIn (s : State) : (begun s).fabricIn = s.fabricIn := rfl
@[simp] theorem begun_free (s : State) : (begun s).free = s.free := rfl
@[simp] theorem begun_nextId (s : State) : (begun s).nextId = s.nextId := rfl

@[simp] theorem begun_cur_pos (s : State) : (begun s).cur.pos = s.cur.pos := by
  unfold begun beginInstr countExecuted; dsimp only; cases s.cur.duty <;> rfl
@[simp] theorem begun_cur_hold (s : State) : (begun s).cur.hold = s.cur.hold := by
  unfold begun beginInstr countExecuted; dsimp only; cases s.cur.duty <;> rfl
@[simp] theorem begun_cur_fid (s : State) : (begun s).cur.fid = s.cur.fid := by
  unfold begun beginInstr countExecuted; dsimp only; cases s.cur.duty <;> rfl
@[simp] theorem begun_cur_ctxw (s : State) : (begun s).cur.ctxw = s.cur.ctxw := by
  unfold begun beginInstr countExecuted; dsimp only; cases s.cur.duty <;> rfl
@[simp] theorem begun_cur_pathw (s : State) : (begun s).cur.pathw = s.cur.pathw := by
  unfold begun beginInstr countExecuted; dsimp only; cases s.cur.duty <;> rfl
@[simp] theorem begun_cur_tidw (s : State) : (begun s).cur.tidw = s.cur.tidw := by
  unfold begun beginInstr countExecuted; dsimp only; cases s.cur.duty <;> rfl
@[simp] theorem begun_cur_allotw (s : State) : (begun s).cur.allotw = s.cur.allotw := by
  unfold begun beginInstr countExecuted; dsimp only; cases s.cur.duty <;> rfl
@[simp] theorem begun_cur_g (s : State) : (begun s).cur.g = s.cur.g := by
  unfold begun beginInstr countExecuted; dsimp only; cases s.cur.duty <;> rfl
@[simp] theorem begun_cur_v (s : State) : (begun s).cur.v = s.cur.v := by
  unfold begun beginInstr countExecuted; dsimp only; cases s.cur.duty <;> rfl
@[simp] theorem begun_cur_p (s : State) : (begun s).cur.p = s.cur.p := by
  unfold begun beginInstr countExecuted; dsimp only; cases s.cur.duty <;> rfl
@[simp] theorem begun_cur_slots (s : State) : (begun s).cur.slots = s.cur.slots := by
  unfold begun beginInstr countExecuted; dsimp only; cases s.cur.duty <;> rfl
@[simp] theorem begun_cur_pc (s : State) : (begun s).cur.pc = s.cur.pc := by
  unfold begun beginInstr countExecuted; dsimp only; cases s.cur.duty <;> rfl
@[simp] theorem begun_cur_code (s : State) : (begun s).cur.code = s.cur.code := by
  unfold begun beginInstr countExecuted; dsimp only; cases s.cur.duty <;> rfl
@[simp] theorem begun_cur_trapped (s : State) : (begun s).cur.trapped = s.cur.trapped := by
  unfold begun beginInstr countExecuted; dsimp only; cases s.cur.duty <;> rfl
@[simp] theorem begun_cur_savedCode (s : State) : (begun s).cur.savedCode = s.cur.savedCode := by
  unfold begun beginInstr countExecuted; dsimp only; cases s.cur.duty <;> rfl
@[simp] theorem begun_cur_stopped (s : State) : (begun s).cur.stopped = s.cur.stopped := by
  unfold begun beginInstr countExecuted; dsimp only; cases s.cur.duty <;> rfl
@[simp] theorem begun_cur_fstat (s : State) : (begun s).cur.fstat = s.cur.fstat := by
  unfold begun beginInstr countExecuted; dsimp only; cases s.cur.duty <;> rfl
@[simp] theorem begun_cur_tcause (s : State) : (begun s).cur.tcause = s.cur.tcause := by
  unfold begun beginInstr countExecuted; dsimp only; cases s.cur.duty <;> rfl
@[simp] theorem begun_cur_tpc (s : State) : (begun s).cur.tpc = s.cur.tpc := by
  unfold begun beginInstr countExecuted; dsimp only; cases s.cur.duty <;> rfl
@[simp] theorem begun_cur_tinfo (s : State) : (begun s).cur.tinfo = s.cur.tinfo := by
  unfold begun beginInstr countExecuted; dsimp only; cases s.cur.duty <;> rfl
@[simp] theorem begun_cur_sto (s : State) : (begun s).cur.sto = s.cur.sto := by
  unfold begun beginInstr countExecuted; dsimp only; cases s.cur.duty <;> rfl
@[simp] theorem begun_cur_calls (s : State) : (begun s).cur.calls = s.cur.calls := by
  unfold begun beginInstr countExecuted; dsimp only; cases s.cur.duty <;> rfl
@[simp] theorem begun_cur_parkedAt (s : State) : (begun s).cur.parkedAt = s.cur.parkedAt := by
  unfold begun beginInstr countExecuted; dsimp only; cases s.cur.duty <;> rfl
@[simp] theorem begun_cur_bad (s : State) : (begun s).cur.bad = s.cur.bad := by
  unfold begun beginInstr countExecuted; dsimp only; cases s.cur.duty <;> rfl
@[simp] theorem begun_cur_rcalln (s : State) : (begun s).cur.rcalln = s.cur.rcalln := by
  unfold begun beginInstr countExecuted; dsimp only; cases s.cur.duty <;> rfl
@[simp] theorem begun_cur_rcallRecord (s : State) : (begun s).cur.rcallRecord = s.cur.rcallRecord := by
  unfold begun beginInstr countExecuted; dsimp only; cases s.cur.duty <;> rfl
@[simp] theorem begun_cur_rcallUnreported (s : State) : (begun s).cur.rcallUnreported = s.cur.rcallUnreported := by
  unfold begun beginInstr countExecuted; dsimp only; cases s.cur.duty <;> rfl
@[simp] theorem begun_cur_rcallClock (s : State) : (begun s).cur.rcallClock = s.cur.rcallClock := by
  unfold begun beginInstr countExecuted; dsimp only; cases s.cur.duty <;> rfl
@[simp] theorem begun_cur_amoqWaits (s : State) : (begun s).cur.amoqWaits = s.cur.amoqWaits := by
  unfold begun beginInstr countExecuted; dsimp only; cases s.cur.duty <;> rfl
@[simp] theorem begun_cur_remoteStores (s : State) : (begun s).cur.remoteStores = s.cur.remoteStores := by
  unfold begun beginInstr countExecuted; dsimp only; cases s.cur.duty <;> rfl
@[simp] theorem begun_cur_inFlight (s : State) : (begun s).cur.inFlight = s.cur.inFlight := by
  unfold begun beginInstr countExecuted; dsimp only; cases s.cur.duty <;> rfl
@[simp] theorem begun_cur_popped (s : State) : (begun s).cur.popped = s.cur.popped := by
  unfold begun beginInstr countExecuted; dsimp only; cases s.cur.duty <;> rfl
@[simp] theorem begun_cur_sent (s : State) : (begun s).cur.sent = s.cur.sent := by
  unfold begun beginInstr countExecuted; dsimp only; cases s.cur.duty <;> rfl
@[simp] theorem begun_cur_boundAtStart (s : State) : (begun s).cur.boundAtStart = s.cur.boundAtStart := by
  unfold begun beginInstr countExecuted; dsimp only; cases s.cur.duty <;> rfl
@[simp] theorem begun_cur_runFrom (s : State) : (begun s).cur.runFrom = s.cur.runFrom := by
  unfold begun beginInstr countExecuted; dsimp only; cases s.cur.duty <;> rfl
@[simp] theorem begun_cur_waitPassed (s : State) : (begun s).cur.waitPassed = s.cur.waitPassed := by
  unfold begun beginInstr countExecuted; dsimp only; cases s.cur.duty <;> rfl

@[simp] theorem begun_cur_waitFrom (s : State) : (begun s).cur.waitFrom = none := rfl
@[simp] theorem begun_cur_awaitsFabric (s : State) : (begun s).cur.awaitsFabric = none := rfl

@[simp] theorem begun_regOf (s : State) (n : BitVec 6) : regOf (begun s) n = regOf s n := by
  unfold regOf gRead gAt; simp

@[simp] theorem begun_readable (s : State) (n : BitVec 6) (tb : Bool) : Readable (begun s) n tb ↔ Readable s n tb := by
  unfold Readable; simp

@[simp] theorem begun_writable (s : State) (n : BitVec 6) : Writable (begun s) n ↔ Writable s n := by
  unfold Writable gAt; simp

@[simp] theorem begun_bReadable (s : State) (f : Ext) : BReadable (begun s) f ↔ BReadable s f := by
  unfold BReadable; simp

@[simp] theorem begun_regCap (s : State) (n : BitVec 6) : regCap (begun s) n = regCap s n := by unfold regCap; simp

@[simp] theorem begun_regData (s : State) (n : BitVec 6) : regData (begun s) n = regData s n := by unfold regData; simp

@[simp] theorem begun_bData (s : State) (f : Ext) : bData (begun s) f = bData s f := by unfold bData; simp

@[simp] theorem begun_bCap (s : State) (f : Ext) : bCap (begun s) f = bCap s f := by unfold bCap; simp

@[simp] theorem begun_predOf (s : State) (n : BitVec 6) : predOf (begun s) n = predOf s n := by
  unfold predOf pRead; simp

/-! ## past -/

@[simp] theorem past_threads (f : Ext) (s : State) : (past f s).threads = s.threads := rfl
@[simp] theorem past_mem (f : Ext) (s : State) : (past f s).mem = s.mem := rfl
@[simp] theorem past_cores (f : Ext) (s : State) : (past f s).cores = s.cores := rfl
@[simp] theorem past_savedCores (f : Ext) (s : State) : (past f s).savedCores = s.savedCores := rfl
@[simp] theorem past_savedUnits (f : Ext) (s : State) : (past f s).savedUnits = s.savedUnits := rfl
@[simp] theorem past_poolTried (f : Ext) (s : State) : (past f s).poolTried = s.poolTried := rfl
@[simp] theorem past_images (f : Ext) (s : State) : (past f s).images = s.images := rfl
@[simp] theorem past_units (f : Ext) (s : State) : (past f s).units = s.units := rfl
@[simp] theorem past_owners (f : Ext) (s : State) : (past f s).owners = s.owners := rfl
@[simp] theorem past_ctxs (f : Ext) (s : State) : (past f s).ctxs = s.ctxs := rfl
@[simp] theorem past_nodes (f : Ext) (s : State) : (past f s).nodes = s.nodes := rfl
@[simp] theorem past_bands (f : Ext) (s : State) : (past f s).bands = s.bands := rfl
@[simp] theorem past_loops (f : Ext) (s : State) : (past f s).loops = s.loops := rfl
@[simp] theorem past_net (f : Ext) (s : State) : (past f s).net = s.net := rfl
@[simp] theorem past_dev (f : Ext) (s : State) : (past f s).dev = s.dev := rfl
@[simp] theorem past_late (f : Ext) (s : State) : (past f s).late = s.late := rfl
@[simp] theorem past_turns (f : Ext) (s : State) : (past f s).turns = s.turns := rfl
@[simp] theorem past_fabricIn (f : Ext) (s : State) : (past f s).fabricIn = s.fabricIn := rfl
@[simp] theorem past_free (f : Ext) (s : State) : (past f s).free = s.free := rfl
@[simp] theorem past_nextId (f : Ext) (s : State) : (past f s).nextId = s.nextId := rfl

@[simp] theorem past_cur_pos (f : Ext) (s : State) : (past f s).cur.pos = s.cur.pos := rfl
@[simp] theorem past_cur_hold (f : Ext) (s : State) : (past f s).cur.hold = s.cur.hold := rfl
@[simp] theorem past_cur_fid (f : Ext) (s : State) : (past f s).cur.fid = s.cur.fid := rfl
@[simp] theorem past_cur_ctxw (f : Ext) (s : State) : (past f s).cur.ctxw = s.cur.ctxw := rfl
@[simp] theorem past_cur_pathw (f : Ext) (s : State) : (past f s).cur.pathw = s.cur.pathw := rfl
@[simp] theorem past_cur_tidw (f : Ext) (s : State) : (past f s).cur.tidw = s.cur.tidw := rfl
@[simp] theorem past_cur_allotw (f : Ext) (s : State) : (past f s).cur.allotw = s.cur.allotw := rfl
@[simp] theorem past_cur_g (f : Ext) (s : State) : (past f s).cur.g = s.cur.g := rfl
@[simp] theorem past_cur_v (f : Ext) (s : State) : (past f s).cur.v = s.cur.v := rfl
@[simp] theorem past_cur_p (f : Ext) (s : State) : (past f s).cur.p = s.cur.p := rfl
@[simp] theorem past_cur_slots (f : Ext) (s : State) : (past f s).cur.slots = s.cur.slots := rfl
@[simp] theorem past_cur_code (f : Ext) (s : State) : (past f s).cur.code = s.cur.code := rfl
@[simp] theorem past_cur_trapped (f : Ext) (s : State) : (past f s).cur.trapped = s.cur.trapped := rfl
@[simp] theorem past_cur_savedCode (f : Ext) (s : State) : (past f s).cur.savedCode = s.cur.savedCode := rfl
@[simp] theorem past_cur_stopped (f : Ext) (s : State) : (past f s).cur.stopped = s.cur.stopped := rfl
@[simp] theorem past_cur_fstat (f : Ext) (s : State) : (past f s).cur.fstat = s.cur.fstat := rfl
@[simp] theorem past_cur_tcause (f : Ext) (s : State) : (past f s).cur.tcause = s.cur.tcause := rfl
@[simp] theorem past_cur_tpc (f : Ext) (s : State) : (past f s).cur.tpc = s.cur.tpc := rfl
@[simp] theorem past_cur_tinfo (f : Ext) (s : State) : (past f s).cur.tinfo = s.cur.tinfo := rfl
@[simp] theorem past_cur_sto (f : Ext) (s : State) : (past f s).cur.sto = s.cur.sto := rfl
@[simp] theorem past_cur_calls (f : Ext) (s : State) : (past f s).cur.calls = s.cur.calls := rfl
@[simp] theorem past_cur_parkedAt (f : Ext) (s : State) : (past f s).cur.parkedAt = s.cur.parkedAt := rfl
@[simp] theorem past_cur_bad (f : Ext) (s : State) : (past f s).cur.bad = s.cur.bad := rfl
@[simp] theorem past_cur_rcalln (f : Ext) (s : State) : (past f s).cur.rcalln = s.cur.rcalln := rfl
@[simp] theorem past_cur_rcallRecord (f : Ext) (s : State) : (past f s).cur.rcallRecord = s.cur.rcallRecord := rfl
@[simp] theorem past_cur_rcallUnreported (f : Ext) (s : State) : (past f s).cur.rcallUnreported = s.cur.rcallUnreported := rfl
@[simp] theorem past_cur_rcallClock (f : Ext) (s : State) : (past f s).cur.rcallClock = s.cur.rcallClock := rfl
@[simp] theorem past_cur_amoqWaits (f : Ext) (s : State) : (past f s).cur.amoqWaits = s.cur.amoqWaits := rfl
@[simp] theorem past_cur_remoteStores (f : Ext) (s : State) : (past f s).cur.remoteStores = s.cur.remoteStores := rfl
@[simp] theorem past_cur_inFlight (f : Ext) (s : State) : (past f s).cur.inFlight = s.cur.inFlight := rfl
@[simp] theorem past_cur_popped (f : Ext) (s : State) : (past f s).cur.popped = s.cur.popped := rfl
@[simp] theorem past_cur_sent (f : Ext) (s : State) : (past f s).cur.sent = s.cur.sent := rfl
@[simp] theorem past_cur_boundAtStart (f : Ext) (s : State) : (past f s).cur.boundAtStart = s.cur.boundAtStart := rfl
@[simp] theorem past_cur_runFrom (f : Ext) (s : State) : (past f s).cur.runFrom = s.cur.runFrom := rfl
@[simp] theorem past_cur_waitPassed (f : Ext) (s : State) : (past f s).cur.waitPassed = s.cur.waitPassed := rfl
@[simp] theorem past_cur_duty (f : Ext) (s : State) : (past f s).cur.duty = s.cur.duty := rfl
@[simp] theorem past_cur_waitFrom (f : Ext) (s : State) : (past f s).cur.waitFrom = s.cur.waitFrom := rfl
@[simp] theorem past_cur_awaitsFabric (f : Ext) (s : State) : (past f s).cur.awaitsFabric = s.cur.awaitsFabric := rfl
@[simp] theorem past_cur_pc (f : Ext) (s : State) : (past f s).cur.pc = s.cur.pc + w64 (4 * lenWords f.len) := rfl

/-! ## setReg -/

@[simp] theorem setReg_threads (n : BitVec 6) (x : TCap) (s : State) : (setReg n x s).threads = s.threads := by
  unfold setReg; split <;> rfl
@[simp] theorem setReg_mem (n : BitVec 6) (x : TCap) (s : State) : (setReg n x s).mem = s.mem := by
  unfold setReg; split <;> rfl
@[simp] theorem setReg_cores (n : BitVec 6) (x : TCap) (s : State) : (setReg n x s).cores = s.cores := by
  unfold setReg; split <;> rfl
@[simp] theorem setReg_savedCores (n : BitVec 6) (x : TCap) (s : State) : (setReg n x s).savedCores = s.savedCores := by
  unfold setReg; split <;> rfl
@[simp] theorem setReg_savedUnits (n : BitVec 6) (x : TCap) (s : State) : (setReg n x s).savedUnits = s.savedUnits := by
  unfold setReg; split <;> rfl
@[simp] theorem setReg_poolTried (n : BitVec 6) (x : TCap) (s : State) : (setReg n x s).poolTried = s.poolTried := by
  unfold setReg; split <;> rfl
@[simp] theorem setReg_images (n : BitVec 6) (x : TCap) (s : State) : (setReg n x s).images = s.images := by
  unfold setReg; split <;> rfl
@[simp] theorem setReg_units (n : BitVec 6) (x : TCap) (s : State) : (setReg n x s).units = s.units := by
  unfold setReg; split <;> rfl
@[simp] theorem setReg_owners (n : BitVec 6) (x : TCap) (s : State) : (setReg n x s).owners = s.owners := by
  unfold setReg; split <;> rfl
@[simp] theorem setReg_ctxs (n : BitVec 6) (x : TCap) (s : State) : (setReg n x s).ctxs = s.ctxs := by
  unfold setReg; split <;> rfl
@[simp] theorem setReg_nodes (n : BitVec 6) (x : TCap) (s : State) : (setReg n x s).nodes = s.nodes := by
  unfold setReg; split <;> rfl
@[simp] theorem setReg_bands (n : BitVec 6) (x : TCap) (s : State) : (setReg n x s).bands = s.bands := by
  unfold setReg; split <;> rfl
@[simp] theorem setReg_loops (n : BitVec 6) (x : TCap) (s : State) : (setReg n x s).loops = s.loops := by
  unfold setReg; split <;> rfl
@[simp] theorem setReg_net (n : BitVec 6) (x : TCap) (s : State) : (setReg n x s).net = s.net := by
  unfold setReg; split <;> rfl
@[simp] theorem setReg_dev (n : BitVec 6) (x : TCap) (s : State) : (setReg n x s).dev = s.dev := by
  unfold setReg; split <;> rfl
@[simp] theorem setReg_late (n : BitVec 6) (x : TCap) (s : State) : (setReg n x s).late = s.late := by
  unfold setReg; split <;> rfl
@[simp] theorem setReg_turns (n : BitVec 6) (x : TCap) (s : State) : (setReg n x s).turns = s.turns := by
  unfold setReg; split <;> rfl
@[simp] theorem setReg_fabricIn (n : BitVec 6) (x : TCap) (s : State) : (setReg n x s).fabricIn = s.fabricIn := by
  unfold setReg; split <;> rfl
@[simp] theorem setReg_free (n : BitVec 6) (x : TCap) (s : State) : (setReg n x s).free = s.free := by
  unfold setReg; split <;> rfl
@[simp] theorem setReg_nextId (n : BitVec 6) (x : TCap) (s : State) : (setReg n x s).nextId = s.nextId := by
  unfold setReg; split <;> rfl

@[simp] theorem setReg_cur_pos (n : BitVec 6) (x : TCap) (s : State) : (setReg n x s).cur.pos = s.cur.pos := by
  unfold setReg; split <;> rfl
@[simp] theorem setReg_cur_hold (n : BitVec 6) (x : TCap) (s : State) : (setReg n x s).cur.hold = s.cur.hold := by
  unfold setReg; split <;> rfl
@[simp] theorem setReg_cur_fid (n : BitVec 6) (x : TCap) (s : State) : (setReg n x s).cur.fid = s.cur.fid := by
  unfold setReg; split <;> rfl
@[simp] theorem setReg_cur_ctxw (n : BitVec 6) (x : TCap) (s : State) : (setReg n x s).cur.ctxw = s.cur.ctxw := by
  unfold setReg; split <;> rfl
@[simp] theorem setReg_cur_pathw (n : BitVec 6) (x : TCap) (s : State) : (setReg n x s).cur.pathw = s.cur.pathw := by
  unfold setReg; split <;> rfl
@[simp] theorem setReg_cur_tidw (n : BitVec 6) (x : TCap) (s : State) : (setReg n x s).cur.tidw = s.cur.tidw := by
  unfold setReg; split <;> rfl
@[simp] theorem setReg_cur_allotw (n : BitVec 6) (x : TCap) (s : State) : (setReg n x s).cur.allotw = s.cur.allotw := by
  unfold setReg; split <;> rfl
@[simp] theorem setReg_cur_v (n : BitVec 6) (x : TCap) (s : State) : (setReg n x s).cur.v = s.cur.v := by
  unfold setReg; split <;> rfl
@[simp] theorem setReg_cur_p (n : BitVec 6) (x : TCap) (s : State) : (setReg n x s).cur.p = s.cur.p := by
  unfold setReg; split <;> rfl
@[simp] theorem setReg_cur_slots (n : BitVec 6) (x : TCap) (s : State) : (setReg n x s).cur.slots = s.cur.slots := by
  unfold setReg; split <;> rfl
@[simp] theorem setReg_cur_pc (n : BitVec 6) (x : TCap) (s : State) : (setReg n x s).cur.pc = s.cur.pc := by
  unfold setReg; split <;> rfl
@[simp] theorem setReg_cur_code (n : BitVec 6) (x : TCap) (s : State) : (setReg n x s).cur.code = s.cur.code := by
  unfold setReg; split <;> rfl
@[simp] theorem setReg_cur_trapped (n : BitVec 6) (x : TCap) (s : State) : (setReg n x s).cur.trapped = s.cur.trapped := by
  unfold setReg; split <;> rfl
@[simp] theorem setReg_cur_savedCode (n : BitVec 6) (x : TCap) (s : State) : (setReg n x s).cur.savedCode = s.cur.savedCode := by
  unfold setReg; split <;> rfl
@[simp] theorem setReg_cur_stopped (n : BitVec 6) (x : TCap) (s : State) : (setReg n x s).cur.stopped = s.cur.stopped := by
  unfold setReg; split <;> rfl
@[simp] theorem setReg_cur_fstat (n : BitVec 6) (x : TCap) (s : State) : (setReg n x s).cur.fstat = s.cur.fstat := by
  unfold setReg; split <;> rfl
@[simp] theorem setReg_cur_tcause (n : BitVec 6) (x : TCap) (s : State) : (setReg n x s).cur.tcause = s.cur.tcause := by
  unfold setReg; split <;> rfl
@[simp] theorem setReg_cur_tpc (n : BitVec 6) (x : TCap) (s : State) : (setReg n x s).cur.tpc = s.cur.tpc := by
  unfold setReg; split <;> rfl
@[simp] theorem setReg_cur_tinfo (n : BitVec 6) (x : TCap) (s : State) : (setReg n x s).cur.tinfo = s.cur.tinfo := by
  unfold setReg; split <;> rfl
@[simp] theorem setReg_cur_sto (n : BitVec 6) (x : TCap) (s : State) : (setReg n x s).cur.sto = s.cur.sto := by
  unfold setReg; split <;> rfl
@[simp] theorem setReg_cur_calls (n : BitVec 6) (x : TCap) (s : State) : (setReg n x s).cur.calls = s.cur.calls := by
  unfold setReg; split <;> rfl
@[simp] theorem setReg_cur_parkedAt (n : BitVec 6) (x : TCap) (s : State) : (setReg n x s).cur.parkedAt = s.cur.parkedAt := by
  unfold setReg; split <;> rfl
@[simp] theorem setReg_cur_bad (n : BitVec 6) (x : TCap) (s : State) : (setReg n x s).cur.bad = s.cur.bad := by
  unfold setReg; split <;> rfl
@[simp] theorem setReg_cur_rcalln (n : BitVec 6) (x : TCap) (s : State) : (setReg n x s).cur.rcalln = s.cur.rcalln := by
  unfold setReg; split <;> rfl
@[simp] theorem setReg_cur_rcallRecord (n : BitVec 6) (x : TCap) (s : State) : (setReg n x s).cur.rcallRecord = s.cur.rcallRecord := by
  unfold setReg; split <;> rfl
@[simp] theorem setReg_cur_rcallUnreported (n : BitVec 6) (x : TCap) (s : State) : (setReg n x s).cur.rcallUnreported = s.cur.rcallUnreported := by
  unfold setReg; split <;> rfl
@[simp] theorem setReg_cur_rcallClock (n : BitVec 6) (x : TCap) (s : State) : (setReg n x s).cur.rcallClock = s.cur.rcallClock := by
  unfold setReg; split <;> rfl
@[simp] theorem setReg_cur_amoqWaits (n : BitVec 6) (x : TCap) (s : State) : (setReg n x s).cur.amoqWaits = s.cur.amoqWaits := by
  unfold setReg; split <;> rfl
@[simp] theorem setReg_cur_remoteStores (n : BitVec 6) (x : TCap) (s : State) : (setReg n x s).cur.remoteStores = s.cur.remoteStores := by
  unfold setReg; split <;> rfl
@[simp] theorem setReg_cur_inFlight (n : BitVec 6) (x : TCap) (s : State) : (setReg n x s).cur.inFlight = s.cur.inFlight := by
  unfold setReg; split <;> rfl
@[simp] theorem setReg_cur_popped (n : BitVec 6) (x : TCap) (s : State) : (setReg n x s).cur.popped = s.cur.popped := by
  unfold setReg; split <;> rfl
@[simp] theorem setReg_cur_sent (n : BitVec 6) (x : TCap) (s : State) : (setReg n x s).cur.sent = s.cur.sent := by
  unfold setReg; split <;> rfl
@[simp] theorem setReg_cur_boundAtStart (n : BitVec 6) (x : TCap) (s : State) : (setReg n x s).cur.boundAtStart = s.cur.boundAtStart := by
  unfold setReg; split <;> rfl
@[simp] theorem setReg_cur_runFrom (n : BitVec 6) (x : TCap) (s : State) : (setReg n x s).cur.runFrom = s.cur.runFrom := by
  unfold setReg; split <;> rfl
@[simp] theorem setReg_cur_waitPassed (n : BitVec 6) (x : TCap) (s : State) : (setReg n x s).cur.waitPassed = s.cur.waitPassed := by
  unfold setReg; split <;> rfl
@[simp] theorem setReg_cur_duty (n : BitVec 6) (x : TCap) (s : State) : (setReg n x s).cur.duty = s.cur.duty := by
  unfold setReg; split <;> rfl
@[simp] theorem setReg_cur_waitFrom (n : BitVec 6) (x : TCap) (s : State) : (setReg n x s).cur.waitFrom = s.cur.waitFrom := by
  unfold setReg; split <;> rfl
@[simp] theorem setReg_cur_awaitsFabric (n : BitVec 6) (x : TCap) (s : State) : (setReg n x s).cur.awaitsFabric = s.cur.awaitsFabric := by
  unfold setReg; split <;> rfl

/-- A register written reads back, unless it is g0. -/
theorem setReg_regOf_self {n : BitVec 6} (h : n ≠ 0#6) (x : TCap) (s : State) :
    regOf (setReg n x s) n = ⟨x.val, x.tag, .full, .clear, []⟩ := by
  unfold setReg regOf gRead gAt
  simp [h]

/-- The other registers keep what they hold. -/
theorem setReg_regOf_ne {n m : BitVec 6} (h : m ≠ n) (x : TCap) (s : State) : regOf (setReg n x s) m = regOf s m := by
  unfold setReg regOf gRead gAt
  have : n.toNat ≠ m.toNat := fun e => h (BitVec.eq_of_toNat_eq e.symm)
  split
  · rfl
  · split
    · rfl
    · simp [this]

/-! ## setPred -/

@[simp] theorem setPred_threads (n : BitVec 6) (x : Word) (s : State) : (setPred n x s).threads = s.threads := by
  unfold setPred; split <;> rfl
@[simp] theorem setPred_mem (n : BitVec 6) (x : Word) (s : State) : (setPred n x s).mem = s.mem := by
  unfold setPred; split <;> rfl
@[simp] theorem setPred_cores (n : BitVec 6) (x : Word) (s : State) : (setPred n x s).cores = s.cores := by
  unfold setPred; split <;> rfl
@[simp] theorem setPred_savedCores (n : BitVec 6) (x : Word) (s : State) : (setPred n x s).savedCores = s.savedCores := by
  unfold setPred; split <;> rfl
@[simp] theorem setPred_savedUnits (n : BitVec 6) (x : Word) (s : State) : (setPred n x s).savedUnits = s.savedUnits := by
  unfold setPred; split <;> rfl
@[simp] theorem setPred_poolTried (n : BitVec 6) (x : Word) (s : State) : (setPred n x s).poolTried = s.poolTried := by
  unfold setPred; split <;> rfl
@[simp] theorem setPred_images (n : BitVec 6) (x : Word) (s : State) : (setPred n x s).images = s.images := by
  unfold setPred; split <;> rfl
@[simp] theorem setPred_units (n : BitVec 6) (x : Word) (s : State) : (setPred n x s).units = s.units := by
  unfold setPred; split <;> rfl
@[simp] theorem setPred_owners (n : BitVec 6) (x : Word) (s : State) : (setPred n x s).owners = s.owners := by
  unfold setPred; split <;> rfl
@[simp] theorem setPred_ctxs (n : BitVec 6) (x : Word) (s : State) : (setPred n x s).ctxs = s.ctxs := by
  unfold setPred; split <;> rfl
@[simp] theorem setPred_nodes (n : BitVec 6) (x : Word) (s : State) : (setPred n x s).nodes = s.nodes := by
  unfold setPred; split <;> rfl
@[simp] theorem setPred_bands (n : BitVec 6) (x : Word) (s : State) : (setPred n x s).bands = s.bands := by
  unfold setPred; split <;> rfl
@[simp] theorem setPred_loops (n : BitVec 6) (x : Word) (s : State) : (setPred n x s).loops = s.loops := by
  unfold setPred; split <;> rfl
@[simp] theorem setPred_net (n : BitVec 6) (x : Word) (s : State) : (setPred n x s).net = s.net := by
  unfold setPred; split <;> rfl
@[simp] theorem setPred_dev (n : BitVec 6) (x : Word) (s : State) : (setPred n x s).dev = s.dev := by
  unfold setPred; split <;> rfl
@[simp] theorem setPred_late (n : BitVec 6) (x : Word) (s : State) : (setPred n x s).late = s.late := by
  unfold setPred; split <;> rfl
@[simp] theorem setPred_turns (n : BitVec 6) (x : Word) (s : State) : (setPred n x s).turns = s.turns := by
  unfold setPred; split <;> rfl
@[simp] theorem setPred_fabricIn (n : BitVec 6) (x : Word) (s : State) : (setPred n x s).fabricIn = s.fabricIn := by
  unfold setPred; split <;> rfl
@[simp] theorem setPred_free (n : BitVec 6) (x : Word) (s : State) : (setPred n x s).free = s.free := by
  unfold setPred; split <;> rfl
@[simp] theorem setPred_nextId (n : BitVec 6) (x : Word) (s : State) : (setPred n x s).nextId = s.nextId := by
  unfold setPred; split <;> rfl

@[simp] theorem setPred_cur_pos (n : BitVec 6) (x : Word) (s : State) : (setPred n x s).cur.pos = s.cur.pos := by
  unfold setPred; split <;> rfl
@[simp] theorem setPred_cur_hold (n : BitVec 6) (x : Word) (s : State) : (setPred n x s).cur.hold = s.cur.hold := by
  unfold setPred; split <;> rfl
@[simp] theorem setPred_cur_fid (n : BitVec 6) (x : Word) (s : State) : (setPred n x s).cur.fid = s.cur.fid := by
  unfold setPred; split <;> rfl
@[simp] theorem setPred_cur_ctxw (n : BitVec 6) (x : Word) (s : State) : (setPred n x s).cur.ctxw = s.cur.ctxw := by
  unfold setPred; split <;> rfl
@[simp] theorem setPred_cur_pathw (n : BitVec 6) (x : Word) (s : State) : (setPred n x s).cur.pathw = s.cur.pathw := by
  unfold setPred; split <;> rfl
@[simp] theorem setPred_cur_tidw (n : BitVec 6) (x : Word) (s : State) : (setPred n x s).cur.tidw = s.cur.tidw := by
  unfold setPred; split <;> rfl
@[simp] theorem setPred_cur_allotw (n : BitVec 6) (x : Word) (s : State) : (setPred n x s).cur.allotw = s.cur.allotw := by
  unfold setPred; split <;> rfl
@[simp] theorem setPred_cur_g (n : BitVec 6) (x : Word) (s : State) : (setPred n x s).cur.g = s.cur.g := by
  unfold setPred; split <;> rfl
@[simp] theorem setPred_cur_v (n : BitVec 6) (x : Word) (s : State) : (setPred n x s).cur.v = s.cur.v := by
  unfold setPred; split <;> rfl
@[simp] theorem setPred_cur_slots (n : BitVec 6) (x : Word) (s : State) : (setPred n x s).cur.slots = s.cur.slots := by
  unfold setPred; split <;> rfl
@[simp] theorem setPred_cur_pc (n : BitVec 6) (x : Word) (s : State) : (setPred n x s).cur.pc = s.cur.pc := by
  unfold setPred; split <;> rfl
@[simp] theorem setPred_cur_code (n : BitVec 6) (x : Word) (s : State) : (setPred n x s).cur.code = s.cur.code := by
  unfold setPred; split <;> rfl
@[simp] theorem setPred_cur_trapped (n : BitVec 6) (x : Word) (s : State) : (setPred n x s).cur.trapped = s.cur.trapped := by
  unfold setPred; split <;> rfl
@[simp] theorem setPred_cur_savedCode (n : BitVec 6) (x : Word) (s : State) : (setPred n x s).cur.savedCode = s.cur.savedCode := by
  unfold setPred; split <;> rfl
@[simp] theorem setPred_cur_stopped (n : BitVec 6) (x : Word) (s : State) : (setPred n x s).cur.stopped = s.cur.stopped := by
  unfold setPred; split <;> rfl
@[simp] theorem setPred_cur_fstat (n : BitVec 6) (x : Word) (s : State) : (setPred n x s).cur.fstat = s.cur.fstat := by
  unfold setPred; split <;> rfl
@[simp] theorem setPred_cur_tcause (n : BitVec 6) (x : Word) (s : State) : (setPred n x s).cur.tcause = s.cur.tcause := by
  unfold setPred; split <;> rfl
@[simp] theorem setPred_cur_tpc (n : BitVec 6) (x : Word) (s : State) : (setPred n x s).cur.tpc = s.cur.tpc := by
  unfold setPred; split <;> rfl
@[simp] theorem setPred_cur_tinfo (n : BitVec 6) (x : Word) (s : State) : (setPred n x s).cur.tinfo = s.cur.tinfo := by
  unfold setPred; split <;> rfl
@[simp] theorem setPred_cur_sto (n : BitVec 6) (x : Word) (s : State) : (setPred n x s).cur.sto = s.cur.sto := by
  unfold setPred; split <;> rfl
@[simp] theorem setPred_cur_calls (n : BitVec 6) (x : Word) (s : State) : (setPred n x s).cur.calls = s.cur.calls := by
  unfold setPred; split <;> rfl
@[simp] theorem setPred_cur_parkedAt (n : BitVec 6) (x : Word) (s : State) : (setPred n x s).cur.parkedAt = s.cur.parkedAt := by
  unfold setPred; split <;> rfl
@[simp] theorem setPred_cur_rcalln (n : BitVec 6) (x : Word) (s : State) : (setPred n x s).cur.rcalln = s.cur.rcalln := by
  unfold setPred; split <;> rfl
@[simp] theorem setPred_cur_rcallRecord (n : BitVec 6) (x : Word) (s : State) : (setPred n x s).cur.rcallRecord = s.cur.rcallRecord := by
  unfold setPred; split <;> rfl
@[simp] theorem setPred_cur_rcallUnreported (n : BitVec 6) (x : Word) (s : State) : (setPred n x s).cur.rcallUnreported = s.cur.rcallUnreported := by
  unfold setPred; split <;> rfl
@[simp] theorem setPred_cur_rcallClock (n : BitVec 6) (x : Word) (s : State) : (setPred n x s).cur.rcallClock = s.cur.rcallClock := by
  unfold setPred; split <;> rfl
@[simp] theorem setPred_cur_amoqWaits (n : BitVec 6) (x : Word) (s : State) : (setPred n x s).cur.amoqWaits = s.cur.amoqWaits := by
  unfold setPred; split <;> rfl
@[simp] theorem setPred_cur_remoteStores (n : BitVec 6) (x : Word) (s : State) : (setPred n x s).cur.remoteStores = s.cur.remoteStores := by
  unfold setPred; split <;> rfl
@[simp] theorem setPred_cur_inFlight (n : BitVec 6) (x : Word) (s : State) : (setPred n x s).cur.inFlight = s.cur.inFlight := by
  unfold setPred; split <;> rfl
@[simp] theorem setPred_cur_popped (n : BitVec 6) (x : Word) (s : State) : (setPred n x s).cur.popped = s.cur.popped := by
  unfold setPred; split <;> rfl
@[simp] theorem setPred_cur_sent (n : BitVec 6) (x : Word) (s : State) : (setPred n x s).cur.sent = s.cur.sent := by
  unfold setPred; split <;> rfl
@[simp] theorem setPred_cur_boundAtStart (n : BitVec 6) (x : Word) (s : State) : (setPred n x s).cur.boundAtStart = s.cur.boundAtStart := by
  unfold setPred; split <;> rfl
@[simp] theorem setPred_cur_runFrom (n : BitVec 6) (x : Word) (s : State) : (setPred n x s).cur.runFrom = s.cur.runFrom := by
  unfold setPred; split <;> rfl
@[simp] theorem setPred_cur_waitPassed (n : BitVec 6) (x : Word) (s : State) : (setPred n x s).cur.waitPassed = s.cur.waitPassed := by
  unfold setPred; split <;> rfl
@[simp] theorem setPred_cur_duty (n : BitVec 6) (x : Word) (s : State) : (setPred n x s).cur.duty = s.cur.duty := by
  unfold setPred; split <;> rfl
@[simp] theorem setPred_cur_waitFrom (n : BitVec 6) (x : Word) (s : State) : (setPred n x s).cur.waitFrom = s.cur.waitFrom := by
  unfold setPred; split <;> rfl
@[simp] theorem setPred_cur_awaitsFabric (n : BitVec 6) (x : Word) (s : State) : (setPred n x s).cur.awaitsFabric = s.cur.awaitsFabric := by
  unfold setPred; split <;> rfl

end Sys2Proof
end

