-- ==== Sys2Proof/Laws/Access.lean ====
section
/-!
SUPPORT. Laws/Access.lean: the shared operations on memory: what each does where its checks pass, and what it leaves.
-/

namespace Sys2Proof.Machine

/-! ## Computations that leave the issuing thread alone -/

/-- Where `x` answers, the issuing thread, the messages and the device are as before. -/
def KeepsCur {α : Type} (x : Act α) : Prop := ∀ s a t, x s = .ok (a, t) → t.cur = s.cur

theorem KeepsCur.pure {α : Type} (a : α) : KeepsCur (pure a : Act α) := by
  intro s b t h; cases h; rfl

theorem KeepsCur.get : KeepsCur (get : Act State) := by
  intro s b t h; cases h; rfl

theorem KeepsCur.throw {α : Type} (e : Exc) : KeepsCur (throw e : Act α) := by
  intro s b t h; cases h

theorem KeepsCur.trap {α : Type} (c : Nat) (i : DWord) : KeepsCur (trap c i : Act α) := KeepsCur.throw _

theorem KeepsCur.dangling {α : Type} : KeepsCur (dangling : Act α) := KeepsCur.throw _

theorem KeepsCur.bind {α β : Type} {x : Act α} {f : α → Act β} (hx : KeepsCur x) (hf : ∀ a, KeepsCur (f a)) :
    KeepsCur (x >>= f) := by
  intro s b t h
  rw [act_bind] at h
  cases hs : x s with
  | error e => rw [hs] at h; cases h
  | ok r =>
    rw [hs] at h
    exact (hf r.1 _ _ _ h).trans (hx s r.1 r.2 hs)

theorem KeepsCur.ite {α : Type} {b : Prop} [Decidable b] {x y : Act α} (hx : KeepsCur x) (hy : KeepsCur y) :
    KeepsCur (if b then x else y) := by split <;> assumption

theorem KeepsCur.trapIf (b : Bool) (c : Nat) (i : DWord) : KeepsCur (trapIf b c i) := by
  unfold Machine.trapIf; exact .ite (.trap c i) (.pure _)

theorem KeepsCur.waitIf (b : Bool) : KeepsCur (waitIf b) := by
  unfold Machine.waitIf; exact .ite (.throw _) (.pure _)

theorem KeepsCur.modify (f : State → State) (hf : ∀ s, (f s).cur = s.cur) : KeepsCur (modify f : Act PUnit) := by
  intro s b t h; cases h; exact hf s

theorem KeepsCur.modMem (f : Memory → Memory) : KeepsCur (modMem f) := KeepsCur.modify _ (fun _ => rfl)

theorem KeepsCur.modCtx (n : Nat) (f : Ctx → Ctx) : KeepsCur (modCtx n f) := KeepsCur.modify _ (fun _ => rfl)

theorem KeepsCur.modCore (p : Pos) (f : CoreState → CoreState) : KeepsCur (modCore p f) := KeepsCur.modify _ (fun _ => rfl)

theorem KeepsCur.takeFrame (c : Ctx) (die : Nat) : KeepsCur (takeFrame c die) := by
  unfold Machine.takeFrame
  refine .bind .get (fun s => ?_)
  dsimp only
  repeat' (first | with_reducible exact .pure _ | with_reducible exact .bind (.modCtx _ _) (fun _ => .pure _) | split)

theorem KeepsCur.putEntry (a : Nat) (w : DWord) : KeepsCur (putEntry a w) := KeepsCur.modMem _

theorem KeepsCur.countAccess (c : Nat) (p : DWord) (d : Nat) : KeepsCur (countAccess c p d) := KeepsCur.modMem _

theorem KeepsCur.translatePaged (c : Ctx) (die : Nat) (pins : List Nat) (addr size : Nat) (kind : Kind) :
    KeepsCur (translatePaged c die pins addr size kind) := by
  unfold Machine.translatePaged
  dsimp only
  refine .bind .get (fun s => ?_)
  split
  · exact .trap _ _
  · refine .bind (.waitIf _) (fun _ => .bind (.trapIf _ _ _) (fun _ => ?_))
    repeat' (first
      | with_reducible exact .pure _
      | with_reducible exact .trap _ _
      | with_reducible exact .trapIf _ _ _
      | with_reducible refine .bind (.trapIf _ _ _) (fun _ => ?_)
      | with_reducible refine .bind .get (fun _ => ?_)
      | with_reducible refine .bind (.takeFrame _ _) (fun _ => ?_)
      | with_reducible refine .bind (.putEntry _ _) (fun _ => ?_)
      | with_reducible refine .bind (.trap _ _) (fun _ => ?_)
      | with_reducible refine .bind (.pure _) (fun _ => ?_)
      | with_reducible refine .bind (.countAccess _ _ _) (fun _ => ?_)
      | split)

theorem KeepsCur.translateIn (c : Ctx) (b : Option Band) (own : Option Pos) (die : Nat) (pins : List Nat) (addr size : Nat)
    (kind : Kind) : KeepsCur (translateIn c b own die pins addr size kind) := by
  unfold Machine.translateIn
  dsimp only
  refine .bind .get (fun s => ?_)
  repeat' (first
    | with_reducible exact .pure _
    | with_reducible exact .trap _ _
    | with_reducible exact .translatePaged _ _ _ _ _ _
    | with_reducible refine .bind (.trapIf _ _ _) (fun _ => ?_)
    | split)

theorem KeepsCur.translateFor (a : Agent) (addr size : Nat) (kind : Kind) : KeepsCur (translateFor a addr size kind) := by
  unfold Machine.translateFor
  refine .bind (.translateIn _ _ _ _ _ _ _ _) (fun p => ?_)
  dsimp only
  split
  · exact .bind (.modify _ (fun _ => rfl)) (fun _ => .pure _)
  · exact .pure _

/-- The answers that other devices give are the fabric's; the issuing thread keeps its registers. -/
theorem KeepsCur.fabricAnswer (addr : Nat) (timed : Bool) : KeepsCur (fabricAnswer addr timed) := by
  unfold Machine.fabricAnswer
  refine .bind .get (fun s => ?_)
  split
  · exact .bind (.modify _ (fun _ => rfl)) (fun _ => .pure _)
  · exact .ite (.throw _) (.throw _)

theorem KeepsCur.checkWriter (a : Agent) (p : Place) (addr : Nat) : KeepsCur (checkWriter a p addr) := by
  unfold Machine.checkWriter
  split
  · exact .bind .get (fun _ => .trapIf _ _ _)
  · exact .trapIf _ _ _
  · exact .pure _

theorem KeepsCur.checkOwner (a : Agent) (p : Place) (addr size : Nat) : KeepsCur (checkOwner a p addr size) := by
  unfold Machine.checkOwner
  split
  · split
    · exact .bind .get (fun _ => .trapIf _ _ _)
    · exact .trap _ _
  · exact .trapIf _ _ _
  · exact .pure _

theorem KeepsCur.cellHeld (l : Loop) (iteration i : Nat) : KeepsCur (cellHeld l iteration i) := by
  unfold Machine.cellHeld
  exact .ite (.pure _) (.bind .get (fun s => .ite (.bind (.fabricAnswer _ _) (fun _ => .pure _)) (.pure _)))

theorem KeepsCur.checkCells (l : Loop) (iteration : Nat) (is : List Nat) : KeepsCur (checkCells l iteration is) := by
  induction is with
  | nil => exact .pure _
  | cons i r ih => exact .bind (.cellHeld _ _ _) (fun _ => .bind (.trapIf _ _ _) (fun _ => ih))

theorem KeepsCur.checkGuard (a : Agent) (addr size : Nat) : KeepsCur (checkGuard a addr size) := by
  unfold Machine.checkGuard
  split
  · refine .bind .get (fun s => ?_)
    split
    · exact .pure _
    · refine .ite (.checkCells _ _ _) ?_
      split
      · exact .trap _ _
      · exact .pure _
  · exact .pure _

theorem KeepsCur.checkWrite (a : Agent) (p : Place) (addr size : Nat) (checked fmtw : Bool) :
    KeepsCur (checkWrite a p addr size checked fmtw) := by
  have h : KeepsCur (match p with
      | .bytes k _ => Machine.trapIf (keyIsView k && !fmtw) 0x06 (w64 addr)
      | _ => Pure.pure ()) := by
    split
    · exact .trapIf _ _ _
    · exact .pure _
  unfold Machine.checkWrite
  dsimp only
  split
  · exact .bind (.checkWriter _ _ _) (fun _ => .bind (.checkGuard _ _ _) (fun _ => h))
  · exact .bind (.checkGuard _ _ _) (fun _ => h)

theorem KeepsCur.awaitCopies (a : Agent) (k size : Nat) : KeepsCur (awaitCopies a k size) := by
  unfold Machine.awaitCopies
  refine .bind .get (fun s => ?_)
  split <;> exact .waitIf _

theorem KeepsCur.mapM {α β : Type} {f : α → Act β} (hf : ∀ a, KeepsCur (f a)) (xs : List α) : KeepsCur (xs.mapM f) := by
  induction xs with
  | nil => exact .pure _
  | cons x r ih =>
    rw [List.mapM_cons]
    exact .bind (hf x) (fun _ => .bind ih (fun _ => .pure _))

theorem stashKeep_cur (core : Pos) (x : StashMap) (l : Nat) (s : State) : (stashKeep core x l s).cur = s.cur := by
  unfold stashKeep
  refine foldl_keeps _ (fun y : State => y.cur = s.cur) ?_ _ rfl
  exact fun _ _ h => h

theorem recallStashes_cur (own : OwnStash) (k n : Nat) (s : State) : (recallStashes own k n s).cur = s.cur := by
  have drop : ∀ s p n want, (stashDrop p n want s).cur = s.cur := by
    intro s p n want
    unfold stashDrop
    split
    · rfl
    · dsimp only
      split
      · rfl
      · exact foldl_keeps _ (fun x : State => x.cur = s.cur) (fun x l hx => (stashKeep_cur p _ l x).trans hx) _ rfl
  unfold recallStashes stashDropAll
  split
  · rfl
  · exact foldl_keeps _ (fun x : State => x.cur = s.cur)
      (fun x c hx => foldl_keeps _ (fun y : State => y.cur = s.cur) (fun y n hy => (drop y _ n _).trans hy) _ hx) _ rfl

theorem KeepsCur.arrive (own : OwnStash) (a : Agent) (p : Place) (addr size : Nat) (kind : Kind) (checked fmtw : Bool) :
    KeepsCur (arrive own a p addr size kind checked fmtw) := by
  unfold Machine.arrive
  dsimp only
  repeat' (first
    | with_reducible exact .pure _
    | with_reducible exact .modify _ (recallStashes_cur _ _ _)
    | with_reducible refine .bind (.awaitCopies _ _ _) (fun _ => ?_)
    | with_reducible refine .bind (.pure _) (fun _ => ?_)
    | with_reducible refine .bind (.checkWrite _ _ _ _ _ _) (fun _ => ?_)
    | split)

theorem KeepsCur.reachGlobal (own : OwnStash) (a : Agent) (kind : Kind) (checked fmtw : Bool) (piece : Nat × Nat) :
    KeepsCur (reachGlobal own a kind checked fmtw piece) := by
  unfold Machine.reachGlobal
  dsimp only
  refine .bind (.translateFor _ _ _ _) (fun _ => ?_)
  split
  · exact .bind (.checkOwner _ _ _ _) (fun _ => .bind (.arrive _ _ _ _ _ _ _ _) (fun _ => .pure _))
  · exact .bind (.arrive _ _ _ _ _ _ _ _) (fun _ => .pure _)

/-- The checks of an access leave the issuing thread as it was. -/
theorem KeepsCur.reach (a : Agent) (addr size : Nat) (kind : Kind) (checked fmtw : Bool) :
    KeepsCur (reach a addr size kind checked fmtw) := by
  unfold Machine.reach
  dsimp only
  refine .bind (.translateFor _ _ _ _) (fun p => .bind (.checkOwner _ _ _ _) (fun _ => .bind .get (fun s => ?_)))
  split
  · exact .bind (.arrive _ _ _ _ _ _ _ _) (fun _ => .pure _)
  · refine .bind (.trapIf _ _ _) (fun _ => ?_)
    split
    · exact .dangling
    · exact .bind (.mapM (fun _ => .reachGlobal _ _ _ _ _ _) _) (fun _ => .bind (.modCore _ _) (fun _ => .pure _))

/-- The issuing thread as the agent of its next access, a wait (05 R154, 02 R64), or the state that no run reaches. -/
theorem curAgent_spec (s : State) : curAgent s =
    match findCtx s s.cur.fid.ctx with
    | some c =>
      if accessWaits s.cur then .error .wait
      else .ok (⟨c, formBand s s.cur, some s.cur.pos, s.cur.pos.die, s.cur.pos, s.cur.duty, writerOf s.cur, agentId s.cur, [], none, []⟩, s)
    | none => .error (.fault .danglingRecord) := by
  unfold curAgent threadAgent getCtx
  simp only [act_bind, act_get]
  unfold ctxOf
  cases findCtx s s.cur.fid.ctx
  · rfl
  · simp only [act_pure, act_waitIf]
    cases accessWaits s.cur <;> rfl

theorem curAgent_ok {s : State} {a : Agent} (h : curAgent s = .ok (a, s)) :
    a.die = s.cur.pos.die ∧ a.issuer = agentId s.cur ∧ a.duty = s.cur.duty ∧ a.pos = s.cur.pos ∧
      findCtx s s.cur.fid.ctx = some a.ctx ∧ accessWaits s.cur = false := by
  rw [curAgent_spec] at h
  cases hc : findCtx s s.cur.fid.ctx with
  | none => rw [hc] at h; cases h
  | some c =>
    rw [hc] at h
    cases hw : accessWaits s.cur with
    | true => simp [hw] at h
    | false => simp only [hw, Bool.false_eq_true, if_false] at h; cases h; exact ⟨rfl, rfl, rfl, rfl, rfl, rfl⟩

theorem reaches_cur {s t : State} {addr size : Nat} {kind : Kind} {checked fmtw : Bool} {p : Place}
    (h : Reaches s addr size kind checked fmtw p t) : t.cur = s.cur := by
  obtain ⟨a, _, hr⟩ := h
  exact KeepsCur.reach _ _ _ _ _ _ _ _ _ hr

/-! ## Deref -/

theorem deref_passes {c : TCap} {addr size : Nat} {perms : List Nat} (h : DerefPasses c addr size perms) (s : State) :
    deref c addr size perms s = .ok (⟨⟩, s) := by
  obtain ⟨h1, h2, h3, h4, h5⟩ := h
  unfold deref
  have hb : inBounds c.val addr size = true := by simp [inBounds, h3, h4]
  have hp : (perms.all (capHas c.val)) = true := List.all_eq_true.2 h5
  simp [act_bind, h1, capSealed, h2, hb, hp]

theorem derefAligned_passes {c : TCap} {addr size : Nat} {perms : List Nat} (h : DerefPasses c addr size perms)
    (ha : addr % size = 0) (s : State) : derefAligned c addr size perms s = .ok (⟨⟩, s) := by
  unfold derefAligned
  rw [act_bind_ok (deref_passes h s)]
  simp [ha]

/-! ## Reading and writing -/

/-- A read of bytes that are neither a view's nor poisoned. -/
theorem readPlace_bytes {a : Agent} {k addr size : Nat} {leaf : Option Nat} {s : State} (hv : keyIsView k = false)
    (hp : (s.mem.readied a.eye k size).firstPoison k size = none) :
    readPlace a (.bytes k leaf) addr size s =
      .ok (((s.mem.readied a.eye k size).seenBytes a.eye k size, (s.mem.readied a.eye k size).seenTag a.eye (k / 16)),
        { s with mem := s.mem.readied a.eye k size }) := by
  have hc : checkPoison k size addr { s with mem := s.mem.readied a.eye k size } =
      .ok (⟨⟩, { s with mem := s.mem.readied a.eye k size }) := by
    unfold checkPoison; simp [act_bind, hp]
  unfold readPlace
  simp only [act_bind, act_modMem, act_get, hc, hv, Bool.false_eq_true, if_false]
  rfl

theorem mem_granules {k n g : Nat} (hn : 0 < n) : g ∈ granules k n ↔ k / 16 ≤ g ∧ g ≤ (k + n - 1) / 16 := by
  unfold granules
  have h0 : n ≠ 0 := by omega
  have hle : k / 16 ≤ (k + n - 1) / 16 := Nat.div_le_div_right (by omega)
  simp only [h0, if_false, List.mem_map, List.mem_range]
  constructor
  · rintro ⟨a, h1, rfl⟩; omega
  · rintro ⟨h1, h2⟩; exact ⟨g - k / 16, by omega, by omega⟩

/-- The granules of a write lose their tags, but for the first where the write gives one. -/
theorem put_tags {m m2 : Memory} {k : Nat} {bs : List Byte} (tag : Bool) (hn : 0 < bs.length)
    (d2 : m2.tags = (granules k bs.length).foldl setDrop m.tags) (g : Nat) :
    g ∈ (if tag then { m2 with tags := setAdd m2.tags (k / 16) } else m2 : Memory).tags ↔
      (tag = true ∧ g = k / 16) ∨ (g ∈ m.tags ∧ (g < k / 16 ∨ (k + bs.length - 1) / 16 < g)) := by
  have base : g ∈ m2.tags ↔ g ∈ m.tags ∧ (g < k / 16 ∨ (k + bs.length - 1) / 16 < g) := by
    rw [d2, mem_foldl_setDrop, mem_granules hn]
    constructor
    · rintro ⟨h1, h2⟩; exact ⟨h1, by omega⟩
    · rintro ⟨h1, h2⟩; exact ⟨h1, by omega⟩
  cases tag
  · simpa using base
  · simp only [if_true, mem_setAdd, base, true_and]

/-- The bytes of a write that an eye sees: where unseen writes show it the newest bytes of the write and nothing else new. -/
theorem writesBytes_of {e : Eye} {k : Nat} {bs : List Byte} {tag : Bool} {m m1 m2 : Memory} (hn : 0 < bs.length)
    (hw : m.wf = true) (h1 : Memory.SameData m1 m) (d : m2.cells = cellsPut m1.cells k bs)
    (d2 : m2.tags = (granules k bs.length).foldl setDrop m1.tags) (d4 : m2.full = m1.full)
    (hin : ∀ x, k ≤ x → x < k + bs.length → ∀ b, keyIsStore x = false → m2.seenOr e x b = b)
    (hout : ∀ x, x < k ∨ k + bs.length ≤ x → ∀ b, m2.seenOr e x b = m.seenOr e x b) :
    WritesBytes e k bs tag m (if tag then { m2 with tags := setAdd m2.tags (k / 16) } else m2) := by
  have hcw : cellsWf m1.cells = true := by rw [h1.cells]; exact ((Memory.wf_iff _).1 hw).1
  have ht : (if tag then { m2 with tags := setAdd m2.tags (k / 16) } else m2 : Memory).cells = m2.cells := by cases tag <;> rfl
  have hf : (if tag then { m2 with tags := setAdd m2.tags (k / 16) } else m2 : Memory).full = m2.full := by cases tag <;> rfl
  have hs : ∀ x b, (if tag then { m2 with tags := setAdd m2.tags (k / 16) } else m2 : Memory).seenOr e x b = m2.seenOr e x b := by
    intro x b; cases tag <;> rfl
  have htag := fun g => put_tags (m := m1) (m2 := m2) (k := k) (bs := bs) tag hn d2 g
  rw [h1.tags] at htag
  have hle : k / 16 ≤ (k + bs.length - 1) / 16 := Nat.div_le_div_right (by omega)
  refine ⟨fun j hj => ?_, fun x hx => ?_, fun g hg => ?_, fun g hg1 hg2 => ?_, ?_⟩
  · have hc : cellGet (if tag then { m2 with tags := setAdd m2.tags (k / 16) } else m2 : Memory).cells (k + j) = bs.getD j 0#8 := by
      rw [ht, d]; exact cellGet_cellsPut_inside _ _ _ _ hcw hj
    refine ⟨hc, ?_⟩
    unfold Memory.seen
    rw [hs, hc]
    split
    · rfl
    · rename_i h; exact hin _ (by omega) (by omega) _ (by simpa using h)
  · have hc : cellGet (if tag then { m2 with tags := setAdd m2.tags (k / 16) } else m2 : Memory).cells x = cellGet m.cells x := by
      rw [ht, d, cellGet_cellsPut_outside _ _ _ _ hx, h1.cells]
    refine ⟨hc, ?_⟩
    unfold Memory.seen
    rw [hs, hc, hout x hx]
  · rw [htag]
    constructor
    · rintro (⟨_, rfl⟩ | h)
      · omega
      · exact h.1
    · exact fun h => .inr ⟨h, hg⟩
  · rw [htag]
    constructor
    · rintro (h | ⟨_, h⟩)
      · exact h
      · omega
    · exact .inl
  · rw [hf, d4, h1.full]

/-- One write of bytes that no view shows: they read back to its writer, and everything else is as before (08 R254 to R256). -/
theorem write_bytes {m : Memory} {e : Eye} {k id : Nat} {late : List Nat} {r : Option Nat} {bs : List Byte} {tag : Bool}
    (hv : keyIsView k = false) (hn : 0 < bs.length) (hw : m.wf = true) (hs : NoViews k m) :
    WritesBytes e k bs tag m (m.write e late id r k bs tag) := by
  unfold Memory.write
  split
  · -- a store's bytes are written at the store
    rename_i hk
    have hsame := storeClock_same m e k bs.length r
    unfold Memory.putBytes
    rw [if_neg (by simp [hv])]
    obtain ⟨d1, d2, _, d4⟩ := put_data (m.storeClock e k bs.length r) e.die k bs
    have hu : ((m.storeClock e k bs.length r).put e.die k bs).unseen = m.unseen := put_unseen _ _ _ _
    refine writesBytes_of hn hw hsame d1 d2 d4 (fun x hx _ b hb => ?_) (fun x _ b => seenOr_congr hu _ _ _)
    simp only [keyIsStore, decide_eq_true_eq, decide_eq_false_iff_not] at hk hb
    omega
  · rename_i hk
    have h0 : m.recallViews k bs.length true = m := by
      rcases hs with h | h
      · exact absurd h hk
      · unfold Memory.recallViews; simp [h]
    simp only [hv, Bool.false_eq_true, if_false, h0]
    have hdisp : (m.displaced k bs.length).1.map (·.1) = (List.range bs.length).map (fun i => k + i) := by
      unfold Memory.displaced; rw [List.map_map]; rfl
    have hmem : ∀ x, x ∈ (m.displaced k bs.length).1.map (·.1) ↔ k ≤ x ∧ x < k + bs.length := by
      intro x
      rw [hdisp, List.mem_map]
      constructor
      · rintro ⟨i, hi, rfl⟩; rw [List.mem_range] at hi; omega
      · rintro ⟨h1, h2⟩; exact ⟨x - k, by rw [List.mem_range]; omega, by omega⟩
    generalize hold : m.displaced k bs.length = old at hmem
    have hpub := fun x b => publish_seen (m.tick e).1 e late id r (m.tick e).2 old.1 old.2 x b
    have hsame := (publish_same (m.tick e).1 e late id r (m.tick e).2 old.1 old.2).trans (tick_same m e)
    generalize (m.tick e).1.publish e late id r (m.tick e).2 old.1 old.2 = m1 at hpub hsame
    unfold Memory.putBytes
    rw [if_neg (by simp [hv])]
    obtain ⟨d1, d2, _, d4⟩ := put_data m1 e.die k bs
    have hu : (m1.put e.die k bs).unseen = m1.unseen := put_unseen _ _ _ _
    refine writesBytes_of hn hw hsame d1 d2 d4 (fun x h1 h2 b _ => ?_) (fun x hx b => ?_)
    · rw [seenOr_congr hu, hpub, if_pos ((hmem x).2 ⟨h1, h2⟩)]
    · rw [seenOr_congr hu, hpub, if_neg (fun h => by have := (hmem x).1 h; omega)]
      exact seenOr_congr rfl _ _ _

/-- What a write of bytes of memory does to the machine. -/
theorem writePlace_bytes {a : Agent} {k addr : Nat} {leaf : Option Nat} {bs : List Byte} {tag : Bool} {r : Option Nat} {s : State} :
    writePlace a (.bytes k leaf) addr bs tag r s =
      .ok (⟨⟩, { s with mem := s.mem.write a.eye s.late s.nextId r k bs tag, nextId := s.nextId + 1 }) := rfl

end Sys2Proof.Machine
end

