-- ==== Sys2Proof/Tests/Slice0.lean ====
section
/-!
SUPPORT. Tests/Slice0.lean: words of the spec's programs, ill-formed instructions, single steps whose results come from
the spec's worked examples, and a state that meets the hypotheses of each statement.
-/

set_option Elab.async false

namespace Sys2Proof.Tests

open Sys2Proof Machine

/-! ## Small states -/

/-- One firing of a one-instance band, as withFetchWord places it. -/
def probe : State := installFiring State.reset

/-- A capability for the band's cluster store, its cursor at an offset. -/
def storeCap (offset : Nat) : TCap := ⟨makeCap 0xFFFF#16 (clusterKey 0 0 0) 65536 (clusterKey 0 0 offset), true⟩

/-- g1 a capability for the store at offset 0x100; g2 and g3 data. -/
def ready : State :=
  setReg 1#6 (storeCap 0x100) (setData 2#6 0xFEDCBA9876543210#64 (setData 3#6 7#64 probe))

/-- The fields of a one-word form on registers d, a and b. -/
def on (d a b : BitVec 6) : Base := ⟨false, false, b, a, d⟩

/-- The fields of a form with extended words. -/
def onExt (d a b : BitVec 6) (fmt : BitVec 4) (imm : Word) : Ext :=
  ⟨2#2, false, false, b, a, d, 0#8, 0#3, 0#3, false, 0#3, fmt, 0#3, false, 0#6, imm, 0#64⟩

/-! ## Deciding hypotheses -/

def runsB (i : Instr) (s : State) : Bool :=
  match i.fields with
  | some (op, fn, f) =>
    (!(inHandler s.cur) || (decide (executedOf s.cur < 4096) && handlerPermits op.toNat fn.toNat)) &&
      !(unitMissing s.cur op.toNat fn.toNat) && ((formFor op fn f.len).bind (fun r => outside s r f)).isNone &&
      (!(holdsBad (predItems f.pred.toNat) s.cur) && (decide (f.rm ≠ 5#3) || !(holdsBad [badSto] s.cur))) &&
      (elementwise op.toNat fn.toNat || (governing s.cur f).getLsbD 0)
  | none => true

theorem runs_of {i : Instr} {s : State} (h : runsB i s = true) : Runs i s := by
  unfold runsB at h
  unfold Runs
  cases hf : i.fields with
  | none => simp
  | some x =>
    obtain ⟨op, fn, f⟩ := x
    simp only [hf, Bool.and_eq_true, Bool.or_eq_true, Bool.not_eq_true', decide_eq_true_eq, Option.isNone_iff_eq_none] at h
    obtain ⟨⟨⟨⟨h1, h2⟩, h3⟩, h5, h6⟩, h4⟩ := h
    refine ⟨⟨fun hh => ?_, h2, h3, h5, fun hr => h6.resolve_left (fun h => h hr)⟩, ?_⟩
    · rcases h1 with h1 | h1
      · rw [h1] at hh
        cases hh
      · exact h1
    · simpa [FormEnabled] using h4

theorem readable_of {s : State} {n : BitVec 6} {tb : Bool}
    (h : (decide ((regOf s n).st = .full) && (decide ((regOf s n).mark = .clear) || !tb)) = true) : Readable s n tb := by
  simpa [Readable] using h

theorem sound_of {s : State} {items : List Nat} (h : holdsBad items s.cur = false) : Sound items s := h

theorem writable_of {s : State} {n : BitVec 6} (h : (decide (n = 0#6) || decide ((gAt s.cur n).st ≠ .pending)) = true) :
    Writable s n := by
  simpa [Writable] using h

theorem bReadable_of {s : State} {f : Ext} (h : f.hasLit = true) : BReadable s f := Or.inl h

theorem passes_of {c : TCap} {addr size : Nat} {perms : List Nat}
    (h : (c.tag && decide (capType c.val = 0) && decide ((capBounds c.val).1 ≤ addr) && decide (addr + size ≤ (capBounds c.val).2) &&
      perms.all (capHas c.val)) = true) : DerefPasses c addr size perms := by
  simp only [Bool.and_eq_true, decide_eq_true_eq, List.all_eq_true] at h
  exact ⟨h.1.1.1.1, h.1.1.1.2, h.1.1.2, h.1.2, h.2⟩

/-! ## More states -/

/-- The probe's context with a trap entry in the band's cluster store. -/
def trapContext : Ctx := { probeCtx with trapEntry := storeCap 0x4000 }

/-- A session with nothing sent yet. -/
def session : Session := ⟨0#256, 1, 1, 0, none⟩

def trapReady : State := { ready with ctxs := [trapContext] }

def withSession (s : State) : State := { s with dev := { s.dev with session := some session } }

/-- The firing in trap state. -/
def trapped (s : State) : State := { s with cur := { s.cur with trapped := true, tpc := 0x40#64, savedCode := s.cur.code } }

theorem probe_bands : probe.bands ≠ [] := by decide +kernel

theorem probe_cores : probe.cores ≠ [] := by decide +kernel

/-- The probe's band, its instance and its core. -/
def probeBand : Band := probe.bands.head probe_bands

theorem probe_instances : probeBand.instances ≠ [] := by decide +kernel

def probeInstance : Instance := probeBand.instances.head probe_instances

def probeCore : CoreState := probe.cores.head probe_cores

/-- A step's next state, decided by evaluation. -/
def nextIs (x : Host.Outcome State Fault Refusal) (t : State) : Bool :=
  match x with
  | .next u => decide (u = t)
  | _ => false

theorem next_of {x : Host.Outcome State Fault Refusal} {t : State} (h : nextIs x t = true) : x = .next t := by
  cases x <;> simp_all [nextIs]

/-- Memory with the tag of a granule set. -/
def setTag (m : Memory) (k : Nat) : Memory := { m with tags := setAdd m.tags (k / 16) }

/-- A page table that maps the 64 KiB at address 0 to 0x100000, readable and writable. -/
def pageTable (m : Memory) : Memory :=
  (((m.put 4 0x10000 (natBytes 8 (0x20000 + 1))).put 4 0x20000 (natBytes 8 (0x30000 + 1))).put 4 0x30000
    (natBytes 8 (0x40000 + 1))).put 4 0x40000 (natBytes 8 (2 ^ 42 + 0x100000 + 4 + 2))

/-- The probe in a context with that table; g1 a capability for the page, its cursor at 0x200. -/
def pagedWith (det : Bool) : State :=
  setReg 1#6 ⟨makeCap 0xFFFF#16 0 65536 0x200, true⟩
    { ready with ctxs := [{ probeCtx with root := 0x10000#64, det := det }], mem := pageTable ready.mem }

def paged : State := pagedWith false

/-- The store holds bytes at g1's cursor. -/
def filled : State := { ready with mem := ready.mem.put 4 (clusterKey 0 0 0x100) [0x88#8, 0x99#8, 3#8, 4#8, 5#8, 6#8, 7#8, 0xF1#8] }

/-- The word at g1's cursor is full. -/
def fullWord : State := { filled with mem := filled.mem.setFull (clusterKey 0 0 0x100) true }

/-- An operation's answer, decided by evaluation. -/
def okIs {α : Type} [DecidableEq α] (x : Except Exc α) (a : α) : Bool :=
  match x with
  | .ok b => decide (b = a)
  | .error _ => false

theorem ok_of {α : Type} [DecidableEq α] {x : Except Exc α} {a : α} (h : okIs x a = true) : x = .ok a := by
  cases x <;> simp_all [okIs]

def okB {ε α : Type} (x : Except ε α) : Bool :=
  match x with
  | .ok _ => true
  | .error _ => false

theorem ok_exists {ε α : Type} {x : Except ε α} (h : okB x = true) : ∃ a, x = .ok a := by
  cases x <;> simp_all [okB]

theorem ok_state {x : Except Exc (Unit × State)} (h : okB x = true) : ∃ t, x = .ok (⟨⟩, t) := by
  obtain ⟨⟨_, t⟩, h⟩ := ok_exists h
  exact ⟨t, h⟩

theorem error_exists {ε α : Type} {x : Except ε α} (h : okB x = false) : ∃ e, x = .error e := by
  cases x <;> simp_all [okB]

/-- The issuing thread as an agent of its context. -/
def agentIn (c : Ctx) (s : State) : Agent :=
  ⟨c, formBand s s.cur, some s.cur.pos, s.cur.pos.die, s.cur.pos, s.cur.duty, writerOf s.cur, agentId s.cur, [], none, []⟩

theorem curAgent_in {s : State} {c : Ctx} (hc : findCtx s s.cur.fid.ctx = some c) (hw : accessWaits s.cur = false) :
    curAgent s = .ok (agentIn c s, s) := by
  rw [curAgent_spec, hc, hw]
  rfl

/-- An access reaches a place; the state then is t. -/
def reachesB (s : State) (addr size : Nat) (kind : Kind) (checked fmtw : Bool) (p : Place) (t : State) : Bool :=
  match findCtx s s.cur.fid.ctx with
  | some c => !(accessWaits s.cur) && okIs (reach (agentIn c s) addr size kind checked fmtw s) (p, t)
  | none => false

theorem reaches_of {s : State} {addr size : Nat} {kind : Kind} {checked fmtw : Bool} {p : Place} {t : State}
    (h : reachesB s addr size kind checked fmtw p t = true) : Reaches s addr size kind checked fmtw p t := by
  unfold reachesB at h
  split at h
  · rename_i c hc
    simp only [Bool.and_eq_true, Bool.not_eq_true'] at h
    exact ⟨_, curAgent_in hc h.1, ok_of h.2⟩
  · cases h

/-- What reads of an agent give one after the other, and the state after them. -/
def readsFromB (a : Agent) (size : Nat) : List Nat → State → Option (List (List Byte × Bool) × State)
  | [], s => some ([], s)
  | x :: xs, s =>
    match reach a x size .read false false s with
    | .ok (.bytes k _, u) =>
      let m := u.mem.readied (eyeOf s.cur) k size
      if keyIsView k = false ∧ m.firstPoison k size = none then
        (readsFromB a size xs { u with mem := m }).map
          (fun r => ((m.seenBytes (eyeOf s.cur) k size, m.seenTag (eyeOf s.cur) (k / 16)) :: r.1, r.2))
      else none
    | _ => none

theorem readsFrom_of {a : Agent} {size : Nat} {xs : List Nat} {rs : List (List Byte × Bool)} {s t : State}
    (h : readsFromB a size xs s = some (rs, t)) : ReadsFrom a size xs rs s t := by
  induction xs generalizing s rs with
  | nil =>
    cases h
    rfl
  | cons x xs ih =>
    unfold readsFromB at h
    split at h
    · rename_i k leaf u hr
      dsimp only at h
      split at h
      · rename_i hk
        simp only [Option.map_eq_some_iff] at h
        obtain ⟨r, hr', he⟩ := h
        cases he
        exact ⟨u, k, leaf, hr, hk.1, hk.2, rfl, ih hr'⟩
      · cases h
    · cases h

/-- The probe's actor with one input port, whose queue holds one element, and one output port. -/
def portBand : Band :=
  { probeBand with
    packet := { probeBand.packet with depths := [4, 0, 0, 0] }
    actor := ⟨[(1, 7), (0, 0), (0, 0), (0, 0)], [(1, 7), (0, 0), (0, 0), (0, 0)]⟩
    instances := [{ probeInstance with fifos := [[⟨BitVec.ofNat 1024 5, []⟩], [], [], []] }] }

def withPort (s : State) : State := { s with bands := [portBand] }

/-- A record of four elements of eight bytes. -/
def record4 (write : Bool) : StreamRecord := { StreamRecord.zero with
  count0 := 4, count1 := 1, count2 := 1, count3 := 1, stride0 := 8, write := write, esize := 3 }

/-- A slot for 64-bit elements, one for whole vectors, over the store capability. -/
def slot8 (write : Bool) : Slot := { Slot.inactive with active := true, record := record4 write, base := (storeCap 0x100).val }
def slotV (write : Bool) : Slot := { slot8 write with record := { record4 write with stride0 := 128, esize := 7 } }

/-- Slots 0 to 3 of the probe: scalar and vector, in and out. -/
def streaming : State :=
  let t := { filled.cur with v := filled.cur.v.setIfInBounds 5 ⟨5#1024, .full⟩ }
  { filled with cur := setSlot 3 (slotV true) (setSlot 2 (slotV false) (setSlot 1 (slot8 true) (setSlot 0 (slot8 false) t))) }

/-- Memory at g1's cursor holds a direct record. -/
def recorded : State :=
  let ws : List DWord := [0x10#64, 0x0000000200000004#64, 0x0000000100000001#64, 8#64, 0#64, 0x30#64, 0#64, 0#64]
  { ready with mem := ready.mem.put 4 (clusterKey 0 0 0x100) (ws.flatMap (fun w => natBytes 8 w.toNat)) }

/-- g2 a capability for the first 512 bytes of the core's own store, g3 one for the band's store, its cursor at 0x4000. -/
def stashing : State := setReg 2#6 ⟨makeCap 0xFFFF#16 (coreKey 0 0 0 0) 512 (coreKey 0 0 0 0), true⟩
  (setReg 3#6 ⟨makeCap 0xFFFF#16 0x100000 65536 0x104000, true⟩ ready)

def stashCore : CoreState :=
  { probeCore with stash := (some ⟨coreKey 0 0 0 0, 512, 0x104000#64, true, true, 1, []⟩) :: List.replicate 7 none }

def stashed : State := { stashing with cores := [stashCore] }

/-- A barrier for two arrivals at g1's cursor; `n` have come. -/
def barrierState (n : Nat) : State :=
  { ready with mem := ready.mem.put 4 (clusterKey 0 0 0x100) (natBytes 16 (barrierNat ⟨0, 2, n, 0, 0⟩)) }

/-- An operation answers and leaves the state as it was. -/
def answers {α : Type} (x : Except Exc (α × State)) (s : State) : Bool :=
  match x with
  | .ok (_, t) => decide (t = s)
  | .error _ => false

theorem answers_ok {α : Type} {x : Except Exc (α × State)} {s : State} (h : answers x s = true) : ∃ a, x = .ok (a, s) := by
  unfold answers at h
  split at h
  · exact ⟨_, by rw [of_decide_eq_true h]⟩
  · cases h

def nextOr (x : Host.Outcome State Fault Refusal) (d : State) : State :=
  match x with
  | .next u => u
  | _ => d

/-- A deterministic context whose page is a writer region of the probe's gang. -/
def ownedBand : Band := { probeBand with regions := [0x40000] }

def owned : State :=
  let w := entryWithOwner (BitVec.ofNat 64 (2 ^ 42 + 0x100000 + 4 + 2)) (some (0, 0))
  { pagedWith true with bands := [ownedBand], mem := (pagedWith true).mem.put 4 0x40000 (natBytes 8 w.toNat) }

/-- The context and the leaf of the paged probe. -/
def pagedCtx (det : Bool) : Ctx := { probeCtx with root := 0x10000#64, det := det }
def pageLeaf : Leaf := ⟨0x40000, BitVec.ofNat 64 (2 ^ 42 + 0x100000 + 4 + 2), 3⟩

/-- An AMOQ of interval 7 and addend g2 on window 2, and its request. -/
def amoqF : Ext := onExt 4 3 2 0 2

def amoqAsked (s : State) : AmoqMsg := ⟨s.cur.fid, coreOf s.cur.pos, s.cur.pathw, 2, 7, regData s 2, 4, s.nextId, nextPc s.cur amoqF, 0#3, 0, []⟩

/-- The probe's context with window 2 open for intervals of `batch` requests, and that request in the fabric. -/
def windowCtx (batch : Nat) : Ctx :=
  { probeCtx with windows := probeCtx.windows.set 2 ⟨0#64, batch, 7, 65536, [], [], false, []⟩ }

def asking (batch : Nat) : State :=
  { ready with ctxs := [windowCtx batch], net := { ready.net with amoqs := [amoqAsked ready] } }

/-- A copy from g1 to g3's cursor; g2 unused. -/
def copyF (kind : BitVec 4) (length : Nat) : Ext :=
  let imm : Word := 0#16 ++ kind ++ 0#12
  { onExt 4 (if kind = 0#4 then 1 else 0) 0 0 imm with len := 3#2, c := 3#6, lit := BitVec.ofNat 64 length }

/-- g1 the store capability at 0x100, g3 the same at 0x800, g5 indices. -/
def copying : State := setReg 3#6 (storeCap 0x800) filled

/-- The newest transfer of a channel of the current core. -/
def newest (s : State) (channel : Nat) : Option Xfer :=
  match findCore s s.cur.pos with
  | some c => (c.channels.getD channel ⟨2, none, [], [], none⟩).live.getLast?
  | none => none

/-- The probe after that copy was issued, its core, its transfer, and the same once the transfer has retired. -/
noncomputable def issued : State := setData 6#6 2#64 (nextOr (exec (.xcopy (copyF 0 64)) copying) copying)

theorem issued_core : (findCore issued issued.cur.pos).isSome = true := by decide +kernel

noncomputable def issuedCore : CoreState := (findCore issued issued.cur.pos).get issued_core

theorem issued_xfer : (newest issued 0).isSome = true := by decide +kernel

noncomputable def xfer : Xfer := (newest issued 0).get issued_xfer

noncomputable def retiredWith (r : Option CopyFault) : State :=
  let faulted := if r.isSome then [(2, 9)] else []
  { issued with cores := [{ issuedCore with channels := issuedCore.channels.set 0 ⟨3, none, [], faulted, r⟩ }] }

/-- The probe's core. -/
def core0 : Pos := ⟨false, 0, 0, 0, 0⟩

def fenceF (scope : BitVec 3) (mask : BitVec 8) : Ext := { onExt 0 0 0 0 0 with scope := scope, sub := mask }

/-- v1, v2 and v3 data, p1 and p2 patterns, p3 element 0 alone. -/
def vectors : State :=
  let x1 : VWord := BitVec.ofNat 1024 (0x4048F5C3BF8000003F800000C0490FDB * (2 ^ 896 + 2 ^ 768 + 2 ^ 512 + 2 ^ 256 + 1))
  let x2 : VWord := BitVec.ofNat 1024 (0x3E00000040A0000041200000BF000000 * (2 ^ 896 + 2 ^ 640 + 2 ^ 384 + 2 ^ 128 + 1))
  let x3 : VWord := BitVec.ofNat 1024 ((List.range 32).foldr (fun j n => n * 2 ^ 32 + (31 - j)) 0)
  let v := ((filled.cur.v.setIfInBounds 1 ⟨x1, .full⟩).setIfInBounds 2 ⟨x2, .full⟩).setIfInBounds 3 ⟨x3, .full⟩
  let p := ((filled.cur.p.setIfInBounds 1 0x0F0F3335#32).setIfInBounds 2 0x8001C0DE#32).setIfInBounds 3 1#32
  { filled with cur := { filled.cur with v := v, p := p } }

/-- A vector form on v4, v1 and v2 under p1. -/
def vecF (fmt : BitVec 4) : Ext := { onExt 4 1 2 fmt 0 with pred := 1#3 }

/-- The probe as an agent. -/
def vectorAgent : Agent := agentIn probeCtx (begun vectors)

theorem vectorAgent_ok : curAgent (begun vectors) = .ok (vectorAgent, begun vectors) :=
  curAgent_in (by decide +kernel) (by decide +kernel)

/-- A form on v1 and g1's cursor for element 0 alone. -/
def memF (c : BitVec 6) : Ext := { onExt 1 1 0 11 0 with pred := 3#3, c := c }

/-- g1 and g2 operand descriptors: rows of one chunk from offset 0 and from offset 0x1000. -/
def matrixReady : State := setData 1#6 0x0000004000400000#64 (setData 2#6 0x0000004000401000#64 ready)

/-- FP32, K one step. -/
def mmaF (fmt : BitVec 4) (zero : Bool) : Ext :=
  onExt 0 1 2 fmt (BitVec.ofNat 32 (kStep fmt.toNat + if zero then 2 ^ 20 else 0))

/-- The core with a command in its queue. -/
def commanded (q : MatrixCmd) : CoreState := { probeCore with queue := [q] }

def mzeroCmd : MatrixCmd := ⟨.mzero, 0, 0#4, 0#64, 0#64, 0, true, false, probe.cur.fid, 0#32, 0, []⟩

def mmaCmd : MatrixCmd := ⟨.mma, 0, 1#4, 0x0000004000400000#64, 0x0000004000401000#64, 16, true, false, probe.cur.fid, 0#32, 0, []⟩

def granting (q : MatrixCmd) : State := { matrixReady with cores := [commanded q] }

/-- A fault record on tile 0. -/
def faultyCore : CoreState :=
  { probeCore with tiles := probeCore.tiles.set 0 { Tile.zeroed false with
      fault := some { cause := 0x12, kstep := 1, skipped := 0, offset := 0#32, issuers := [probe.cur.fid] } } }

/-- The probe's actor with an input and an output port 0 of 8-byte elements, routed to itself (route word 0): port free, or bound. -/
def selfBand (esize : Nat) : Band :=
  { probeBand with
    packet := { probeBand.packet with depths := [4, 0, 0, 0] }
    actor := ⟨[(esize, 2), (0, 0), (0, 0), (0, 0)], [(esize, 1), (0, 0), (0, 0), (0, 0)]⟩ }

def sending (esize : Nat) : State := { vectors with bands := [selfBand esize] }

/-- The words of a launch packet with ENTRY a sealed entry at the store's offset 0x2000. -/
def packetEntry : TCap := ⟨capWithType (makeCap 0x3FFF#16 (clusterKey 0 0 0) 65536 (clusterKey 0 0 0x2000)) 1, true⟩

def packetWords : List DWord :=
  [packetEntry.val.extractLsb' 0 64, packetEntry.val.extractLsb' 64 64] ++ List.replicate 25 0#64 ++
    [0x0C6E0000#64, 0x0420#64, 0#64, 0#64, 0#64]

/-- Memory at g1's cursor holds that packet; g2 names child 1, and 0x8000000000000000 is the thread's path. -/
def launching : State :=
  let m := setTag (ready.mem.put 4 (clusterKey 0 0 0x100) (packetWords.flatMap (fun w => natBytes 8 w.toNat))) (clusterKey 0 0 0x100)
  { ready with mem := m, cur := { ready.cur with pathw := 0x0000000000000000#64 } }

/-- A handler of a call of this device that expects a reply. -/
def duty0 : HandlerDuty := ⟨probe.cur.fid, 0, 9#32, 0, true, 2, false, 0, 3, 0x100#64, 5, .gang 0 0⟩

def handling : State := { ready with cur := { ready.cur with duty := .handler duty0 } }

/-- RCALL of handler 3 with g2 and g3 as payload and two reply registers from g5. -/
def callF : Ext := onExt 5 1 2 0 0x22003

/-! ### A join tree of two relations in the cluster store -/

def joinCap (offset size : Nat) : TCap :=
  ⟨makeCap 0xFFFF#16 (clusterKey 0 0 offset) size (clusterKey 0 0 offset), true⟩

def capWords (c : TCap) : List DWord := [c.val.extractLsb' 0 64, c.val.extractLsb' 64 64]

/-- An entry of a type descriptor: rows, directory, delta, NROWS and NKEYS, row layout, parent. -/
def entryWords (rows directory delta : TCap) (nrows nkeys : Nat) (layout parent : DWord) : List DWord :=
  capWords rows ++ capWords directory ++ capWords delta ++ [BitVec.ofNat 64 (nrows * 2 ^ 32 + nkeys), layout, parent] ++
    List.replicate 7 0#64

/-- The root has two rows, with the child's key at offset 0; the child has three rows of two keys, its key at offset 0. -/
def joinDescriptor : List DWord :=
  [2#64] ++ List.replicate 7 0#64 ++
    entryWords (joinCap 0x2000 64) (joinCap 0x2100 64) ⟨0#128, false⟩ 2 1 0x0008000000041000#64 0x00000000000000FF#64 ++
    entryWords (joinCap 0x2200 64) (joinCap 0x2300 64) (joinCap 0x2400 16) 3 2 0x0008000000041000#64 0x0000000000000000#64

def words32 (xs : List Nat) : List Byte := xs.flatMap (natBytes 4)

/-- The pass record of relation 1: OWN values, sum and count results. -/
def passCaps (own sums counts : TCap) : List Byte :=
  (capWords own ++ capWords sums ++ capWords counts ++ [0#64, 0#64]).flatMap (fun w => natBytes 8 w.toNat)

/-- g4 names the type in slot 0 at generation 1. -/
def joinType : TCap := ⟨makeType 2 1#16 0 (BitVec.ofNat 64 (clusterKey 0 0 0x1000)), true⟩

def sumsCap : TCap := ⟨makeKpr 0xFFFF#16 1 false 1 1#16 0 (BitVec.ofNat 64 (clusterKey 0 0 0x2600)), true⟩
def countsCap : TCap := ⟨makeKpr 0xFFFF#16 1 true 1 1#16 0 (BitVec.ofNat 64 (clusterKey 0 0 0x2700)), true⟩

def joinMemory (m : Memory) : Memory :=
  let at' (o : Nat) := clusterKey 0 0 o
  let m := m.put 4 (at' 0x1000) (joinDescriptor.flatMap (fun w => natBytes 8 w.toNat))
  let m := m.put 4 (at' 0x2000) (words32 [1, 0, 0, 0])
  let m := m.put 4 (at' 0x2100) (words32 [0, 2])
  let m := m.put 4 (at' 0x2200) (words32 [0, 0x3F800000, 0, 0x40000000, 1, 0x40400000])
  let m := m.put 4 (at' 0x2300) (words32 [0, 2, 3])
  let m := m.put 4 (at' 0x2500) (words32 [0x3F800000, 0x40000000, 0x40400000])
  let m := m.put 4 (at' 0x2800) (passCaps (joinCap 0x2500 64) sumsCap countsCap)
  [0x1040, 0x1050, 0x10C0, 0x10D0, 0x10E0, 0x2800, 0x2810, 0x2820].foldl (fun m o => setTag m (at' o)) m

/-- g1 the descriptor, g4 its type, g5 the storage of sums, g6 the pass record, g7 the sums, g8 the store from 0x3000 on. -/
def joinState : State :=
  let s := { ready with mem := joinMemory ready.mem }
  setReg 1#6 (storeCap 0x1000) (setReg 4#6 joinType (setReg 5#6 (storeCap 0x2600) (setReg 6#6 (joinCap 0x2800 64)
    (setReg 7#6 sumsCap (setReg 8#6 (joinCap 0x3000 64) s)))))

/-- The same with the type loaded in slot 0. -/
def joinRelations : List Relation :=
  [relationOf ((joinDescriptor.drop 8).take 16) [true, true, false], relationOf (joinDescriptor.drop 24) [true, true, true]]

def joinCtx : Ctx := { probeCtx with types := probeCtx.types.set 0 ⟨1#16, joinRelations⟩ }

def joined : State := { joinState with ctxs := [joinCtx] }

/-! ### A Lupin core -/

def lupinPosition : Pos := ⟨true, 0, 0, 0, 0⟩

def lupinBand : Band := { probeBand with packet := { probeBand.packet with lupin := true } }

/-- WIDTH 4, GROUP 2, FP32 in and out, no dequantisation: a parameter block. -/
def parameters : List DWord := [0x0002000400001108#64, 0#64, 0#64, 0#64, 0#64, 0#64, 0#64, 0#64]

def rowSlot (write : Bool) (offset : Nat) : Slot :=
  { Slot.inactive with
    active := true
    record := { record4 write with stride0 := 16, esize := 2 }
    base := makeCap 0xFFFF#16 0 65536 offset }

/-- The probe on a Lupin core, its parameters at g1's cursor, rows of its channel from 0x2000 on. -/
def lupin : State :=
  let t := { paged.cur with pos := lupinPosition }
  { paged with
    cur := setSlot 3 (rowSlot true 0x2040) (setSlot 0 (rowSlot false 0x2000) t)
    bands := [lupinBand]
    cores := [freshCore lupinPosition 0 0]
    mem := (paged.mem.put 4 0x100200 (parameters.flatMap (fun w => natBytes 8 w.toNat))).put 4 0x102000
      (words32 ((List.range 16).map (fun i => 0x3F800000 + i * 0x100000))) }

def lupinUnit : LupinUnit := { freshUnit lupinPosition with params := some (0x0002000400001108#64, 0#64) }

def configured : State := { lupin with units := [lupinUnit] }

/-! ### A reserving loop -/

def entryCap (offset : Nat) : TCap :=
  ⟨capWithType (makeCap 0xFFFF#16 (clusterKey 0 0 0) 65536 (clusterKey 0 0 offset)) 1, true⟩

/-- Three iterations, windows of two, cells at 0x2000. -/
def loopWords : List DWord :=
  capWords (entryCap 0x3040) ++ capWords (entryCap 0x3140) ++ capWords (joinCap 0x2000 256) ++ [0#64, 0#64] ++
    [BitVec.ofNat 64 (3 + 2 ^ 32 + 8 * 2 ^ 46), 0#64] ++ capWords (joinCap 0x2800 64)

/-- The loop record at 0x1000, which g1 names. -/
def looping : State :=
  let m := ready.mem.put 4 (clusterKey 0 0 0x1000) (loopWords.flatMap (fun w => natBytes 8 w.toNat))
  setReg 1#6 (storeCap 0x1000)
    { ready with mem := [0x1000, 0x1010, 0x1020, 0x1050].foldl (fun m o => setTag m (clusterKey 0 0 o)) m }

/-- The loop in a state, with two iterations in its window at epoch 5, `ended` of them ended. -/
def loopIn (state : LoopState) (ended : List Nat) : Loop :=
  { id := 9, ctx := 1, band := 0, gang := 0, pathw := 0#64, ctxw := probe.cur.ctxw, allotw := probe.cur.allotw
    reserveCode := (entryCap 0x3040).val, commitCode := (entryCap 0x3140).val, cells := joinCap 0x2000 256
    guard := ⟨0#128, false⟩, operand := joinCap 0x2800 64, gstride := 8, logw := 1, n := 3, state := state, epoch := 5
    window := [0, 1], nextNew := 2, windowNo := 1, fired := [0, 1], ended := ended, failed := [], rsvIssued := 1, rsvAcked := 1
    faults := [], record := 0#64, committed := 0, set := [], regions := [], clock := [], endClock := [], held := [] }

def loopDuty (commit : Bool) : LoopDuty := ⟨9, 0, 0, commit, false, 0⟩

/-- A firing of the loop; g1 names it, g4 is cell 3, in which memory holds the epoch and iteration 0. -/
def inLoop (commit : Bool) : State :=
  let s := { ready with mem := ready.mem.put 4 (clusterKey 0 0 0x2018) (natBytes 8 (5 * 2 ^ 32)), loops := [loopIn .commit []] }
  let s := { s with cur := { s.cur with duty := .loop (loopDuty commit) } }
  setReg 1#6 (loopInstance 9) (setData 4#6 3#64 s)

/-- The issuing firing with the loop in a state; g1 names it. -/
def ending (state : LoopState) : State := setReg 1#6 (loopInstance 9) { ready with loops := [loopIn state []] }

/-- The firing came back with these items of its saved image poisoned. -/
def tainted (items : List Nat) (s : State) : State := { s with cur := { s.cur with bad := items } }

/-- An operation waits. -/
def waits {α : Type} (x : Except Exc α) : Bool :=
  match x with
  | .error .wait => true
  | _ => false

/-! ## Witnesses: scalar instructions -/

theorem witness_IntegerFormsWriteOperation :
    Runs (.div (on 4 2 3)) ready ∧ Readable ready 2 false ∧ BReadable ready (on 4 2 3).ext ∧ Writable ready 4 ∧
      bData ready (on 4 2 3).ext ≠ 0#64 ∧ Runs (.shlI6 (on 4 2 63)) ready ∧ bData ready (on 4 2 0).ext = 0#64 := by
  repeat' with_reducible apply And.intro
  all_goals first
    | decide +kernel
    | exact runs_of (by decide)
    | exact readable_of (by decide)
    | exact .inr (readable_of (by decide))
    | exact writable_of (by decide)

theorem witness_BitFieldFormsCompute :
    Runs (.clz (on 4 2 0)) ready ∧ Runs (.bfi (onExt 4 2 3 0 0x0614)) ready ∧ Readable ready 2 false ∧ Writable ready 4 :=
  ⟨runs_of (by decide), runs_of (by decide), readable_of (by decide), writable_of (by decide)⟩

theorem witness_ComparesWriteAPredicate :
    Runs (.cmpLt (on 1 2 3)) ready ∧ Readable ready 2 false ∧ BReadable ready (on 1 2 3).ext :=
  ⟨runs_of (by decide), readable_of (by decide), .inr (readable_of (by decide))⟩

theorem witness_MovesAndPredicateFormsComplete :
    Runs (.mov (on 4 1 0)) ready ∧ Runs (.sel (onExt 4 1 3 0 0)) ready ∧ Runs (.li (on 4 0 63)) ready ∧ Runs (.pset (on 2 3 0)) ready ∧
      Readable ready 1 false ∧ Writable ready 4 ∧ PReadable ready 3 ∧ PReadable ready 0 ∧ Runs (.pnot (on 2 3 0)) (tainted [3] ready) ∧
      ¬ PReadable (tainted [3] ready) 3 ∧ PReadable (tainted [3] ready) 0 := by
  repeat' with_reducible apply And.intro
  all_goals first
    | (unfold PReadable Sound; decide +kernel)
    | exact runs_of (by decide)
    | exact readable_of (by decide)
    | exact writable_of (by decide)

/-- g5 the store capability, sealed with type 1. -/
def sealedCap : State := setReg 5#6 ⟨capWithType (storeCap 0x100).val 1, true⟩ ready

theorem witness_CursorMovesKeepTheTagInTheWindow :
    Runs (.cadd (on 4 1 3)) ready ∧ capType (regCap ready 1).val = 0 ∧ Runs (.cadd (on 4 5 3)) sealedCap ∧
      (regCap sealedCap 5).tag = true ∧ capType (regCap sealedCap 5).val ≠ 0 ∧ capExp (storeCap 0).val ≤ 46 := by
  repeat' with_reducible apply And.intro
  all_goals first
    | decide +kernel
    | exact runs_of (by decide)

theorem witness_BoundsFormsNarrow :
    Runs (.cboundx (on 4 1 3)) ready ∧ (regCap ready 1).tag = true ∧
      CboundResult (regData ready 1).toNat (bData ready (on 4 1 3).ext).toNat 0 (clusterKey 0 0 0x100) (clusterKey 0 0 0x107) ∧
      BoundsFit (regCap ready 1).val (bData ready (on 4 1 3).ext).toNat 0 (clusterKey 0 0 0x100) (clusterKey 0 0 0x107) := by
  refine ⟨runs_of (by decide), by decide, ⟨0, by decide, by decide, .inl rfl, by decide, by decide, by decide⟩, ?_⟩
  unfold BoundsFit
  decide

/-- g6 grants SEAL and UNSEAL of type 1. -/
def sealing : State := setReg 6#6 ⟨makeCap 0xFFFF#16 0 16 1, true⟩ sealedCap

theorem witness_CapabilityFormsComplete :
    Runs (.cseal (on 4 1 6)) sealing ∧ Runs (.cunseal (on 4 5 6)) sealing ∧ capType (regCap sealing 5).val = 1 ∧
      (regData sealing 6).toNat = 1 ∧ capHas (regCap sealing 6).val permSEAL = true ∧ capHas (regCap sealing 6).val permUNSEAL = true ∧
      (capBounds (regCap sealing 6).val).1 ≤ 1 ∧ 2 ≤ (capBounds (regCap sealing 6).val).2 ∧ Runs (.cget (on 4 1 7)) sealing := by
  repeat' with_reducible apply And.intro
  all_goals first
    | decide +kernel
    | exact runs_of (by decide)

theorem witness_ScalarFloatFormsComplete :
    Runs (.fadd (onExt 4 2 3 0 0)) ready ∧ Runs (.fcvt { onExt 4 2 0 1 0 with sub := 0x0E#8 }) ready ∧
      Readable ready 2 false ∧ Writable ready 4 :=
  ⟨runs_of (by decide), runs_of (by decide), readable_of (by decide), writable_of (by decide)⟩

theorem witness_RoundingChoosesANeighbour : 0 < (Fp.ofFmt 1).frac ∧ (Fp.ofFmt 1).qmin ≤ (0 : Int) := by decide

theorem witness_BranchesSetThePc :
    Runs (.brp { onExt 0 0 0 0 16 with c := 1#6 }) ready ∧ Runs (.jmpc (on 0 1 0)) ready ∧ (regCap ready 1).tag = true ∧
      capType (regCap ready 1).val ≤ 1 ∧ Runs (.ret (on 0 1 0)) ready ∧ (regData ready 1).extractLsb' 0 2 = 0#2 ∧
      (regData ready 3).extractLsb' 0 2 ≠ 0#2 ∧ PReadable ready 1 ∧ Runs (.brp { onExt 0 0 0 0 16 with c := 1#6 }) (tainted [1] ready) ∧
      ¬ PReadable (tainted [1] ready) 1 := by
  repeat' with_reducible apply And.intro
  all_goals first
    | (unfold PReadable Sound; decide +kernel)
    | decide +kernel
    | exact runs_of (by decide)

theorem witness_LoopCountsDown :
    Runs (.loop (onExt 0 3 0 0 0xFFFFFFE8)) ready ∧ Readable ready 3 false ∧ Writable ready 3 ∧ regData ready 3 ≠ 0#64 ∧
      regData ready 4 = 0#64 :=
  ⟨runs_of (by decide), readable_of (by decide), writable_of (by decide), by decide, by decide⟩

/-! ## Witnesses: traps, system registers, loads and stores -/

theorem witness_EretLeavesTrapState :
    Runs (.eret (on 0 0 0)) (trapped trapReady) ∧ capHas (trapped trapReady).cur.code permSYS = true ∧
      (trapped trapReady).cur.trapped = true ∧ Runs (.eret (on 0 0 0)) ready ∧ ready.cur.trapped = false ∧
      Sound [badTpc, badSaved] (trapped trapReady) ∧ Runs (.eret (on 0 0 0)) (tainted [badTpc] (trapped trapReady)) ∧
      ¬ Sound [badTpc, badSaved] (tainted [badTpc] (trapped trapReady)) :=
  ⟨runs_of (by decide +kernel), by decide +kernel, rfl, runs_of (by decide +kernel), by decide +kernel, sound_of (by decide +kernel),
    runs_of (by decide +kernel), by unfold Sound; decide +kernel⟩

/-- The code capability without SYS. -/
def withoutSys : State := { ready with cur := { ready.cur with code := ready.cur.code &&& ~~~(BitVec.ofNat 128 (2 ^ (112 + permSYS))) } }

theorem witness_SystemRegistersReadAndWrite :
    Runs (.mfs (on 4 15 0)) ready ∧ findCtx ready ready.cur.fid.ctx = some probeCtx ∧
      findCore ready ready.cur.pos = some probeCore ∧ Runs (.mts (on 15 2 0)) ready ∧ Runs (.mts (on 13 2 0)) ready ∧
      capHas ready.cur.code permSYS = true ∧ Runs (.mts (on 13 2 0)) withoutSys ∧ capHas withoutSys.cur.code permSYS = false ∧
      Sound (systemItem 15) ready ∧ Runs (.mfs (on 4 15 0)) (tainted [badFstat] ready) ∧ ¬ Sound (systemItem 15) (tainted [badFstat] ready) := by
  repeat' with_reducible apply And.intro
  all_goals first
    | (unfold Sound; decide +kernel)
    | decide +kernel
    | exact runs_of (by decide +kernel)

theorem witness_FullEmptyForms :
    Runs (.femptyG (on 3 0 0)) ready ∧ Runs (.femptyV (on 3 0 0)) ready ∧ (vAt ready.cur 3).st ≠ .pending ∧
      Runs (.ftestG (on 3 2 0)) ready ∧ Runs (.ftestV (on 3 2 0)) ready ∧ Runs (.ftestV (on 3 28 0)) (withPort ready) := by
  repeat' with_reducible apply And.intro
  all_goals first
    | decide +kernel
    | exact runs_of (by decide +kernel)

theorem witness_EndClosesTheFiring :
    Runs (.endFiring (on 0 0 0)) ready ∧ ready.cur.duty = .firing ∧ findBand ready ready.cur.fid.band = some probeBand ∧
      findInstance probeBand ready.cur.fid.gang ready.cur.fid.inst = some probeInstance ∧ anyPending ready.cur = false ∧
      ready.cur.rcalln = 0 ∧ ready.cur.rcallRecord = none ∧ ready.cur.remoteStores = [] ∧ ready.cur.trapped = false := by
  repeat' with_reducible apply And.intro
  all_goals first
    | decide +kernel
    | exact runs_of (by decide +kernel)

theorem witness_LoadsReadTheirBytes :
    Runs (.ldI16 (on 4 1 0)) filled ∧ Runs (.lda64 (on 4 1 0)) filled ∧ Runs (.ldc (on 4 1 0)) filled ∧
      DerefPasses (regCap filled 1) (clusterKey 0 0 0x100) 16 [permLD] ∧
      Reaches (begun filled) (clusterKey 0 0 0x100) 16 .read false false (.bytes (clusterKey 0 0 0x100) none) (begun filled) ∧
      acquireAt 0 (.bytes (clusterKey 0 0 0x100) none) 8 (begun filled) = .ok (⟨⟩, begun filled) ∧
      keyIsView (clusterKey 0 0 0x100) = false ∧
      (filled.mem.readied (eyeOf filled.cur) (clusterKey 0 0 0x100) 16).firstPoison (clusterKey 0 0 0x100) 16 = none := by
  repeat' with_reducible apply And.intro
  all_goals first
    | decide +kernel
    | exact runs_of (by decide +kernel)
    | exact passes_of (by decide +kernel)
    | exact reaches_of (by decide +kernel)
    | exact ok_of (by decide +kernel)

theorem witness_StoresWriteTheirBytes :
    Runs (.st32 (on 2 1 0)) filled ∧ Runs (.stl64 (on 2 1 0)) filled ∧ Runs (.stc (on 1 1 0)) filled ∧
      DerefPasses (regCap filled 1) (clusterKey 0 0 0x100) 16 [permST, permSTCAP] ∧
      Reaches (begun filled) (clusterKey 0 0 0x100) 16 .write true (capHas (regCap filled 1).val permFMTW)
        (.bytes (clusterKey 0 0 0x100) none) (begun filled) ∧
      filled.mem.wf = true ∧ NoViews (clusterKey 0 0 0x100) filled.mem := by
  repeat' with_reducible apply And.intro
  all_goals first
    | decide +kernel
    | exact runs_of (by decide +kernel)
    | exact passes_of (by decide +kernel)
    | exact reaches_of (by decide +kernel)
    | exact .inl (by decide +kernel)

theorem witness_AccessesReachStoresAndPages :
    findCtx paged paged.cur.fid.ctx = some (pagedCtx false) ∧ walk paged.mem (pagedCtx false) 0x200 = some pageLeaf ∧
      entryMigrating pageLeaf.word = false ∧ entryPlace pageLeaf.word = false ∧ entryRead pageLeaf.word = true ∧
      entryPhys pageLeaf.word + 0x200 < 2 ^ 41 ∧ copyOwned paged (some paged.cur.pos) 0x100200 8 = false ∧ accessWaits paged.cur = false ∧
      resolveAperture probe 1 (some probeBand) (some probe.cur.pos) (clusterKey 0 0 0x100) 8 = .ok (.bytes (clusterKey 0 0 0x100) none) ∧
      stashOf probe (clusterKey 0 0 0x100) 8 = none ∧ scoreboarded probe probe.cur.pos (clusterKey 0 0 0x100) 8 = false ∧
      probeBand.packet.lupin = false ∧ probeBand.places[0]? = some ⟨0, [0], 0⟩ := by
  repeat' with_reducible apply And.intro
  all_goals decide +kernel

theorem witness_FullEmptyWordsSynchronise :
    Runs (.ldf (on 4 1 0)) fullWord ∧ Reaches (begun fullWord) (clusterKey 0 0 0x100) 4 .read false false
        (.bytes (clusterKey 0 0 0x100) none) (begun fullWord) ∧
      keyIsCluster (clusterKey 0 0 0x100) = true ∧ fullWord.mem.isFull (clusterKey 0 0 0x100) = true ∧
      waitsAhead fullWord.mem.waiters (agentId fullWord.cur) (clusterKey 0 0 0x100) true = false ∧
      fullWord.mem.firstPoison (clusterKey 0 0 0x100) 4 = none ∧ Runs (.ste (on 2 1 0)) filled ∧
      Reaches (begun filled) (clusterKey 0 0 0x100) 4 .write true false (.bytes (clusterKey 0 0 0x100) none) (begun filled) ∧
      filled.mem.isFull (clusterKey 0 0 0x100) = false ∧ DerefPasses (regCap filled 1) (clusterKey 0 0 0x100) 4 [permLD, permST] := by
  repeat' with_reducible apply And.intro
  all_goals first
    | decide +kernel
    | exact runs_of (by decide +kernel)
    | exact reaches_of (by decide +kernel)
    | exact passes_of (by decide +kernel)

/-! ## Witnesses: streams, lines, atomics and barriers -/

/-- Slot n has given its next element. -/
def afterElement (n : Nat) (s : State) : State := { s with cur := setSlot n ((slotAt s.cur n).advance false) s.cur }

/-- Words that a thread reads at a store one after another, without a change of its state. -/
def readsWordsB (s : State) : Nat → List DWord → Bool
  | _, [] => true
  | a, w :: rest =>
    reachesB s a 8 .read false false (.bytes a none) s && !(keyIsView a) && decide (s.mem.readied (eyeOf s.cur) a 8 = s.mem) &&
      (s.mem.firstPoison a 8).isNone && decide (w = BitVec.ofNat 64 (bytesNat (s.mem.seenBytes (eyeOf s.cur) a 8))) &&
      readsWordsB s (a + 8) rest

theorem readsWords_of {s : State} {a : Nat} {ws : List DWord} (h : readsWordsB s a ws = true) : ReadsWords a ws s s := by
  induction ws generalizing a with
  | nil => rfl
  | cons w rest ih =>
    simp only [readsWordsB, Bool.and_eq_true, Bool.not_eq_true', decide_eq_true_eq, Option.isNone_iff_eq_none] at h
    obtain ⟨⟨⟨⟨⟨h1, h2⟩, h3⟩, h4⟩, h5⟩, h6⟩ := h
    exact ⟨s, a, none, reaches_of h1, h2, by rw [h3, h4], by rw [h3, h5], by rw [h3]; exact ih h6⟩

/-- The record that memory holds for SLOAD. -/
def recordWords0 : List DWord := [0x10#64, 0x0000000200000004#64, 0x0000000100000001#64, 8#64, 0#64, 0x30#64, 0#64, 0#64]

theorem witness_StreamFormsComplete :
    Runs (.sldG (on 4 0 0)) streaming ∧ SlotServes streaming 0 false (· ≤ 3) ∧
      nextElement 0 (begun streaming) = .ok (clusterKey 0 0 0x100, afterElement 0 (begun streaming)) ∧
      Reaches (afterElement 0 (begun streaming)) (clusterKey 0 0 0x100) 8 .read false false
        (.bytes (clusterKey 0 0 0x100) none) (afterElement 0 (begun streaming)) ∧
      DerefPasses ⟨(slotAt streaming.cur 0).base, true⟩ (clusterKey 0 0 0x100) 8 [permLD] ∧
      Runs (.sldV (on 4 2 0)) streaming ∧ SlotServes streaming 2 false (· = 7) ∧ Runs (.sstG (on 2 1 0)) streaming ∧
      SlotServes streaming 1 true (· ≤ 3) ∧ Runs (.sstV (on 5 3 0)) streaming ∧ SlotServes streaming 3 true (· = 7) ∧
      (vAt streaming.cur 5).st = .full ∧ Runs (.sload (on 6 1 1)) recorded ∧
      ReadsWords (clusterKey 0 0 0x100) recordWords0 (begun recorded) (begun recorded) ∧
      recordClean recordWords0 = true ∧ (recordOf recordWords0).ind = false ∧ (recordOf recordWords0).isize ≠ 3#2 := by
  repeat' with_reducible apply And.intro
  all_goals first
    | decide +kernel
    | exact runs_of (by decide +kernel)
    | (unfold SlotServes SlotReadable Sound; decide +kernel)
    | exact ok_of (by decide +kernel)
    | exact reaches_of (by decide +kernel)
    | exact passes_of (by decide +kernel)
    | exact readsWords_of (by decide +kernel)

theorem witness_LineFormsAndWriterRegionsComplete :
    Runs (.stash (on 0 2 3)) stashing ∧ findCore stashing stashing.cur.pos = some probeCore ∧
      ownCoreKey (begun stashing) (capBounds (regCap stashing 2).val).1 512 = some (coreKey 0 0 0 0) ∧
      DerefPasses (regCap stashing 3) 0x104000 512 [permLD] ∧ Runs (.unstash (on 0 0 0)) stashed ∧
      findCore stashed stashed.cur.pos = some stashCore ∧ stashCore.stash.getD 1 none = none ∧ Runs (.stashwb (on 0 0 0)) stashed ∧
      Runs (.pref (on 0 1 0)) filled ∧ Runs (.clzero (on 0 1 0)) filled ∧ Runs (.clwb (on 0 1 0)) paged ∧
      DerefPasses (regCap paged 1) 0x200 128 [permLD, permST] ∧
      Reaches (begun paged) 0x200 128 .read false false (.bytes 0x100200 (some 0x40000)) (begun paged) ∧
      Runs (.handover (on 0 1 4)) owned ∧ findCtx owned owned.cur.fid.ctx = some (pagedCtx true) ∧
      translateIn (pagedCtx true) (some ownedBand) (some owned.cur.pos) owned.cur.pos.die [] 0x200 1 .fetch (begun owned) =
        .ok (.bytes 0x100200 (some 0x40000), begun owned) ∧
      ownsRegion (begun owned) 0x40000 (.gang 0 0) = true ∧ Runs (.ownq (on 4 1 0)) owned ∧ Runs (.clinv (on 0 1 0)) paged ∧
      (∀ c ∈ (begun paged).cores, ∀ x ∈ c.stash, x = none) := by
  repeat' with_reducible apply And.intro
  all_goals first
    | decide +kernel
    | exact runs_of (by decide +kernel)
    | exact passes_of (by decide +kernel)
    | exact reaches_of (by decide +kernel)
    | exact ok_of (by decide +kernel)

/-- An atomic on g1's cursor with g2. -/
def amoOn (fmt : BitVec 4) (sub : BitVec 8) : Ext := { onExt 4 1 2 fmt 0 with sub := sub }

theorem witness_AtomicsReplaceTheirLocation :
    Runs (.amo (amoOn 13 8)) filled ∧ Runs (.amocas { amoOn 11 0 with c := 3#6 }) filled ∧ Runs (.amon (amoOn 12 0)) filled ∧
      Runs (.amof (amoOn 1 0)) filled ∧ Runs (.amof (amoOn 0 1)) filled ∧ findCtx filled filled.cur.fid.ctx = some probeCtx ∧
      probeCtx.det = false ∧ DerefPasses (regCap filled 1) (clusterKey 0 0 0x100) 8 [permLD, permST] ∧
      Reaches (begun filled) (clusterKey 0 0 0x100) 8 .write true (capHas (regCap filled 1).val permFMTW)
        (.bytes (clusterKey 0 0 0x100) none) (begun filled) ∧
      filled.mem.firstPoison (clusterKey 0 0 0x100) 8 = none ∧ Runs (.amo (amoOn 13 8)) owned ∧ (pagedCtx true).det = true := by
  repeat' with_reducible apply And.intro
  all_goals first
    | rfl
    | decide +kernel
    | exact runs_of (by decide +kernel)
    | exact passes_of (by decide +kernel)
    | exact reaches_of (by decide +kernel)

theorem witness_BarriersCountArrivals :
    Runs (.binit (on 0 1 3)) (barrierState 0) ∧ Runs (.barr (on 4 1 0)) (barrierState 0) ∧ Runs (.barrx (on 4 1 3)) (barrierState 1) ∧
      Runs (.bwait (on 0 1 3)) (barrierState 1) ∧ Runs (.btest (on 4 1 3)) (barrierState 1) ∧ Runs (.bbytes (on 0 1 3)) (barrierState 1) ∧
      ReachesBarrier (barrierState 1) (on 4 1 0).ext .write (clusterKey 0 0 0x100) (begun (barrierState 1)) ∧
      ReachesBarrier (barrierState 1) (on 4 1 3).ext .read (clusterKey 0 0 0x100) (begun (barrierState 1)) ∧
      (barrierAt (barrierState 1).mem (clusterKey 0 0 0x100)) = ⟨0, 2, 1, 0, 0⟩ ∧
      (barrierAt (barrierState 2).mem (clusterKey 0 0 0x100)).arrived = 2 ∧ (regData (barrierState 1) 3).toNat % 2 = 1 ∧
      (regData (barrierState 1) 2).toNat % 2 = 0 := by
  repeat' with_reducible apply And.intro
  all_goals first
    | decide +kernel
    | exact runs_of (by decide +kernel)
    | exact ⟨none, passes_of (by decide +kernel), by decide +kernel, reaches_of (by decide +kernel), by decide +kernel⟩

/-! ## Witnesses: ordered atomics, copies, fences -/

theorem witness_OrderedAtomicsAreAnsweredByTheirWindow :
    Runs (.amoq amoqF) { ready with ctxs := [windowCtx 1] } ∧ amoqRequest ready amoqF (amoqAsked ready) ∧
      (asking 0).net.amoqs[0]? = some (amoqAsked ready) ∧ WindowRefuses (windowCtx 0).windows[2] (amoqAsked ready) ∧
      ¬ WindowRefuses (windowCtx 2).windows[2] (amoqAsked ready) ∧ (windowCtx 2).windows[2].held = [] ∧
      WindowTakes (windowCtx 2).windows[2] (amoqAsked ready) ∧ (amoqAsked ready).interval = (windowCtx 1).windows[2].next ∧
      [amoqAsked ready].Perm (((windowCtx 1).windows[2].accepted ++ [amoqAsked ready]).filter
        (fun x => x.interval == (windowCtx 1).windows[2].next)) := by
  repeat' with_reducible apply And.intro
  all_goals first
    | decide +kernel
    | exact runs_of (by decide +kernel)
    | (unfold amoqRequest; decide +kernel)
    | (unfold WindowTakes WindowRefuses; decide +kernel)
    | (unfold WindowRefuses; decide +kernel)

theorem witness_CopiesTakeTheNextIdentifier :
    Runs (.xcopy (copyF 0 64)) copying ∧ Runs (.xcopyt (copyF 1 64)) copying ∧ CopyFieldsLegal (copyF 0 64) (bData copying (copyF 0 64)) ∧
      DerefPasses (regCap copying 1) (clusterKey 0 0 0x100) 64 [permLD, permXFER] ∧
      DerefPasses (regCap copying 3) (clusterKey 0 0 0x800) 64 [permST, permXFER] ∧
      (∃ src, absoluteAddress (clusterKey 0 0 0x100) (begun copying) = .ok (src, begun copying)) ∧
      (∃ dst, absoluteAddress (clusterKey 0 0 0x800) (begun copying) = .ok (dst, begun copying)) ∧
      CopyRoom probeCore true ∧ Runs (.xcopy (copyF 2 0)) (setReg 3#6 (storeCap 0x800) streaming) ∧
      (slotAt streaming.cur 0).active = true ∧ (slotAt streaming.cur 0).record.write = false ∧
      Runs (.xgath { onExt 4 1 5 0 (0x20000004#32) with c := 3#6 }) (setReg 5#6 (storeCap 0x400) copying) ∧ SlotReadable streaming 0 ∧
      (∃ x, absoluteAddress (capAddr (slotAt streaming.cur 0).base) (begun (setReg 3#6 (storeCap 0x800) streaming)) =
        .ok (x, begun (setReg 3#6 (storeCap 0x800) streaming))) := by
  repeat' with_reducible apply And.intro
  all_goals first
    | (unfold SlotReadable Sound; decide +kernel)
    | decide +kernel
    | exact runs_of (by decide +kernel)
    | (unfold CopyFieldsLegal; decide +kernel)
    | exact passes_of (by decide +kernel)
    | exact answers_ok (by decide +kernel)
    | (unfold CopyRoom; decide +kernel)

theorem witness_CopyCompletionFormsComplete :
    Runs (.xwait (on 0 0 6)) issued ∧ Runs (.xwaitExt (onExt 0 0 6 0 0)) issued ∧ findCore issued issued.cur.pos = some issuedCore ∧
      (namedChannel issuedCore (on 0 0 6).ext).done ≤ 2 ∧ Runs (.xstat (on 4 0 6)) issued ∧ Runs (.xstatExt (onExt 4 0 6 0 0)) issued ∧
      Runs (.xcancel (on 0 0 6)) issued ∧ Runs (.xcancelExt (onExt 0 0 6 0 0)) issued ∧ Runs (.xwait (on 0 0 6)) (retiredWith none) := by
  repeat' with_reducible apply And.intro
  all_goals first
    | decide +kernel
    | exact runs_of (by decide +kernel)

/-- The issued copy once it has started, and a barrier to count it off. -/
noncomputable def copyAgent : Agent := xferAgent (startXfer core0 0 2 issued) probeCtx core0 0 xfer

/-- The same copy to another device. -/
noncomputable def awayXfer : Xfer := { xfer with destAt := 0x0004000000000000#64 }

noncomputable def awayCopy : State :=
  { issued with cores := [{ issuedCore with channels := issuedCore.channels.set 0 ⟨3, some 2, [awayXfer], [], none⟩ }] }

theorem witness_CopiesLandAndComplete :
    PacketOwed awayCopy core0 0 2 0 awayXfer ∧ awayXfer.destAt.toNat / 2 ^ 50 ≠ awayCopy.dev.number ∧
      xfer.destAt.toNat / 2 ^ 50 = issued.dev.number ∧ xfer.sourceAt.toNat / 2 ^ 50 = issued.dev.number ∧ xfer.bases = [] ∧
      clocked issued = true ∧ PacketOwed issued core0 0 2 0 xfer ∧ xfer.land = none ∧ findCtx issued xfer.issuer.ctx = some probeCtx ∧
      xfer.kind = 0 ∧ xfer.packetRange 0 = (clusterKey 0 0 0x800, 64) ∧ issued.mem.wf = true ∧ NoViews (clusterKey 0 0 0x800) issued.mem ∧
      okIs ((sourceBytes copyAgent xfer 0 64 (startXfer core0 0 2 issued)).map (fun x => x.1.length)) 64 = true ∧
      okIs (reach copyAgent (clusterKey 0 0 0x100) 64 .read false false (startXfer core0 0 2 issued))
        (.bytes (clusterKey 0 0 0x100) none, startXfer core0 0 2 issued) = true ∧
      okIs (reach copyAgent (clusterKey 0 0 0x800) 64 .write true (capHas xfer.dest permFMTW) (startXfer core0 0 2 issued))
        (.bytes (clusterKey 0 0 0x800) none, startXfer core0 0 2 issued) = true := by
  repeat' with_reducible apply And.intro
  all_goals first
    | decide +kernel
    | (unfold PacketOwed; decide +kernel)
    | (unfold NoViews; decide +kernel)

/-- A store to another device that nothing has answered yet, or that failed. -/
def storing (failed : Bool) : State := { ready with cur := { ready.cur with remoteStores := [⟨4, 0x0004000000000000#64, failed, false, 0⟩], rcalln := 1 } }

theorem witness_FencesOrderEarlierAccesses :
    Runs (.fence (fenceF 4 0)) ready ∧ AllAnswered ready ∧ Runs (.fencex (fenceF 2 7)) ready ∧
      findCore ready ready.cur.pos = some probeCore ∧ EnginesIdle ready (fenceF 2 7) probeCore ∧
      Runs (.fencex (fenceF 2 1)) issued ∧ xfer.issuer = issued.cur.fid ∧ Runs (.fence (fenceF 4 0)) (storing true) ∧
      (∀ x ∈ (storing true).cur.remoteStores, x.failed = true) ∧ (∀ x ∈ (storing true).cur.inFlight, x.away = none) ∧ (∃ r ∈ (storing false).cur.remoteStores, r.failed = false) ∧
      Runs (.fencex (fenceF 2 4)) (storing true) := by
  refine ⟨runs_of (by decide +kernel), ⟨by decide +kernel, by decide +kernel⟩, runs_of (by decide +kernel), by decide +kernel, ?_,
    runs_of (by decide +kernel), by decide +kernel, runs_of (by decide +kernel), by decide +kernel, by decide +kernel, by decide +kernel,
    runs_of (by decide +kernel)⟩
  refine ⟨fun _ => ⟨by decide +kernel, fun n r hn h => ?_⟩, fun _ => ⟨by decide +kernel, fun n r hn h => ?_⟩, fun _ => by decide +kernel⟩
  · have : ∀ n, n < 4 → (probeCore.channels.getD n ⟨2, none, [], [], none⟩).record = none := by decide +kernel
    rw [this n hn] at h
    cases h
  · have : ∀ n, n < 8 → (tileAt probeCore n).fault = none := by decide +kernel
    rw [this n hn] at h
    cases h

/-! ## Witnesses: vectors -/

theorem witness_VectorElementwiseFormsCompute :
    Runs (.vadd (vecF 1)) vectors ∧ (vAt vectors.cur 1).st = .full ∧ (vAt vectors.cur 2).st = .full ∧
      readV 1#6 false (begun vectors) = .ok ((vAt vectors.cur 1).val, begun vectors) ∧
      readV 2#6 false (begun vectors) = .ok ((vAt vectors.cur 2).val, begun vectors) ∧ VWritable (begun vectors) 4#6 ∧
      Runs (.vfma { vecF 1 with c := 3#6 }) vectors ∧ Runs (.viadd (vecF 7)) vectors ∧ Runs (.vrnmul (vecF 14)) vectors ∧
      (withPort ready).cur.popped.getD 0 0 < inRate portBand 0 ∧ bandOf (withPort ready) (withPort ready).cur = some portBand := by
  repeat' with_reducible apply And.intro
  all_goals first
    | decide +kernel
    | exact runs_of (by decide +kernel)
    | exact ok_of (by decide +kernel)
    | (unfold VWritable; decide +kernel)

/-- The FP32 codes of infinity, −0, −2 and 4. -/
theorem decoded_points :
    (Fp.ofFmt 1).decode 0x7F800000 = .inf false ∧ (Fp.ofFmt 1).decode 0x80000000 = .fin true 0 (-149) ∧
      (Fp.ofFmt 1).decode 0xC0000000 = .fin true 0x800000 (-22) ∧ (Fp.ofFmt 1).decode 0x40800000 = .fin false 0x800000 (-21) := by
  decide +kernel

theorem real_four : realOf false 0x800000 (-21) = 4 := by
  norm_num [realOf, zpow_neg]

theorem witness_TranscendentalsTakeTheirExactPoints :
    (1 : Nat) ≤ 1 ∧ (Fp.ofFmt 1).decode 0x7F800000 = .inf false ∧ (Fp.ofFmt 1).decode 0x80000000 = .fin true 0 (-149) ∧
      (Fp.ofFmt 1).decode 0xC0000000 = .fin true 0x800000 (-22) ∧ (Fp.ofFmt 1).decode 0x40800000 = .fin false 0x800000 (-21) ∧
      realOf false 0x800000 (-21) = (2 : ℝ) ^ (2 : Int) ∧ realOf false 0x800000 (-21) = (4 : ℝ) ^ (1 : Int) ∧
      realOf false 0x800000 (-21) = ((4 : Int) : ℝ) ∧ (Fp.ofFmt 1).qmin ≤ -2 ∧ (4 : Int) ≤ (Fp.ofFmt 1).bias := by
  refine ⟨le_refl 1, decoded_points.1, decoded_points.2.1, decoded_points.2.2.1, decoded_points.2.2.2, ?_, ?_, ?_, by decide +kernel,
    by decide +kernel⟩ <;> rw [real_four] <;> norm_num

theorem witness_TranscendentalsStayWithinTheirBounds :
    (1 : Nat) ≤ 1 ∧ (Fp.ofFmt 1).decode 0x40800000 = .fin false 0x800000 (-21) ∧ (0x800000 : Nat) ≠ 0 :=
  ⟨le_refl 1, decoded_points.2.2.2, by decide⟩

theorem witness_VectorComparesAndMovesComplete :
    Runs (.vcmp { vecF 13 with d := 2#6, sub := 7#8 }) vectors ∧ Runs (.vfcmp { vecF 1 with d := 2#6, sub := 2#8 }) vectors ∧
      Runs (.vsel { vecF 9 with c := 2#6 }) vectors ∧ Runs (.vsort { vecF 11 with b := 0#6, pred := 0#3 }) vectors ∧
      Runs (.vpopc { onExt 4 0 0 9 0 with pred := 1#3, c := 2#6 }) vectors ∧ Runs (.vmovg (onExt 4 1 0 9 7)) vectors ∧
      readV 1#6 false (begun vectors) = .ok ((vAt vectors.cur 1).val, begun vectors) ∧ PReadable vectors 2 := by
  repeat' with_reducible apply And.intro
  all_goals first
    | exact runs_of (by decide +kernel)
    | exact ok_of (by decide +kernel)
    | (unfold PReadable Sound; decide +kernel)

/-- FP32 to FP16, part 1. -/
def convertF : Ext := { onExt 4 1 0 2 1 with pred := 1#3, sub := 1#8 }

theorem witness_VectorConversionsAndReductionsComplete :
    Runs (.vcvt convertF) vectors ∧
      (∀ j, j < 64 → governs vectors convertF 16 j = true →
        ((convertSource vectors convertF 32 16 j).map (fun i =>
          (convert 1 2 (Rm.ofCode 0) false 0 (element (vAt vectors.cur 1).val 32 i)).isSome)) ≠ some false) ∧
      Runs (.vred { onExt 4 1 0 11 0 with pred := 1#3 }) vectors ∧ Runs (.vscan { onExt 4 1 0 11 0 with pred := 1#3 }) vectors ∧
      Runs (.vsegsum { onExt 4 1 0 11 0 with c := 2#6 }) vectors ∧ Runs (.vrncvt { onExt 4 1 0 13 0 with pred := 1#3 }) vectors ∧ PReadable vectors 2 := by
  repeat' with_reducible apply And.intro
  all_goals first
    | (unfold PReadable Sound; decide +kernel)
    | decide +kernel
    | exact runs_of (by decide +kernel)

theorem reaches_element (perm : Nat) (kind : Kind)
    (h : okIs (reach vectorAgent (clusterKey 0 0 0x100) 4 kind true (capHas (regCap vectors 1).val permFMTW) (begun vectors))
      (.bytes (clusterKey 0 0 0x100) none, begun vectors) = true)
    (hp : DerefPasses (regCap vectors 1) (clusterKey 0 0 0x100) 4 [perm]) :
    ReachesAll vectorAgent (regCap vectors 1) (consecutiveAt (memF 0) vectors) 4 perm kind [0] [clusterKey 0 0 0x100]
      (begun vectors) (begun vectors) := by
  have h0 : consecutiveAt (memF 0) vectors 0 = clusterKey 0 0 0x100 := by decide +kernel
  unfold ReachesAll
  rw [h0]
  exact ⟨hp, by decide +kernel, by decide +kernel, none, begun vectors, ok_of h, rfl⟩

theorem witness_VectorMemoryFormsAccessGovernedElements :
    Runs (.vld (memF 0)) vectors ∧ accessed vectors (memF 0) = [0] ∧
      ReachesAll vectorAgent (regCap vectors 1) (consecutiveAt (memF 0) vectors) 4 permLD .read [0] [clusterKey 0 0 0x100]
        (begun vectors) (begun vectors) ∧
      ReachesAll vectorAgent (regCap vectors 1) (consecutiveAt (memF 0) vectors) 4 permST .write [0] [clusterKey 0 0 0x100]
        (begun vectors) (begun vectors) ∧
      curAgent (begun vectors) = .ok (vectorAgent, begun vectors) ∧ Runs (.vstx (memF 3)) vectors ∧ indexReads (memF 3) vectors ∧
      Runs (.stbm (vecF 11)) vectors ∧ Runs (.ldbm { vecF 11 with b := 0#6 }) vectors ∧
      recordSize vectors (vecF 11) (keptElements vectors (vecF 11) (vAt vectors.cur 2).val).length ≤ 8 * 16 := by
  repeat' with_reducible apply And.intro
  all_goals first
    | decide +kernel
    | exact runs_of (by decide +kernel)
    | exact reaches_element _ _ (by decide +kernel) (passes_of (by decide +kernel))
    | exact vectorAgent_ok
    | (unfold indexReads; decide +kernel)

/-! ## Witnesses: matrix, actors, remote calls -/

theorem witness_MatrixFormsComplete :
    Runs (.mma (mmaF 1 true)) matrixReady ∧ gangStore probeBand 0 = some (clusterKey 0 0 0, 65536) ∧
      DescriptorFits (regData matrixReady 1) 1 16 65536 false ∧ DescriptorFits (regData matrixReady 2) 1 16 65536 false ∧
      TileUsable matrixReady probeCore 0 false ∧ Runs (.mmas (onExt 0 1 2 2 (64 + 2 ^ 20))) matrixReady ∧
      Runs (.mmar (mmaF 7 true)) matrixReady ∧ TileUsable matrixReady probeCore 0 true ∧ Runs (.mzero (onExt 0 0 0 0 1)) matrixReady ∧
      SoleRequest (granting mmaCmd) 0 0 (commanded mmaCmd) (clusterKey 0 0 0, 65536) mmaCmd [] ∧
      Runs (.mrd (onExt 0 1 0 1 256)) ready ∧ TileIdle probeCore 0 ∧ TileRange (regCap ready 1) 256 4 permST ∧
      Runs (.mwr (onExt 0 1 0 14 512)) ready ∧ TileRange (regCap ready 1) 512 8 permLD ∧ Runs (.mrqt (onExt 0 1 0 4 0)) matrixReady ∧
      Runs (.mwait (on 0 0 0)) ready ∧ Runs (.mqstat (on 4 0 0)) ready ∧ (tileAt faultyCore 0).fault.isSome = true := by
  repeat' with_reducible apply And.intro
  all_goals first
    | decide +kernel
    | exact runs_of (by decide +kernel)
    | (unfold DescriptorFits; decide +kernel)
    | (unfold TileUsable; decide +kernel)
    | (unfold TileIdle; decide +kernel)
    | exact ⟨List.mem_singleton.2 rfl, by decide +kernel, fun c hc hn => absurd (List.mem_singleton.1 hc) hn, rfl, by decide +kernel,
        by decide +kernel⟩
    | exact ⟨by decide, by decide, passes_of (by decide +kernel), by decide +kernel⟩

/-- The granules of a launch packet at g1's cursor. -/
def packetAddrs : List Nat := (List.range 16).map (fun i => clusterKey 0 0 0x100 + 16 * i)

/-- The packet of `launching`. -/
def launchPacket : Packet := packetOf packetWords ((List.range 16).map (fun i => i == 0))

def packetReads : List (List Byte × Bool) :=
  (List.range 16).map (fun i => ((((packetWords.drop (2 * i)).take 2).flatMap (fun w => natBytes 8 w.toNat)), i == 0))

theorem launching_reads : PacketRead launching (onExt 0 1 0 0 0) packetWords launchPacket (begun launching) :=
  ⟨agentIn probeCtx (begun launching), packetReads, readable_of (by decide +kernel), passes_of (by decide +kernel), by decide +kernel,
    curAgent_in (by decide +kernel) (by decide +kernel), readsFrom_of (xs := packetAddrs) (by decide +kernel), by decide +kernel,
    by decide +kernel⟩

/-- Children 1 and 2 have been spawned and have exited; g2 names them, g1 the words. -/
def joinBand : Band := { probeBand with spawned := [1, 2], exited := [(1, [0, 0, 0, 0, 3]), (2, [])] }

def joining : State := { setData 2#6 6#64 filled with bands := [joinBand] }

/-- The joining thread once it follows what its children did. -/
def joinFollows : State := followed ((joinBand.exited.map (·.2)).foldl clockMerge []) (begun joining)

theorem joining_loads : LoadsWords (regCap joining 1) [clusterKey 0 0 0x108, clusterKey 0 0 0x110] [0, 0] joinFollows joinFollows := by
  refine ⟨joinFollows, clusterKey 0 0 0x108, none, passes_of (by decide +kernel), by decide +kernel, reaches_of (by decide +kernel),
    by decide +kernel, by decide +kernel, by decide +kernel, joinFollows, clusterKey 0 0 0x110, none, passes_of (by decide +kernel),
    by decide +kernel, reaches_of (by decide +kernel), by decide +kernel, by decide +kernel, by decide +kernel, rfl⟩

theorem witness_ActorFormsComplete :
    Runs (.send (onExt 2 0 0 0 0)) (sending 3) ∧ FiringOf (sending 3) (selfBand 3) probeInstance ∧
      routeTarget (selfBand 3) 0#64 = some probeInstance ∧ inEsize (selfBand 3) 0 = outEsize (selfBand 3) 0 ∧
      Runs (.sendv (onExt 1 0 0 0 0)) (sending 7) ∧ Runs (.pcount (on 4 4 0)) (withPort ready) ∧ outRate portBand 0 ≠ 0 ∧
      Runs (.launch (onExt 0 1 0 0 0)) launching ∧
      packetFault packetWords launchPacket false
        (descriptorWords launching probeCtx (bandOf launching launching.cur) launchPacket.entry.val) = none ∧
      PacketRead launching (onExt 0 1 0 0 0) packetWords launchPacket (begun launching) ∧
      freeEntry launching = some 1 ∧ Runs (.spawn (onExt 4 1 0 0 1)) launching ∧
      (childPath launching.cur.pathw 1).isSome = true ∧ Runs (.joinc (onExt 4 2 1 13 0)) joining ∧
      LoadsWords (regCap joining 1) [clusterKey 0 0 0x108, clusterKey 0 0 0x110] [0, 0] joinFollows joinFollows ∧
      joinedChildren (regData joining 2) = [1, 2] ∧ Runs (.evset (onExt 0 2 0 0 2)) ready ∧ Runs (.evtest (on 1 2 2)) ready := by
  repeat' with_reducible apply And.intro
  all_goals first
    | decide +kernel
    | exact runs_of (by decide +kernel)
    | exact launching_reads
    | exact joining_loads
    | (unfold FiringOf; decide +kernel)

theorem witness_RemoteCallFormsComplete :
    Runs (.rcall callF) ready ∧ (∃ r, routeCall (regCap ready 1) (begun ready) = .ok (r, begun ready)) ∧ BlockReadable ready 2 2 false ∧
      DeviceQuiet ready 0 ∧ findCore (begun ready) ready.cur.pos = some probeCore ∧ Runs (.rcalln (onExt 0 1 2 0 0x2003)) ready ∧
      Runs (.rreply (onExt 0 2 0 0 2)) handling ∧ handling.cur.duty = .handler duty0 ∧ Runs (.rfwd (onExt 0 1 2 0 0x2003)) handling ∧
      anyPending handling.cur = false ∧ Runs (.rfence (on 0 0 0)) ready ∧ Runs (.rcstat (on 4 0 0)) ready ∧ ready.cur.rcalln = 0 ∧
      ready.cur.rcallRecord = none := by
  repeat' with_reducible apply And.intro
  all_goals first
    | decide +kernel
    | exact runs_of (by decide +kernel)
    | exact answers_ok (by decide +kernel)
    | (unfold DeviceQuiet; decide +kernel)
    | exact fun i hi => by
        rcases (by omega : i = 0 ∨ i = 1) with h | h <;> subst h <;> exact readable_of (by decide +kernel)
/-! ## Witnesses: the Factor Unit, near memory, loops -/

/-- A data operand in g10. -/
def with10 (x : DWord) (s : State) : State := setData 10#6 x s

theorem joined_type : TypeNamed joined (regCap joined 4) joinRelations :=
  ⟨joinCtx, by decide +kernel, by decide +kernel, by decide +kernel, by decide +kernel, by decide +kernel⟩

/-- The granules of the join tree's descriptor, as g1 reads them. -/
def descriptorAddrs (n : Nat) : List Nat := (List.range n).map (fun i => clusterKey 0 0 0x1000 + 16 * i)

def granules (first n : Nat) : List (List Byte × Bool) :=
  ((List.range n).map (· + first)).map (fun i =>
    (((joinDescriptor.drop (2 * i)).take 2).flatMap (fun w => natBytes 8 w.toNat), decide (i ∈ [4, 5, 12, 13, 14])))

theorem joinRelations_child : 1 < joinRelations.length := by decide +kernel

/-- The pass of relation 1: key 0 has rows 0 and 1, key 1 row 2. -/
def joinPass : Pass := ⟨1, joinRelations[1]'joinRelations_child, 1, joinCap 0x2500 64, sumsCap.val, countsCap.val, []⟩

def joinTotal (k : Nat) : Partial := if k = 0 then ⟨[0x40400000], 0x80000400002, Flags.none⟩ else ⟨[0x40400000], 0x40000200001, Flags.none⟩

/-- JUP with DELTA off: the sums and the counts are stored one after the other. -/
def upSums : State :=
  match fxStore ⟨sumsCap.val, true⟩ ([0, 1].flatMap (fun k =>
    (joinTotal k).vec.mapIdx (fun j v => (capAddr sumsCap.val + k * kprStride sumsCap.val + 4 * j, natBytes 4 v)))) (begun joined) with
  | .ok (_, t) => t
  | .error _ => begun joined

theorem joined_up :
    readPass (regCap joined 4) (regCap joined 6) 1 false (begun joined) = .ok ((joinRelations, joinPass), begun joined) ∧
      (∀ k ∈ [0, 1], keyRows joinPass.rel k (begun joined) = .ok ((2 * k, 2 + k), begun joined)) ∧
      (∀ k ∈ [0, 1], keyTotal joinPass (2 * k) (2 + k) (begun joined) = .ok (joinTotal k, begun joined)) ∧
      (∃ t, fxStore ⟨countsCap.val, true⟩ ([0, 1].map (fun k => (capAddr countsCap.val + k * 8, natBytes 8 (joinTotal k).count))) upSums =
        .ok (⟨⟩, t)) := by
  refine ⟨ok_of (by decide +kernel), fun k hk => ok_of ?_, fun k hk => ok_of ?_, ?_⟩
  · have h : ∀ k ∈ [0, 1], okIs (keyRows joinPass.rel k (begun joined)) ((2 * k, 2 + k), begun joined) = true := by decide +kernel
    exact h k hk
  · have h : ∀ k ∈ [0, 1], okIs (keyTotal joinPass (2 * k) (2 + k) (begun joined)) (joinTotal k, begun joined) = true := by
      decide +kernel
    exact h k hk
  · exact ok_state (by decide +kernel)

theorem witness_FactorFormsComplete :
    Runs (.jtload (onExt 9 1 0 0 0)) joinState ∧ typeFault joinRelations = none ∧ joined.ctxs = [joinCtx] ∧
      curAgent (begun joinState) = .ok (agentIn probeCtx (begun joinState), begun joinState) ∧
      ReadsFrom (agentIn probeCtx (begun joinState)) 16 (descriptorAddrs 4) (granules 0 4) (begun joinState) (begun joinState) ∧
      ReadsFrom (agentIn probeCtx (begun joinState)) 16 ((descriptorAddrs 20).drop 4) (granules 4 16) (begun joinState)
        (begun joinState) ∧
      (descriptorRelations (regCap joinState 1) 2 (granules 4 16)).map (fun e => relationOf e.1 e.2) = joinRelations ∧
      (∀ e ∈ descriptorRelations (regCap joinState 1) 2 (granules 4 16), relationReserved e.1 = none) ∧
      TypeNamed joined (regCap joined 4) joinRelations ∧ Runs (.jtchk (onExt 9 4 5 0 1)) joined ∧
      coversFrom (regCap joined 5).val (keyCount joinRelations 1 * 4) = true ∧ Runs (.jkey (onExt 9 4 10 0 1)) (with10 2#64 joined) ∧
      (∃ k, fxReadRaw (clusterKey 0 0 0x2210) 4 (begun joined) = .ok (k, begun joined)) ∧ keyCount joinRelations 1 = 2 ∧
      Runs (.jheavy (onExt 9 4 10 0 1)) joined ∧ Runs (.jseg (onExt 9 4 10 0 1)) joined ∧ Runs (.jup (onExt 9 4 6 0 1)) joined ∧
      bandOf joined joined.cur = some probeBand ∧
      Runs (.jdown { onExt 9 7 8 0 1 with c := 10#6 }) (with10 0x0000000200000001#64 joined) ∧ capType (regCap joined 7).val = 4 ∧
      Runs (.jinter { onExt 9 8 8 0 0 with c := 8#6 }) joined ∧ Runs (.jdelta (onExt 0 4 10 0 1)) (with10 1#64 joined) ∧
      Reaches (begun joined) (clusterKey 0 0 0x2400) 1 .write false true (.bytes (clusterKey 0 0 0x2400) none) (begun joined) := by
  repeat' with_reducible apply And.intro
  all_goals first
    | rfl
    | decide +kernel
    | exact runs_of (by decide +kernel)
    | exact curAgent_in (by decide +kernel) (by decide +kernel)
    | exact readsFrom_of (by decide +kernel)
    | exact joined_type
    | exact answers_ok (by decide +kernel)
    | exact reaches_of (by decide +kernel)

/-- The configured core with its run started. -/
noncomputable def pipelining : State := nextOr (exec (.nmrun (onExt 0 0 0 0 0)) configured) configured

/-- Its run. -/
theorem pipelining_run : ((unitAt pipelining lupinPosition).runs.find? (·.running)).isSome = true := by decide +kernel

noncomputable def pipelineRun : PipelineRun := ((unitAt pipelining lupinPosition).runs.find? (·.running)).get pipelining_run

/-- How many rows run next has been chosen. -/
noncomputable def chosen : State := { pipelining with free := pipelining.free + 1 }

noncomputable def pipelineAgent : Agent :=
  match runAgent lupinPosition pipelineRun chosen with
  | .ok (a, _) => a
  | .error _ => agentIn probeCtx pipelining

theorem pipelining_agent : runAgent lupinPosition pipelineRun chosen = .ok (pipelineAgent, chosen) := by
  obtain ⟨a, h⟩ := answers_ok (x := runAgent lupinPosition pipelineRun chosen) (s := chosen) (by decide +kernel)
  unfold pipelineAgent
  rw [h]

/-- The page of the rows migrates. -/
noncomputable def migratingRow : State :=
  { chosen with mem := chosen.mem.put 4 0x40000 (natBytes 8 (entryWithMigrating (chosen.mem.word64 0x40000) true).toNat) }

def parameterReads : List (List Byte × Bool) := parameters.map (fun w => (natBytes 8 w.toNat, false))

theorem witness_NearMemoryFormsComplete :
    Runs (.nmcfg (onExt 0 1 0 0 0)) lupin ∧ parLegal parameters = true ∧ (unitAt lupin lupin.cur.pos).busy = false ∧
      DerefPasses (regCap lupin 1) 0x200 64 [permLD] ∧
      curAgent (begun lupin) = .ok (agentIn (pagedCtx false) (begun lupin), begun lupin) ∧
      ReadsFrom (agentIn (pagedCtx false) (begun lupin)) 8 ((List.range 8).map (fun i => 0x200 + 8 * i)) parameterReads (begun lupin)
        (begun lupin) ∧
      parameterReads.map (fun r => BitVec.ofNat 64 (bytesNat r.1)) = parameters ∧ Runs (.nmrun (onExt 0 0 0 0 0)) configured ∧
      (unitAt configured configured.cur.pos).params = some (0x0002000400001108#64, 0#64) ∧
      SlotReadable configured 0 ∧ SlotReadable configured 3 ∧ slotUsable (slotAt configured.cur 0) false = true ∧ slotUsable (slotAt configured.cur 3) true = true ∧
      Runs (.nmwait (on 9 0 0)) pipelining ∧ (unitAt pipelining pipelining.cur.pos).busy = true ∧
      Runs (.mbpost (onExt 0 10 2 0 5)) configured ∧ heldByContext configured (coreOf (lupinPos 0 0 0)) = true ∧
      Runs (.mbwait (on 9 5 0)) configured ∧ (unitAt configured (coreOf configured.cur.pos)).mailboxes.getD 5 none = none ∧
      clocked pipelining = true ∧ (unitAt pipelining lupinPosition).runs.find? (·.running) = some pipelineRun ∧
      runAgent lupinPosition pipelineRun chosen = .ok (pipelineAgent, chosen) ∧ rowsLeft pipelineRun = 5 ∧
      (List.range 5).all (fun k => okB (runPipeline pipelineAgent lupinPosition (k + 1) pipelineRun chosen)) = true ∧
      (List.range 5).all (fun k => waits (runPipeline pipelineAgent lupinPosition (k + 1) pipelineRun migratingRow)) = true ∧
      pipelineRun.fault = none := by
  repeat' with_reducible apply And.intro
  all_goals first
    | decide +kernel
    | exact runs_of (by decide +kernel)
    | exact passes_of (by decide +kernel)
    | exact curAgent_in (by decide +kernel) (by decide +kernel)
    | exact readsFrom_of (by decide +kernel)
    | (unfold SlotReadable Sound; decide +kernel)
    | exact pipelining_agent
    | exact ok_exists (by decide +kernel)

/-- The granules of the loop record, and its capabilities. -/
def loopReads : List (List Byte × Bool) :=
  (List.range 6).map (fun i => (((loopWords.drop (2 * i)).take 2).flatMap (fun w => natBytes 8 w.toNat), decide (i ∈ [0, 1, 2, 5])))

def recordCap (i : Nat) : TCap := packetCap loopWords (loopReads.map (·.2)) i

/-- A request for cell 3 of iteration 0 in the fabric. -/
def requested : State :=
  { inLoop false with net := { (inLoop false).net with rsvs := [⟨9, false, BitVec.ofNat 64 (clusterKey 0 0 0x2018), [(clusterKey 0 0 0x2018, 8)], 5, 0, []⟩] } }

def requestedFor : State := recallStashes none (clusterKey 0 0 0x2018) 8 requested

theorem witness_LoopsBeginAndAdvance :
    Runs (.rlbegin (onExt 9 1 0 0 0)) looping ∧
      ReadsFrom (agentIn probeCtx (begun looping)) 16 ((List.range 6).map (fun i => clusterKey 0 0 0x1000 + 16 * i)) loopReads
        (begun looping) (begun looping) ∧
      wordsOf 12 (loopReads.flatMap (·.1)) = loopWords ∧ RecordCap (recordCap 0) 1 [] ∧ RecordCap (recordCap 1) 1 [] ∧
      RecordCap (recordCap 2) 0 [permRSVC, permLD, permST] ∧ (recordCap 3).tag = false ∧
      requested.net.rsvs[0]? = some ⟨9, false, BitVec.ofNat 64 (clusterKey 0 0 0x2018), [(clusterKey 0 0 0x2018, 8)], 5, 0, []⟩ ∧
      requestedFor.mem.wf = true ∧
      requestedFor.mem.views = [] ∧ requestedFor.mem.firstPoison (clusterKey 0 0 0x2018) 8 = none ∧
      hasPorts looping probeCtx (some probeBand) (entryCap 0x3040).val = false ∧ freeEntry looping = some 1 ∧
      Runs (.rsv (onExt 0 1 4 0 0)) (inLoop false) ∧ LoopNamed (inLoop false) (regCap (inLoop false) 1) (loopIn .commit []) ∧
      Reaches (begun (inLoop false)) (clusterKey 0 0 0x2018) 8 .write false true (.bytes (clusterKey 0 0 0x2018) none) (begun (inLoop false)) ∧
      Runs (.rchk (onExt 1 1 4 0 0)) (inLoop true) ∧ Runs (.rlfail (onExt 0 0 0 0 0)) (inLoop true) ∧
      Runs (.rlend (on 0 1 0)) (ending .finished) ∧ Runs (.rlstat (on 4 1 0)) (ending .pack) ∧
      LoopNamed (ending .pack) (regCap (ending .pack) 1) (loopIn .pack []) ∧ findLoop (ending .pack) 9 = some (loopIn .pack []) ∧
      loopBandRuns (ending .pack) (loopIn .pack []) = true ∧ firstFault (loopIn .reserve [0, 1]) = none ∧
      loopCopies (ending .commit) (loopIn .commit [0, 1]) = false ∧ (loopIn .commit [0, 1]).ended.length = 2 := by
  repeat' with_reducible apply And.intro
  all_goals first
    | decide +kernel
    | exact runs_of (by decide +kernel)
    | exact readsFrom_of (by decide +kernel)
    | exact reaches_of (by decide +kernel)
    | (unfold RecordCap; decide +kernel)
    | (unfold LoopNamed; decide +kernel)

/-! ## Witnesses: host commands -/

/-- The next command of a context, of an opcode and with a payload of 0 bytes. -/
def header (op : Nat) (context : BitVec 16) : CmdHeader := ⟨0#16, context, 0#16, 0#8, BitVec.ofNat 8 op, 1#64⟩

/-- The device of a session whose next SEQ is 1. -/
def host : State := withSession ready

theorem accepted_of {op : Nat} {s : State} {h : CmdHeader} {m : Bool}
    (h1 : (decide (s.dev.power ≠ .d3) && s.dev.warmReset.isNone && s.mem.changes.all (fun x => x.reply.isNone) && s.net.hostWrites.isEmpty &&
      decide (h.reserved = 0#16 ∧ h.status = 0#8 ∧ h.opcode.toNat = op) && (!s.dev.minimalMode || m) &&
      (match s.dev.session with | some x => x.lost.isNone && decide (h.seq.toNat = x.nextSeq) | none => false)) = true) :
    Accepted op s h m := by
  simp only [Bool.and_eq_true, decide_eq_true_eq, Option.isNone_iff_eq_none, Bool.or_eq_true, Bool.not_eq_true',
    List.all_eq_true, List.isEmpty_iff] at h1
  obtain ⟨⟨⟨⟨⟨⟨a, b⟩, c⟩, w⟩, d⟩, e⟩, h2⟩ := h1
  refine ⟨⟨⟨a, b⟩, c, w⟩, d, fun hm => e.resolve_left (by rw [hm]; decide), ?_⟩
  split at h2
  · rename_i x hx
    simp only [Bool.and_eq_true, decide_eq_true_eq, Option.isNone_iff_eq_none] at h2
    exact ⟨x, hx, h2.1, h2.2⟩
  · cases h2

theorem host_context : InContext host (header 0 1) probeCtx := by
  unfold InContext
  decide +kernel

/-- A write of the host waits. -/
def writing (s : State) : State := { s with net := { s.net with hostWrites := [⟨1, 0#64, [1#8]⟩] } }

/-- The ways in which a command of the owning session ends before its own effect. -/
theorem witness_HostCommandsFollowTheProtocol :
    ¬ DeviceTakes { host with dev := { host.dev with power := .d3 } } ∧ DeviceTakes (writing host) ∧ (writing host).net.hostWrites ≠ [] ∧
      CommandsArrive ready ∧ ready.dev.session = none ∧
      CommandsArrive host ∧ host.dev.session = some session ∧ session.lost = none ∧ { session with lost := some 5 }.lost ≠ none ∧
      { header 2 1 with seq := 2#64 }.seq.toNat ≠ session.nextSeq ∧ (header 2 1).seq.toNat = session.nextSeq ∧
      ¬ CleanHeader 2 { header 2 1 with reserved := 1#16 } ∧ ¬ CleanHeader 2 (header 3 1) ∧ CleanHeader 2 (header 2 1) ∧
      { host.dev with minimalMode := true }.minimalMode = true ∧ Accepted 0x12 host (header 0x12 1) false ∧
      Accepted 0x12 host (header 0x12 7) false ∧ findCtx host (header 0x12 7).context.toNat = none ∧
      Accepted 0x03 host { header 0x03 0 with length := 8#16 } true ∧ Accepted 0x17 host { header 0x17 1 with length := 64#16 } false ∧
      Accepted 0x18 host { header 0x18 1 with length := 24#16 } false ∧ Accepted 0x35 host { header 0x35 0 with length := 31#16 } true ∧
      (findCtx { host with ctxs := [{ probeCtx with killing := true }] } (header 0x12 1).context.toNat).map (·.killing) = some true := by
  repeat' with_reducible apply And.intro
  all_goals first
    | decide +kernel
    | exact accepted_of (by decide +kernel)
    | (unfold CommandsArrive DeviceTakes; decide +kernel)
    | (unfold DeviceTakes; decide +kernel)
    | (unfold CleanHeader; decide +kernel)

/-- An OPEN by a key of the owner list; whether the signature verifies is the package's to say (Config.verify). -/
def openRequest : OpenRequest := ⟨0#256, List.replicate 1312 0#8, List.replicate 2420 0#8, true⟩

def openHeader : CmdHeader := { header 0x01 0 with seq := 0#64, length := 3765#16 }

def owned4 : State := { host with dev := { host.dev with owners := [Config.sha3 openRequest.key] } }

def noSettings : SettableRequest := ⟨none, none, none, none, none, none⟩

/-- A context with a table at 0x50000. -/
def contextRequest : ContextRequest := ⟨false, 1#256, 1#512, ⟨0#128, false⟩, 0x50000#64, 0#64, noSettings, false⟩

def full : State := { host with ctxs := List.replicate 256 probeCtx }

def killing : State := { host with ctxs := [{ probeCtx with killing := true }] }

theorem witness_SessionsAndContextsComplete :
    owned4.dev.power ≠ .d3 ∧ owned4.dev.warmReset = none ∧ CleanHeader 0x01 openHeader ∧ openHeader.length.toNat = 3765 ∧ (header 0x01 0).length.toNat ≠ 3765 ∧
      openRequest.key.length = 1312 ∧ openRequest.signature.length = 2420 ∧ Config.sha3 openRequest.key ∈ owned4.dev.owners ∧
      sessionOpen owned4 = true ∧ openRequest.takeover = true ∧ { openRequest with takeover := false }.takeover = false ∧
      sessionOpen ready = false ∧ Accepted 0x02 host (header 0x02 1) true ∧ Accepted 0x03 host (header 0x03 1) true ∧
      Accepted 0x10 host (header 0x10 2) false ∧ host.ctxs.length < 256 ∧
      contextValid host (header 0x10 2).context.toNat contextRequest = true ∧
      contextValid host (header 0x10 1).context.toNat contextRequest = false ∧ 256 ≤ full.ctxs.length ∧
      Accepted 0x10 full (header 0x10 2) false ∧ Accepted 0x11 host (header 0x11 1) false ∧ InContext host (header 0x11 1) probeCtx ∧
      settableValid noSettings = true ∧ probeCtx.spillUsed ≤ (applySettable noSettings probeCtx).spillSize ∧
      SavedWithin host (applySettable noSettings probeCtx) ∧ findCtx host (header 0x12 7).context.toNat = none ∧
      Accepted 0x12 host (header 0x12 7) false ∧ findCtx killing 1 = some { probeCtx with killing := true } := by
  repeat' with_reducible apply And.intro
  all_goals first
    | decide +kernel
    | exact List.mem_singleton.mpr rfl
    | exact accepted_of (by decide +kernel)
    | (unfold InContext; decide +kernel)
    | (unfold CleanHeader; decide +kernel)
    | (unfold SavedWithin; decide +kernel)

/-- The session's context with the table of pageTable: its leaf at level 3, and an entry there that maps nothing yet. -/
def mapped : State := withSession paged

def emptyEntry : MapEntry := ⟨0x10000#64, 3, BitVec.ofNat 64 (2 ^ 42 + 0x200000 + 4 + 2)⟩
def leafEntry : MapEntry := ⟨0#64, 3, BitVec.ofNat 64 (2 ^ 42 + 0x200000 + 4 + 2)⟩

def mapReply : HostMsg := wordsMessage 0x13 1 statusOk 1 []

/-- Window 3 of die 0: MXFP4 from 0x1000 on, shown from 0x100000 on. -/
def windowRequest : WindowRequest := ⟨0, 3, ⟨0x8000000000001000#64, 0x400#64, 0x8000#64, 0x100000#64⟩⟩

def amoqRequest : AmoqRequest := ⟨5, some 9#64, some 4, 65536⟩

/-- A loop of the context that has finished, and one that has not. -/
def withLoop (x : LoopState) : State := withSession { ready with loops := [loopIn x []] }

/-- A capability that the host may store, and one with the reserved permission bits. -/
def hostStoreCap : QWord := makeCap 0x3FFF#16 (clusterKey 0 0 0) 65536 (clusterKey 0 0 0)

def capPairs (address : DWord) : List CapPair := [⟨address, hostStoreCap⟩]

/-- The host stores a capability in a page of the context. -/
def pagedHostCtx : Ctx := pagedCtx false
def pagedHost : State := counted (withSession paged)

theorem witness_ContextTablesComplete :
    Accepted 0x13 mapped (header 0x13 1) false ∧ InContext mapped (header 0x13 1) (pagedCtx false) ∧
      mapValid (pagedCtx false) [emptyEntry] (counted mapped) = true ∧ FramesLie ⟨[], [(0, 0x300000)]⟩ ∧
      (mapAll (pagedCtx false) mapReply [emptyEntry] (counted mapped)).mem.changes = [] ∧
      mapValid (pagedCtx false) [leafEntry] (counted mapped) = true ∧
      (mapAll (pagedCtx false) mapReply [leafEntry] (counted mapped)).mem.changes.any (fun x => x.reply == some mapReply) = true ∧
      entryAddress mapped.mem emptyEntry.address.toNat 3 0 0x10000 = some 0x40008 ∧ entryKind (mapped.mem.word64 0x40008) ≠ 2 ∧
      entryAddress mapped.mem leafEntry.address.toNat 3 0 0x10000 = some 0x40000 ∧ entryKind (mapped.mem.word64 0x40000) = 2 ∧
      mapped.mem.changes = [] ∧ mapped.mem.wf = true ∧ windowValid windowRequest = true ∧
      (List.range 16).all (fun k => (otherWindow host 0 k).isNone) = true ∧ windowValid { windowRequest with die := 4 } = false ∧
      amoqRequest.window < 64 ∧ (windowOfCtx host 1 5).accepted = [] ∧ (windowOfCtx host 1 5).held = [] ∧
      Accepted 0x16 (withLoop .finished) (header 0x16 1) false ∧ Accepted 0x16 (withLoop .pack) (header 0x16 1) false ∧
      InContext (withLoop .pack) (header 0x16 1) probeCtx ∧ (∃ l ∈ (withLoop .pack).loops, l.ctx = 1 ∧ l.state ≠ .finished ∧ l.state ≠ .faulted) ∧
      Accepted 0x18 host { header 0x18 1 with length := 24#16 } false ∧ (capPairs 0x400#64).length = 1 ∧ hostCap hostStoreCap = true ∧ hostCap (storeCap 0).val = false ∧
      (∃ t, storeCaps pagedHostCtx (capPairs 0x400#64) pagedHost = .ok (⟨⟩, t)) ∧
      okIs ((reach (hubAgent pagedHostCtx) 0x400 16 .write false false pagedHost).map (·.1)) (.bytes 0x100400 (some 0x40000)) = true ∧
      (∃ e, storeCaps probeCtx (capPairs 4#64) (counted host) = .error e) := by
  repeat' with_reducible apply And.intro
  all_goals first
    | decide +kernel
    | exact accepted_of (by decide +kernel)
    | exact ok_state (by decide +kernel)
    | exact error_exists (by decide +kernel)
    | (unfold InContext; decide +kernel)
    | (unfold FramesLie; decide +kernel)
    | exact ⟨loopIn .pack [], List.mem_singleton.mpr rfl, rfl, by decide, by decide⟩

/-! ## Witnesses: work, device commands, the pool, firings and bands -/

/-- A host's LAUNCH of packetWords. -/
def hostPacket : BitVec 2048 := BitVec.ofNat 2048 (packetWords.foldr (fun w n => n * 2 ^ 64 + w.toNat) 0)

/-- The probe's band in a state. -/
def bandIn (x : BandState) : Band := { probeBand with state := x }

def hostWith (x : BandState) : State := withSession { ready with bands := [bandIn x] }

/-- A node of the pool. -/
def poolNode (p : Packet) : Node :=
  { entry := 1, ctx := 1, packet := p, ready := true, entered := 0, sequence := 0, readyAt := 0, passed := 0, parent := none, child := 0
    spawned := false, loop := none, resumed := false, clock := [] }

def nodePacket : Packet := (launchedPacket hostPacket).2

/-- A pool with no free entry. -/
def fullPool : State := { host with nodes := List.replicate 16384 (poolNode nodePacket) }

def evictedBand : Band := { probeBand with state := .saved, evicted := true, places := [] }

/-- A LAUNCH's header. -/
def launchHeader : CmdHeader := { header 0x20 1 with length := 256#16 }

/-- The probe's context with a save area at 0x1000000, and one whose area is too small. -/
def savingCtx (size : Nat) : Ctx := { probeCtx with saveArea := 0x1000000#64, saveSize := size }

theorem witness_WorkCommandsComplete :
    Accepted 0x20 host launchHeader false ∧ InContext host launchHeader probeCtx ∧ launchHeader.length.toNat = 256 ∧
      launchFault (counted host) probeCtx hostPacket = none ∧ freeEntry host = some 1 ∧
      Accepted 0x20 fullPool launchHeader false ∧ freeEntry fullPool = none ∧ launchFault (counted host) probeCtx 0#2048 ≠ none ∧
      Accepted 0x21 host (header 0x21 1) false ∧ InContext host (header 0x21 1) probeCtx ∧
      selectedBy host 1 (some 0) = [probeBand] ∧ bandLive probeBand ∧ selectedBy host 1 (some 5) = [] ∧
      Accepted 0x21 (hostWith .saved) (header 0x21 1) false ∧ Accepted 0x22 (hostWith .saved) (header 0x22 1) false ∧
      selectedBy (hostWith .saved) 1 (some 0) = [bandIn .saved] ∧ ¬ bandLive (bandIn .saved) ∧ (bandIn .saved).state = .saved ∧
      savePlace host (savingCtx (2 ^ 24)) 4096 = some 0x1000000 ∧
      savePlace host (savingCtx 16) 4096 = none ∧ probeBand.state ≠ .saved ∧ evictedBand.evicted = true ∧
      host.nodes = [] := by
  repeat' with_reducible apply And.intro
  all_goals first
    | decide +kernel
    | exact accepted_of (by decide +kernel)
    | (unfold InContext; decide +kernel)
    | (unfold bandLive; decide +kernel)

/-- Fragments of a stage 2 image of 8 bytes. -/
def fragment (offset total : Nat) (last : Bool) : FirmwareFragment := ⟨2, 0, offset, total, last, List.replicate 8 1#8⟩

def hostDev (f : Device → Device) : State := { host with dev := f host.dev }

def fabricRequest (n : Nat) : FabricRequest := ⟨n, [(0, 5), (1, 6)]⟩

/-- Boot stages whose slots are empty. -/
def noImages : List FirmwareStage := List.replicate 5 ⟨⟨0, 0#256, [], false⟩, ⟨0, 0#256, [], false⟩, 0, false⟩

def resetting : State := hostDev (fun d => { d with warmReset := some ⟨true, 1#64, false⟩, firmware := [] })

/-- FIRMWARE's header for a fragment of 8 bytes. -/
def firmwareHeader : CmdHeader := { header 0x36 0 with length := 24#16 }

def minimal : State := hostDev (fun d => { d with minimalMode := true })

/-- A trip at cycle 5 is latched. -/
def tripped (cycle : Nat) : State := hostDev (fun d => { d with power := .d1, tripLatched := true, tripAt := some 5, cycle := cycle })

theorem witness_DeviceCommandsComplete :
    Accepted 0x30 host (header 0x30 0) false ∧ Accepted 0x31 host (header 0x31 0) true ∧ Accepted 0x32 host (header 0x32 0) true ∧
      Accepted 0x34 host (header 0x34 0) false ∧ Accepted 0x35 host { header 0x35 0 with length := 32#16 } true ∧ powerPath host.dev.power .d0 = true ∧
      powerAllows host .d0 = true ∧ host.dev.tripLatched = false ∧ Accepted 0x30 (tripped 850000004) (header 0x30 0) false ∧
      (tripped 850000004).dev.tripAt = some 5 ∧ (tripped 850000004).dev.cycle < 5 + 850000000 ∧ powerPath (tripped 850000005).dev.power .d0 = true ∧
      powerAllows (tripped 850000005) .d0 = true ∧ (tripped 850000005).dev.tripAt = some 5 ∧
      5 + 850000000 ≤ (tripped 850000005).dev.cycle ∧
      powerPath host.dev.power .d3 = true ∧ powerAllows host .d3 = false ∧ Accepted 0x33 host (header 0x33 0) false ∧
      Accepted 0x38 minimal (header 0x38 0) true ∧ host.dev.minimalMode = false ∧ Accepted 0x38 host (header 0x38 0) true ∧
      Accepted 0x36 host firmwareHeader true ∧ firmwareHeader.length.toNat = 16 + (fragment 0 16 false).image.length ∧
      FragmentFits host (fragment 0 16 false) ∧ FragmentFits host (fragment 0 8 true) ∧ ¬ FragmentFits host (fragment 4 16 false) ∧
      Accepted 0x37 host (header 0x37 0) false ∧
      (fabricRequest 3).number < 16384 ∧ (∀ x ∈ (fabricRequest 3).entries, x.1 < 16384) ∧ 16384 ≤ (fabricRequest 16384).number ∧
      Accepted 0x37 { host with ctxs := [] } (header 0x37 0) false ∧ host.ctxs ≠ [] ∧ host.mem.views = [] ∧ host.mem.changes = [] ∧
      (∀ d ∈ host.mem.dirty, dieWorks host d.die = true) ∧
      resetting.dev.warmReset = some ⟨true, 1#64, false⟩ ∧ bootStages 1 resetting.dev.firmware = (none, []) ∧
      host.dev.warmReset = none := by
  repeat' with_reducible apply And.intro
  all_goals first
    | decide +kernel
    | exact accepted_of (by decide +kernel)
    | (unfold FragmentFits; decide +kernel)

/-- A pool with a node, and one whose node's descriptor cannot be read. -/
def pool : State := { ready with nodes := [poolNode nodePacket] }

def badPool : State := { ready with nodes := [poolNode probePacket] }

/-- A saved band waits to be placed again. -/
def resumedNode : Node := { poolNode probePacket with entry := 0, resumed := true }

def resumedPool : State := { ready with nodes := [resumedNode], bands := [evictedBand], cores := [] }

/-- A loop waits for its cores. -/
def loopPool : State := { ready with nodes := [{ poolNode probePacket with loop := some 9 }], loops := [loopIn .queued []] }

theorem witness_NodesAreDispatched :
    clocked { ready with dev := { ready.dev with power := .d1 } } = false ∧ clocked ready = true ∧ clocked pool = true ∧
      clocked badPool = true ∧ clocked resumedPool = true ∧ clocked loopPool = true ∧ poolChoice ready = none ∧ poolChoice pool = some (poolNode nodePacket) ∧ findCtx pool 1 = some probeCtx ∧
      (∃ a, nodeCheck pool probeCtx nodePacket = .ok a) ∧
      (choosePlaces pool probeCtx nodePacket).isSome = true ∧ poolChoice badPool = some (poolNode probePacket) ∧
      okB (nodeCheck badPool probeCtx probePacket) = false ∧ poolChoice resumedPool = some resumedNode ∧
      findBand resumedPool 0 = some evictedBand ∧ (choosePlaces resumedPool probeCtx probePacket).isSome = true ∧
      findBand { ready with bands := [bandIn .reserving] } 0 = some (bandIn .reserving) ∧
      findLoop loopPool 9 = some (loopIn .queued []) ∧
      poolChoice loopPool = some { poolNode probePacket with loop := some 9 } ∧ findLoop ready 9 = none := by
  repeat' with_reducible apply And.intro
  all_goals first
    | decide +kernel
    | exact ok_exists (by decide +kernel)

/-- The probe's instance before its firing, on a free thread. -/
def idleInstance : Instance := { probeInstance with state := .idle }

def fireBand : Band := { probeBand with instances := [idleInstance] }

def fireReady : State := { ready with cur := Thread.idle, bands := [fireBand] }

/-- Instances 0 and 4 of a Lupin band share thread 0; the firing of the first waits since cycle 0. -/
def parkBand : Band :=
  { lupinBand with
    packet := { lupinBand.packet with instances := 5 }
    instances := [probeInstance, { idleInstance with index := 4 }] }

def waiting (cycle : Nat) : State :=
  { ready with
    cur := { ready.cur with pos := lupinPosition, waitFrom := some 0 }
    ctxs := [{ probeCtx with det := true }], bands := [parkBand]
    dev := { ready.dev with cycle := cycle } }

/-- The probe's firing, parked. -/
def parkedThread : Thread := { ready.cur with hold := .parked }

def parked : State := { ready with cur := Thread.idle, threads := [parkedThread] }

/-- An element in flight to port 0 of the probe's instance. -/
def flying : Element := ⟨0, 0, 0, 0, 0, 0, 0, ⟨BitVec.ofNat 1024 7, []⟩⟩

def arriving (b : Band) : State := { ready with bands := [b], net := { ready.net with elements := [flying] } }

theorem starts_here : StartsHere fireReady probeCtx fireBand idleInstance core0 0 := by
  unfold StartsHere
  decide +kernel

theorem witness_FiringsStartParkAndReturn :
    findBand fireReady 0 = some fireBand ∧ findInstance fireBand 0 0 = some idleInstance ∧
      StartsHere fireReady probeCtx fireBand idleInstance core0 0 ∧ fireable probeBand probeInstance = false ∧
      threadOf (waiting 1024) ready.cur.fid = some (waiting 1024).cur ∧ (waiting 1024).cur.waitFrom = some 0 ∧
      ofBand parkBand (waiting 1024).cur = true ∧ (waiting 1024).cur.stopped = false ∧
      (fireableOn (waiting 1024) parkBand 0 0).find? (fun i => mappedThread parkBand i == 0) = some 4 ∧
      findInstance parkBand 0 4 = some { idleInstance with index := 4 } ∧ 0 + 1024 ≤ (waiting 1024).dev.cycle ∧
      (waiting 1023).dev.cycle < 0 + 1024 ∧
      parked.threads.find? (fun t => t.hold == .parked && t.fid == ready.cur.fid) = some parkedThread ∧
      bandLive probeBand ∧ bandCore probeBand 0 0 = some core0 ∧ mayTake parked probeCtx probeBand 0 0 0 = true ∧
      (((parkedOn parked probeBand 0 0).filter (fun x => !probeCtx.det || mappedThread probeBand x.fid.inst == 0)).head?).map (·.fid) =
        some ready.cur.fid ∧ parkedThread.waitPassed = false ∧ ready.threads = [] ∧
      (arriving portBand).net.elements[0]? = some flying ∧ roomOf portBand (portBand.instances.headD probeInstance) 0 ≠ 0 ∧
      roomOf probeBand probeInstance 0 = 0 ∧
      parkPlace { ready with ctxs := [savingCtx 8192] } 1 = some (0x1000000#64, 8192) ∧
      parkPlace { ready with ctxs := [savingCtx 8191] } 1 = none := by
  repeat' with_reducible apply And.intro
  all_goals first
    | decide +kernel
    | exact starts_here
    | exact Or.inl (by decide +kernel)

/-- A band whose only firing has ended. -/
def endedBand (x : BandState) : Band := { bandIn x with instances := [{ idleInstance with count := 1 }] }

def endedIn (x : BandState) : State := { ready with cur := Thread.idle, bands := [endedBand x] }

/-- A band that is stopped to be evicted to 4,096 bytes of the save area. -/
def savingBand : Band := { bandIn .preempting with evict := true, saveAt := some (0x1000000#64, 4096) }

theorem witness_BandsDrainExitAndAreSaved :
    findBand (endedIn .running) 0 = some (endedBand .running) ∧ exitTest (endedIn .running) (endedBand .running) = true ∧
      exitTest ready probeBand = false ∧ findBand (endedIn .draining) 0 = some (endedBand .draining) ∧
      enginesBusy (endedIn .draining) (endedBand .draining) = false ∧ (endedBand .draining).stores = [] ∧
      timeoutPassed { ready with dev := { ready.dev with cycle := 2 ^ 33 } } 1 0 4 = true ∧ timeoutPassed ready 1 0 4 = false ∧
      findCtx ready 1 = some probeCtx ∧ probeCtx.number = probeBand.ctx ∧ probeCtx.killing = false ∧
      findBand (hostWith .preempting) 0 = some (bandIn .preempting) ∧
      copiesInFlight (hostWith .preempting) (bandIn .preempting) = false ∧
      copiesInFlight { ready with cores := [stashCore] } probeBand = false ∧ savingBand.evict = true ∧
      findBand { ready with bands := [savingBand] } 0 = some savingBand ∧ savingBand.state = .preempting ∧
      saveFits { ready with bands := [savingBand] } savingBand = true ∧
      copiesInFlight { ready with bands := [savingBand] } savingBand = false := by
  repeat' with_reducible apply And.intro
  all_goals decide +kernel

/-! ## Witnesses: messages, answers, lines, pages and outside accesses -/

/-- The service thread of the probe's core. -/
def service : Pos := { core0 with thread := 4 }

/-- The context whose handler table lies at the store's offset 0x3000. -/
def tableCtx : Ctx := { probeCtx with handlerTable := BitVec.ofNat 64 (clusterKey 0 0 0x3000), spillSize := 65536 }

/-- Entry 3 runs on either kind of core, entry 4 on Lupin cores only. -/
def handlerCode : TCap := ⟨capWithType (makeCap 0xFFFF#16 (clusterKey 0 0 0) 65536 (clusterKey 0 0 0x2000)) 2, true⟩

def tableMemory (m : Memory) : Memory :=
  let e (n : Nat) (flags : DWord) (m : Memory) : Memory :=
    setTag (m.put 4 (clusterKey 0 0 (0x3000 + 32 * n)) ((capWords handlerCode ++ [flags, 0#64]).flatMap (fun w => natBytes 8 w.toNat)))
      (clusterKey 0 0 (0x3000 + 32 * n))
  e 4 5#64 (e 3 13#64 m)

/-- A call of the probe's firing. -/
def callMsg (device handler : Nat) (target : TCap) : CallMsg :=
  { ctx := 1, ctxw := probe.cur.ctxw, pathw := 0#64, caller := probe.cur.fid, callerDevice := 0, serial := 9#32, thread := 0, target := target
    handler := handler, payload := [], count := 1, reply := true, forwarded := false, hops := 0, device := device, owner := service
    writer := .gang 0 0, clock := [] }

def messages (c : CallMsg) (o : Owner) : State :=
  { ready with ctxs := [tableCtx], mem := tableMemory ready.mem, net := { ready.net with calls := [c] }, owners := [o] }

def ownerWith (inbox held spill : List InMsg) : Owner := ⟨service, inbox, held, spill⟩

def call3 : CallMsg := callMsg 0 3 (storeCap 0x100)

def manyCalls (n : Nat) : List InMsg := List.replicate n (.call call3)

theorem mayTakeHead_of {s : State} {q : Pos} {m : InMsg} {rest : List InMsg}
    (h : (!spillDue (ownerAt s q) && threadFree s q && coreWorks s (coreOf q) && decide ((ownerAt s q).inbox = m :: rest)) = true) :
    MayTakeHead s q m rest := by
  simp only [Bool.and_eq_true, Bool.not_eq_true', decide_eq_true_eq] at h
  exact ⟨h.1.1.1, h.1.1.2, h.1.2, h.2⟩

def inboxState (m : InMsg) : State := messages call3 (ownerWith [m] [] [])

/-- What handlerStart does for a call, by its handler and target. -/
def entryFor (c : CallMsg) : Option HandlerEntry :=
  handlerEntry (applyCall c service (headTaken service [] (inboxState (.call c)))) tableCtx c.handler

/-- A landing packet of the issued copy. -/
noncomputable def landMsg (handler : Nat) : LandMsg :=
  ⟨1, core0, 0, xfer.id, 0, service, handler, (storeCap 0x800).val, 0, [1#8, 2#8], .gang 0 0⟩

noncomputable def landing (handler : Nat) : State :=
  { issued with ctxs := [tableCtx], mem := tableMemory issued.mem, owners := [ownerWith [.land (landMsg handler)] [] []] }

/-- A handler that has executed n instructions and waits since cycle 0. -/
def serving (n cycle : Nat) : State :=
  { ready with
    threads := [{ Thread.idle with pos := service, duty := .handler { duty0 with executed := n }, waitFrom := some 0 }]
    dev := { ready.dev with cycle := cycle } }

theorem witness_MessagesReachTheirOwners :
    (messages call3 (ownerWith [] [] [])).net.calls[0]? = some call3 ∧ call3.device = ready.dev.number ∧
      (ownerAt (messages call3 (ownerWith [] [] [])) service).inbox.length < 64 ∧
      64 ≤ (ownerAt (messages call3 (ownerWith (manyCalls 64) [] [])) service).inbox.length ∧
      16 ≤ (ownerAt (messages call3 (ownerWith (manyCalls 64) (manyCalls 16) [])) service).held.length ∧
      (callMsg 5 3 (storeCap 0x100)).device ≠ ready.dev.number ∧
      (ownerAt (messages call3 (ownerWith (manyCalls 64) (manyCalls 1) [])) service).held = [.call call3] ∧
      spillDue (ownerAt (messages call3 (ownerWith (manyCalls 64) (manyCalls 1) [])) service) = true ∧
      threadFree (messages call3 (ownerWith (manyCalls 64) (manyCalls 1) [])) service = true ∧
      (InMsg.call call3).record ≤ tableCtx.spillSize ∧ probeCtx.spillSize < probeCtx.spillUsed + (InMsg.call call3).record ∧
      (ownerAt (messages call3 (ownerWith [] [] (manyCalls 1))) service).spill = [.call call3] ∧
      MayTakeHead (inboxState (.call call3)) service (.call call3) [] ∧ findCtx (inboxState (.call call3)) 1 = some tableCtx ∧
      (entryFor call3).any (fun e => entryAllows e service) = true ∧
      (keyOf (inboxState (.call call3)) tableCtx none (capAddr call3.target.val) 1).isSome = true ∧
      keyOf (inboxState (.call call3)) tableCtx none (capAddr (dataVal 0x10#64)) 1 = none ∧
      (entryFor (callMsg 0 4 (storeCap 0x100))).any (fun e => !entryAllows e service) = true ∧
      handlerEntry ready probeCtx 3 = none ∧
      MayTakeHead (landing 3) service (.land (landMsg 3)) [] ∧ findXfer (landing 3) core0 0 xfer.id = some xfer ∧
      (handlerEntry (headTaken service [] (landing 3)) tableCtx 3).any (fun e => entryAllows e service) = true ∧
      (handlerEntry (headTaken service [] (landing 4)) tableCtx 4).any (fun e => !entryAllows e service) = true ∧
      (threadAt (serving 4096 0) service).any (fun t => inHandler t && decide (4096 ≤ executedOf t)) = true ∧
      (threadAt (serving 5 (2 ^ 20)) service).any (fun t => inHandler t && decide (executedOf t < 4096)) = true ∧
      0 + 2 ^ 20 ≤ (serving 5 (2 ^ 20)).dev.cycle ∧ (serving 5 7).dev.cycle < 0 + 2 ^ 20 := by
  repeat' with_reducible apply And.intro
  all_goals first
    | decide +kernel
    | exact mayTakeHead_of (by decide +kernel)

/-- The probe's firing with a call outstanding to a device. -/
def outCall (device count reissues : Nat) (idem : Bool) : OutCall :=
  ⟨9#32, 0, 4, count, device, service, 0x100#64, 3, idem, [], 0, reissues, 0⟩

def calling (c : OutCall) : State :=
  { ready with
    cur := { ready.cur with calls := [c] }
    net := { ready.net with replies := [⟨probe.cur.fid, 0, 9#32, 0, [storeCap 0], .clear, []⟩], dones := [⟨probe.cur.fid, 0, 9#32, 0, none, []⟩] }
    dev := { ready.dev with failedUnits := [(.computeDie, 0, 0)], cycle := 3400000 } }

/-- The probe's firing awaiting another device, at a cycle, since cycle 0. -/
def awaiting (hold : Hold) (cycle : Nat) : State :=
  { ready with cur := { ready.cur with awaitsFabric := some (0x100#64, 0), waitFrom := some 0, hold := hold }, dev := { ready.dev with cycle := cycle } }

/-- The probe's firing with a store to another device since cycle 0, at a cycle. -/
def storingAt (cycle : Nat) : State :=
  { ready with
    cur := { ready.cur with remoteStores := [⟨4, 0x0004000000000000#64, false, false, 0⟩] }, dev := { ready.dev with cycle := cycle } }

theorem witness_AnswersReachTheirCallers :
    (calling (outCall 5 1 0 false)).net.replies[0]? = some ⟨probe.cur.fid, 0, 9#32, 0, [storeCap 0], .clear, []⟩ ∧
      callNamed (calling (outCall 5 1 0 false)) probe.cur.fid 0 9#32 = some (outCall 5 1 0 false) ∧ (outCall 5 1 0 false).count ≠ 0 ∧
      callNamed ready probe.cur.fid 0 9#32 = none ∧
      (calling (outCall 5 0 0 false)).net.dones[0]? = some ⟨probe.cur.fid, 0, 9#32, 0, none, []⟩ ∧
      callNamed (calling (outCall 5 0 0 false)) probe.cur.fid 0 9#32 = some (outCall 5 0 0 false) ∧ (outCall 5 0 0 false).count = 0 ∧
      threadOf (calling (outCall 5 0 0 false)) probe.cur.fid = some (calling (outCall 5 0 0 false)).cur ∧
      (outCall 5 1 0 false).device ≠ ready.dev.number ∧ (outCall 0 1 0 false).device = ready.dev.number ∧
      callNamed (calling (outCall 0 1 0 false)) probe.cur.fid 0 9#32 = some (outCall 0 1 0 false) ∧
      callNamed (calling (outCall 5 1 2 true)) probe.cur.fid 0 9#32 = some (outCall 5 1 2 true) ∧ (outCall 5 1 2 true).reissues < 3 ∧
      3 ≤ (outCall 5 1 3 true).reissues ∧ (UnitKind.computeDie, 0, 0) ∈ (calling (outCall 0 1 0 false)).dev.failedUnits ∧
      0 + cyclesPerMillisecond ≤ (calling (outCall 0 1 0 false)).dev.cycle ∧
      (∀ found, (UnitKind.computeDie, 1, found) ∉ (calling (outCall 0 1 0 false)).dev.failedUnits) ∧
      threadOf (awaiting .running 0) probe.cur.fid = some (awaiting .running 0).cur ∧
      callOf (calling (outCall 5 1 0 false)) probe.cur.fid 9#32 = some (outCall 5 1 0 false) ∧
      callOf (calling (outCall 0 1 0 false)) probe.cur.fid 9#32 = some (outCall 0 1 0 false) ∧
      callOf (calling (outCall 5 1 2 true)) probe.cur.fid 9#32 = some (outCall 5 1 2 true) ∧
      threadOf (storingAt 5) probe.cur.fid = some (storingAt 5).cur ∧ timeoutPassed (storingAt 5) 1 0 4 = false ∧
      timeoutPassed (storingAt (2 ^ 33)) 1 0 4 = true ∧
      timeoutPassed (calling (outCall 5 1 0 false)) 1 (outCall 5 1 0 false).issued 4 = true ∧
      timeoutPassed (calling (outCall 5 1 2 true)) 1 (outCall 5 1 2 true).issued 3 = true ∧
      timeoutPassed (calling { outCall 5 1 0 false with issued := 1 }) 1 1 4 = false ∧
      timeoutPassed (awaiting .running (2 ^ 33)) 1 0 4 = true ∧ timeoutPassed (awaiting .running 3399999) 1 0 4 = false ∧
      (awaiting .running 0).cur.awaitsFabric = some (0x100#64, 0) ∧ ready.cur.awaitsFabric = none ∧
      clocksRun (awaiting .running (2 ^ 33)) (awaiting .running (2 ^ 33)).cur = true ∧
      0 + probeCtx.waitLimit ≤ (awaiting .running (2 ^ 33)).dev.cycle ∧
      threadOf (awaiting .parked (2 ^ 33)) probe.cur.fid = some (awaiting .parked (2 ^ 33)).cur ∧
      (awaiting .running 0).dev.cycle < 0 + probeCtx.waitLimit ∧
      (awaiting .running (2 ^ 33)).cur.runFrom + probeCtx.runLimit ≤ (awaiting .running (2 ^ 33)).dev.cycle ∧ probeCtx.runLimit ≠ 0 ∧
      (awaiting .running 0).dev.cycle < (awaiting .running 0).cur.runFrom + probeCtx.runLimit := by
  repeat' with_reducible apply And.intro
  all_goals first
    | decide +kernel
    | exact fun found => by simp [calling]

/-- A write of die 0 that die 1 has not seen. -/
def unseenWrite : DieWrite := ⟨1, 1, 0, probe.cur.fid, core0, none, [1, 0, 0, 0, 0], [], [(0x100200, 7#8)], [], []⟩

def unseenState (clock : List Nat) : State := { paged with mem := { paged.mem with unseen := [{ unseenWrite with clock := clock }] } }

/-- The same with an earlier write of die 0 that die 1 has not seen either. -/
def unseenBefore : State :=
  { paged with mem := { paged.mem with unseen := [{ unseenWrite with id := 0 }, { unseenWrite with clock := [2, 0, 0, 0, 0] }] } }

theorem witness_LinesAndWritesReachTheirHomes :
    copyOwned paged none (128 * 0x2004) 128 = false ∧ keyIsView (128 * 0x2004) = false ∧ NoStashLines ready ∧
      keyIsView (128 * (2 ^ 34 + 0x2000)) = true ∧ copyOwned paged none (128 * (2 ^ 34 + 0x2000)) 128 = false ∧
      ((unseenState [1, 0, 0, 0, 0]).mem.unseen.map (fun w => (w.id, w.toDie))).Nodup ∧
      { unseenWrite with clock := [1, 0, 0, 0, 0] } ∈ (unseenState [1, 0, 0, 0, 0]).mem.unseen ∧ unseenWrite.id = 9 / 8 ∧
      unseenWrite.toDie = 9 % 8 ∧
      (unseenState [1, 0, 0, 0, 0]).mem.ready unseenWrite = true ∧
      unseenBefore.mem.ready { unseenWrite with clock := [2, 0, 0, 0, 0] } = false := by
  repeat' with_reducible apply And.intro
  all_goals first
    | decide +kernel
    | exact List.mem_singleton.mpr rfl
    | (intro c hc x hx
       rw [List.mem_singleton.mp (show c ∈ [probeCore] from hc)] at hx
       rw [show probeCore.stash = List.replicate 8 none by decide +kernel] at hx
       simp at hx)

/-- A change of the page at address 0. -/
def pageChange (reply : Option HostMsg) : PageChange := ⟨1, 0#64, 65536, 0x40000, BitVec.ofNat 64 (2 ^ 42 + 0x200000 + 4 + 2), none, reply⟩

def changing (reply : Option HostMsg) : State := { paged with mem := { paged.mem with changes := [pageChange reply] } }

/-- The issued copy of the store to the page at address 0, its first packet done: it pins the page. -/
noncomputable def pinning : State :=
  let x : Xfer := { xfer with destAt := 0x200#64, done := [0], length := 1024, pins := [0x40000] }
  { issued with cores := [{ issuedCore with channels := issuedCore.channels.set 0 ⟨3, none, [x], [], none⟩ }] }

/-- A PLACE page with its frame on die 0 and 2^16 accesses of die 1, and a free frame of die 1. -/
def migrating : State :=
  { paged with
    ctxs := [{ pagedCtx false with frames := [[], [2 ^ 39 + 0x10000], [], []] }]
    mem :=
      { paged.mem.put 4 0x40000 (natBytes 8 (2 ^ 42 + 0x100000 + 0x30 + 4 + 2)) with counts := [⟨1, 0#64, [1, 2 ^ 16, 0, 0]⟩] } }

/-- A request of a loop for a cell in that page; a decoded view line that die 0's L2 holds; two changes of one MAPWRITE. -/
def reserving : State :=
  { changing none with net := { ready.net with rsvs := [⟨9, false, 0x200#64, [(0x100200, 8)], 5, 0, []⟩] } }

def viewing : State := { ready with mem := { ready.mem with views := [⟨2 ^ 34 + 0x2000, 0, [], false, false, []⟩] } }

def twice : State :=
  { paged with mem := { paged.mem with changes := [pageChange (some mapReply), { pageChange (some mapReply) with entryAt := 0x40008 }] } }

theorem witness_PageChangesAndErrorsComplete :
    (changing none).mem.changes[0]? = some (pageChange none) ∧ pagePinned (changing none) 0x40000 = false ∧
      (changing none).mem.wf = true ∧ (changing none).mem.views = [] ∧
      (changing (some mapReply)).mem.changes[0]? = some (pageChange (some mapReply)) ∧
      pagePinned (changing (some mapReply)) 0x40000 = false ∧ pagePinned pinning 0x40000 = true ∧
      (∃ c l, findCtx migrating 1 = some c ∧ walk migrating.mem c 0 = some l ∧ entryPlace l.word = true ∧ entryPlaced l.word = true ∧
        entryMigrating l.word = false ∧ keyDie (entryPhys l.word) ≠ 1 ∧ remoteMajority migrating 1 (w64 0) (keyDie (entryPhys l.word)) = true ∧
        c.frames.getD 1 [] = [2 ^ 39 + 0x10000]) ∧ findCtx migrating 2 = none ∧ errorFits ready.mem .hbm 0x100200 = true ∧
      errorFits ready.mem .coreStore 0x100200 = false ∧ errorFits viewing.mem .l2 (128 * (2 ^ 34 + 0x2000)) = true ∧
      keyIsView (16 * (128 * (2 ^ 34 + 0x2000) / 16)) = true ∧ keyIsView (16 * (0x100200 / 16)) = false ∧
      rsvWithin (changing none) (entryPhys ((changing none).mem.word64 0x40000)) 65536 = false ∧
      rsvWithin reserving (entryPhys (reserving.mem.word64 0x40000)) 65536 = true ∧
      (∀ y ∈ (changing (some mapReply)).mem.changes, y ≠ pageChange (some mapReply) → y.reply ≠ some mapReply) ∧
      twice.mem.changes[0]? = some (pageChange (some mapReply)) ∧
      (∃ y ∈ twice.mem.changes, y ≠ pageChange (some mapReply) ∧ y.reply = some mapReply) := by
  repeat' with_reducible apply And.intro
  all_goals first
    | decide +kernel
    | exact ⟨{ pagedCtx false with frames := [[], [2 ^ 39 + 0x10000], [], []] },
        ⟨0x40000, BitVec.ofNat 64 (2 ^ 42 + 0x100000 + 0x30 + 4 + 2), 3⟩, by decide +kernel⟩

/-- An atomic from outside on the word at 0x200 passes its checks. -/
def reachesHub (s : State) : Bool :=
  match (do
      let p ← reach (hubAgent (pagedCtx false)) 0x200 8 .write true true
      updateAt (hubAgent (pagedCtx false)) p 0x200 8 (some 3) (fun old => combine 0 64 old 5) : Act (Option Nat)) s with
  | .ok _ => true
  | .error _ => false

theorem hubReaches_of {s : State} {c : Ctx} {a n k : Nat} {kind : Kind} {checked fmtw : Bool}
    (h : (decide (0 < n ∧ a % 65536 + n ≤ 65536 ∧ keyIsView k = false) &&
      okIs ((reach (hubAgent c) a n kind checked fmtw s).map
        (fun x => ((match x.1 with | .bytes k' _ => k' == k | _ => false), decide (x.2 = s)))) (true, true)) = true) :
    HubReaches s c a n kind checked fmtw k s := by
  simp only [Bool.and_eq_true, decide_eq_true_eq] at h
  obtain ⟨⟨h1, h2, h3⟩, h4⟩ := h
  refine ⟨h1, h2, h3, ?_⟩
  cases hr : reach (hubAgent c) a n kind checked fmtw s with
  | error e => simp [hr, okIs, Except.map] at h4
  | ok x =>
    obtain ⟨p, t⟩ := x
    cases p with
    | bytes k' leaf =>
      simp only [hr, okIs, Except.map, Prod.mk.injEq, beq_iff_eq, decide_eq_true_eq] at h4
      exact ⟨leaf, by rw [h4.1, h4.2]⟩
    | _ => simp [hr, okIs, Except.map] at h4

/-- The address 2^50 + 0x200, of another device. -/
def farAddress : DWord := BitVec.ofNat 64 (2 ^ 50 + 0x200)

/-- The page at address 0 migrates. -/
def migratingHost : State :=
  { mapped with mem := mapped.mem.put 4 0x40000 (natBytes 8 (entryWithMigrating (mapped.mem.word64 0x40000) true).toNat) }

/-- A write of the host that had to wait. -/
def wroteBefore (s : State) : State := { s with net := { s.net with hostWrites := [⟨1, 0x300#64, [9#8]⟩] } }

theorem witness_OutsideAccessesArePerformed :
    findCtx mapped 1 = some (pagedCtx false) ∧ (0x200#64).toNat / 2 ^ 50 = mapped.dev.number ∧
      (∃ x, hubRead (pagedCtx false) 0x200 16 mapped = .ok x) ∧ (∃ x, hubWrite (pagedCtx false) true 0x200 [1#8] false mapped = .ok x) ∧
      (∃ e, hubRead (pagedCtx false) 0x20000 16 mapped = .error e) ∧ (0x200#64).toNat % 16 = 0 ∧
      reachesHub mapped = true ∧ farAddress.toNat / 2 ^ 50 ≠ mapped.dev.number ∧ sessionOpen mapped = true ∧
      HubReaches mapped (pagedCtx false) 0x200 16 .read false false 0x100200 mapped ∧
      HubReaches mapped (pagedCtx false) 0x200 16 .write true true 0x100200 mapped ∧
      HubReaches mapped (pagedCtx false) 0x200 16 .write false true 0x100200 mapped ∧
      mapped.mem.firstPoison 0x100200 16 = none ∧ mapped.mem.wf = true ∧ NoViews 0x100200 mapped.mem ∧
      HubReaches mapped (pagedCtx false) (clusterKey 0 0 0x100) 4 .write true true (clusterKey 0 0 0x100) mapped ∧
      mapped.mem.isFull (clusterKey 0 0 0x100) = false ∧ keyIsCluster (clusterKey 0 0 0x100) = true ∧ sessionOpen paged = false ∧
      mapped.net.hostWrites = [] ∧ waits (hubWrite (pagedCtx false) false 0x200 [1#8] false migratingHost) = true ∧
      sessionOpen (retryWrites (wroteBefore mapped)) = true ∧ (retryWrites (wroteBefore mapped)).net.hostWrites = [] ∧
      (wroteBefore mapped).net.hostWrites ≠ [] := by
  repeat' with_reducible apply And.intro
  all_goals first
    | decide +kernel
    | exact ok_exists (by decide +kernel)
    | exact error_exists (by decide +kernel)
    | exact hubReaches_of (by decide +kernel)
    | exact Or.inr (by decide +kernel)

/-! ## Witnesses: traps, the package, the whole machine -/

theorem witness_TrapsAreTaken :
    ready.cur.duty = .firing ∧ ready.cur.trapped = false ∧ findCtx trapReady ready.cur.fid.ctx = some trapContext ∧
      trapContext.trapEntry.tag = true ∧ capHas trapContext.trapEntry.val permEXE = true ∧ (0x17 : Nat) < 256 ∧
      bandOf host host.cur = some probeBand ∧ probeBand.state = .running ∧ host.dev.session = some session ∧
      findCtx host host.cur.fid.ctx = some probeCtx ∧ probeCtx.trapEntry.tag = false ∧ (trapped host).cur.trapped = true ∧
      Runs (.nop (on 0 0 0)) ready ∧ Runs (.etrap (on 0 0 5)) ready ∧ Runs (.etrapExt (onExt 0 0 0 0 5)) ready ∧
      (onExt 0 0 0 0 5).hasExt = true ∧ inHandler ready.cur = false ∧ inHandler handling.cur = true ∧ executedOf handling.cur < 4096 ∧
      4096 ≤ executedOf { ready.cur with duty := .handler { duty0 with executed := 4096 } } := by
  repeat' with_reducible apply And.intro
  all_goals first
    | decide +kernel
    | exact runs_of (by decide +kernel)

def device (f : Device → Device) : State := { ready with dev := f ready.dev }

/-- Off, with a boot that has begun or not. -/
def off (target : Option PowerState) (starts : Nat) (xs : List FirmwareStage) : State :=
  device (fun d => { d with power := .d3, powerTarget := target, failedStarts := starts, firmware := xs })

def commandedTo (p : PowerState) : State :=
  { device (fun d => { d with powerTarget := some p }) with bands := [], ctxs := [], cur := Thread.idle }

theorem witness_PowerEventsComplete :
    ready.dev.power = .d0 ∧ (commandedTo .d1).dev.power ≠ .d3 ∧ (commandedTo .d1).dev.warmReset = none ∧
      ready.dev.warmReset = none ∧ tripLevel (.die 2) 110 = true ∧ tripLevel (.die 2) 109 = false ∧
      tripLevel (.stack 15) 95 = true ∧ tripLevel (.current 0) 12001 = true ∧ ready.dev.power ≠ .d3 ∧ (120 : Nat) ≤ 120 ∧ (119 : Nat) < 120 ∧
      ready.dev.powerTarget ≠ some .d1 ∧ (commandedTo .d0).dev.powerTarget = some .d0 ∧
      (commandedTo .d1).dev.powerTarget = some .d1 ∧ (commandedTo .d1).bands = [] ∧ powerAllows (commandedTo .d2) .d2 = true ∧
      powerAllows (commandedTo .d3) .d3 = true ∧ (off none 3 []).dev.power = .d3 ∧ (off none 3 []).dev.powerTarget = none ∧
      3 ≤ (off none 3 []).dev.failedStarts ∧ (off none 2 []).dev.failedStarts < 3 ∧
      bootStages 1 (off none 2 []).dev.firmware = (none, []) ∧
      bootStages 1 (off none 0 noImages).dev.firmware = (some (1, 4), noImages) ∧
      (off (some .d0) 0 []).dev.power = .d3 ∧ (off (some .d0) 0 []).dev.powerTarget = some .d0 ∧
      (off none 3 []).dev.ports[0]? = some .up ∧ (off none 3 []).dev.ports[23]? = some .up := by
  repeat' with_reducible apply And.intro
  all_goals decide +kernel

/-- A node waits in the pool of a context none of whose bands runs, at a cycle. -/
def stalled (cycle : Nat) : State := { device (fun d => { d with cycle := cycle }) with bands := [], nodes := [poolNode probePacket] }

/-- The session's last command was at cycle 0, or it was lost then. -/
def silent (lost : Option Nat) (cycle : Nat) : State :=
  device (fun d => { d with session := some { session with lastCommand := 0, lost := lost }, cycle := cycle })

def throttle : Throttle := ⟨3, 7, true, 65536⟩

def alertState (n : Nat) : State := device (fun d => { d with alerts := d.alerts.set 3 (List.replicate n ⟨0, 1, 2, 3, false⟩) })

theorem witness_PackageReportsComplete :
    ready.dev.warmReset = none ∧ ready.dev.power ≠ .d3 ∧ resetting.dev.warmReset ≠ none ∧
      findCtx (stalled (2 ^ 31)) 1 = some probeCtx ∧
      oldestNode (((stalled (2 ^ 31)).nodes.filter (fun n => n.ctx == 1 && !n.resumed)).filter (·.ready)) = some (poolNode probePacket) ∧
      (stalled (2 ^ 31)).bands = [] ∧ stalledSince (stalled (2 ^ 31)) probeCtx (poolNode probePacket) + probeCtx.stallInterval ≤ 2 ^ 31 ∧
      (stalled 5).dev.cycle < stalledSince (stalled 5) probeCtx (poolNode probePacket) + probeCtx.stallInterval ∧
      0 + 2 * cyclesPerSecond ≤ (silent none (2 * cyclesPerSecond)).dev.cycle ∧
      (silent none (2 * cyclesPerSecond - 1)).dev.cycle < 0 + 2 * cyclesPerSecond ∧
      0 + 60 * cyclesPerSecond ≤ (silent (some 0) (60 * cyclesPerSecond)).dev.cycle ∧
      (∀ y ∈ (silent (some 0) 5).mem.changes, y.reply = none) ∧ 3 < (alertState 0).dev.alerts.length ∧
      ((alertState 255).dev.alerts.getD 3 []).length < 256 ∧ 256 ≤ ((alertState 256).dev.alerts.getD 3 []).length ∧
      (device (fun d => { d with throttles := [throttle], cycle := 65536 })).dev.throttles[0]? = some throttle ∧
      throttle.expires ≤ (device (fun d => { d with throttles := [throttle], cycle := 65536 })).dev.cycle ∧
      (∃ found, (UnitKind.port, 3, found) ∈ (device (fun d => { d with failedUnits := [(.port, 3, 0)] })).dev.failedUnits) ∧
      (∀ found, (UnitKind.port, 3, found) ∉ ready.dev.failedUnits) := by
  repeat' with_reducible apply And.intro
  all_goals first
    | decide +kernel
    | exact ⟨0, List.mem_singleton.mpr rfl⟩
    | exact fun found => List.not_mem_nil

/-- ADD of g2 and g3 into g4, under predicate p1, which is zero. -/
def offF : Ext := { onExt 4 2 3 0 0 with pred := 1#3 }

theorem witness_PredicatedOffInstructionsOnlyAdvance :
    Instr.fields (.addExt offF) = some (1#6, 0#4, offF) ∧ FormAdmitted 1#6 0#4 offF ready ∧ ¬ FormEnabled 1#6 0#4 offF ready := by
  refine ⟨rfl, ?_, ?_⟩
  · exact ⟨fun h => absurd h (by decide +kernel), by decide +kernel, by decide +kernel, sound_of (by decide +kernel), fun h => absurd h (by decide +kernel)⟩
  · unfold FormEnabled
    decide +kernel

/-- A handler that has executed n instructions. -/
def handlingAt (n : Nat) : State := { ready with cur := { ready.cur with duty := .handler { duty0 with executed := n } } }

/-- The probe with 8 g registers. -/
def tight : State := { ready with cur := { ready.cur with allotw := 0#64 } }

theorem witness_CommonChecksPrecedeEveryEffect :
    Instr.fields (.add (on 4 2 3)) = some (1#6, 0#4, (on 4 2 3).ext) ∧ inHandler (handlingAt 4096).cur = true ∧
      4096 ≤ executedOf (handlingAt 4096).cur ∧ executedOf (handlingAt 5).cur < 4096 ∧ inHandler (handlingAt 5).cur = true ∧
      Instr.fields (.xcopy (copyF 0 64)) = some (0x19#6, 0#4, copyF 0 64) ∧ handlerPermits 0x19 0 = false ∧
      inHandler ready.cur = false ∧ Instr.fields (.nmrun (onExt 0 0 0 0 0)) = some (0x33#6, 1#4, onExt 0 0 0 0 0) ∧
      unitMissing ready.cur 0x33 1 = true ∧ unitMissing tight.cur 1 0 = false ∧
      (formFor 1#6 0#4 0#2).bind (fun r => outside tight r (on 63 2 3).ext) = some 0x3F#64 ∧
      Instr.fields (.addExt offF) = some (1#6, 0#4, offF) ∧ ¬ Sound (predItems offF.pred.toNat) (tainted [1] ready) ∧
      unitMissing (tainted [1] ready).cur 1 0 = false ∧ (formFor 1#6 0#4 offF.len).bind (fun r => outside (tainted [1] ready) r offF) = none := by
  repeat' with_reducible apply And.intro
  all_goals first
    | (unfold Sound; decide +kernel)
    | rfl
    | decide +kernel

/-- The state in which the next step fetches a word. -/
def fetching (w : Word) : State := { probe with mem := probe.mem.put 4 (clusterKey 0 0 0) (wordBytes w) }

theorem words_at (w : Word) {s : State} (h : okIs (fetchWord s.cur.pc.toNat s) (w, s) = true) : WordsAtPc s [w] := by
  intro j hj
  have hj : j = 0 := by simpa using hj
  subst hj
  have : (s.cur.pc + w64 (4 * 0)).toNat = s.cur.pc.toNat := by simp [w64]
  rw [this]
  exact ok_of h

/-- NOP: OP 0x0E, FN 7 (04 R134). -/
def nopWord : Word := 0x70000038#32

/-- The probe's firing waits on its thread while another thread issues. -/
def elsewhere : State :=
  { fetching nopWord with
    cur := { Thread.idle with pos := { core0 with thread := 1 } }
    threads := [(fetching nopWord).cur]
    turns := [.issue core0 []] }

/-- The firing with a result for g5 in flight. -/
def resultFlying : State :=
  { fetching nopWord with cur := { (fetching nopWord).cur with inFlight := [⟨5, 7#64, none, 0x100#64, 0#64, .full, 0⟩] } }

theorem landed_none {s : State} (h : s.cur.inFlight = []) (hr : s.cur.remoteStores = []) : landResults s = s := by
  have hc : { s.cur with inFlight := [] } = s.cur := by rw [← h]
  have he : expireStores s = s := by
    unfold expireStores
    rw [hr, List.map_nil, ← hr]
  unfold landResults
  rw [he]
  dsimp only
  rw [hc, h]
  rfl

theorem issues_landed {s : State} (h : (s.cur.inFlight.isEmpty && s.cur.remoteStores.isEmpty && mayIssue s s.cur) = true) : IssuesLanded s := by
  simp only [Bool.and_eq_true, List.isEmpty_iff] at h
  unfold IssuesLanded
  rw [landed_none h.1.1 h.1.2]
  exact ⟨h.2, h.2⟩

theorem at_pc {s : State} {w : Word}
    (h : (s.cur.inFlight.isEmpty && s.cur.remoteStores.isEmpty && okIs (fetchWord s.cur.pc.toNat s) (w, s) && decide (lenWords (w.extractLsb' 0 2) = 1)) = true) :
    InstructionAtPc (landResults s) [w] := by
  simp only [Bool.and_eq_true, List.isEmpty_iff, decide_eq_true_eq] at h
  rw [landed_none h.1.1.1 h.1.1.2]
  exact ⟨words_at w h.1.2, h.2.symm⟩

/-- A write comes to be seen by the threads of a core before the others of its die. -/
def showing : State := { unseenState [1, 0, 0, 0, 0] with turns := [.shows 1 (.core core0)] }

theorem witness_StepRunsTheDecodedInstruction :
    (fetching nopWord).turns = [] ∧ (fetching nopWord).late = [] ∧ IssuesLanded (fetching nopWord) ∧
      InstructionAtPc (landResults (fetching nopWord)) [nopWord] ∧ Decodes false [nopWord] (.ok (.nop (on 0 0 0))) ∧
      WordsAtPc (fetching 0xFC#32) [0xFC#32] ∧ IssuesLanded (fetching 0xFC#32) ∧ decodeHead 0xFC#32 = .error 1 ∧
      InstructionAtPc (landResults (fetching 0x70000138#32)) [0x70000138#32] ∧ IssuesLanded (fetching 0x70000138#32) ∧
      Decodes false [0x70000138#32] (.error 6) ∧ elsewhere.turns = [.issue core0 []] ∧
      (∃ t, selectThread core0 { elsewhere with turns := [], late := [] } = some t ∧ IssuesLanded t ∧
        InstructionAtPc (landResults t) [nopWord]) ∧
      mayIssue { State.reset with late := [] } State.reset.cur = false ∧ (∀ r ∈ resultFlying.cur.inFlight, r.away = none) ∧
      (∀ n, (gRead ready.cur n).reply = []) ∧
      showing.turns = .shows 1 (.core core0) :: [] ∧ showing.mem.unseen = [unseenWrite] := by
  repeat' with_reducible apply And.intro
  all_goals first
    | decide +kernel
    | exact issues_landed (by decide +kernel)
    | exact at_pc (by decide +kernel)
    | exact words_at _ (by decide +kernel)
    | (unfold Decodes; rfl)
    | exact ⟨_, rfl, issues_landed (by decide +kernel), at_pc (by decide +kernel)⟩

theorem witness_DecodeInvertsEncode :
    Instr.fields (.addExt offF) ≠ none ∧ (Instr.addExt offF).wf false = true ∧ (Instr.nop (on 0 0 0)).wf true = true :=
  ⟨by decide +kernel, by decide +kernel, by decide +kernel⟩

theorem witness_StepsKeepMemoryCanonical :
    MemoryCanonical State.reset ∧ step { State.reset with turns := [.event .heartbeat []] } = .next (tickCycle State.reset) :=
  ⟨by unfold MemoryCanonical; decide +kernel, rfl⟩

/-! ## Words of the spec's programs: decoded, and encoded back -/

/-- add g3, g4, g5, ?~p2 (02_encoding_and_syntax.md). -/
theorem test_decodes_addExt :
    decodeTableWord 96 0x2800000510306 = some (.addExt ⟨2#2, false, false, 5#6, 4#6, 3#6, 0x0#8, 0#3, 0#3, true, 2#3, 0#4, 0#3, false, 0#6, 0x0#32, 0x0#64⟩) ∧
    encode (.addExt ⟨2#2, false, false, 5#6, 4#6, 3#6, 0x0#8, 0#3, 0#3, true, 2#3, 0#4, 0#3, false, 0#6, 0x0#32, 0x0#64⟩) = [0x00510306#32, 0x00028000#32, 0x00000000#32] := by
  decide +kernel

/-- mul g28, g28, 0x4080 (17_program_embedding_lookup.md). -/
theorem test_decodes_mulExt :
    decodeTableWord 96 0x408020071C05 = some (.mulExt ⟨1#2, false, false, 0#6, 28#6, 28#6, 0x0#8, 0#3, 0#3, false, 0#3, 0#4, 0#3, false, 0#6, 0x0#32, 0x4080#64⟩) ∧
    encode (.mulExt ⟨1#2, false, false, 0#6, 28#6, 28#6, 0x0#8, 0#3, 0#3, false, 0#3, 0#4, 0#3, false, 0#6, 0x0#32, 0x4080#64⟩) = [0x20071C05#32, 0x00004080#32, 0x00000000#32] := by
  decide +kernel

/-- addi g6, g7, -3 (02_encoding_and_syntax.md). -/
theorem test_decodes_addi :
    decodeTableWord 32 0x83D1C608 = some (.addi ⟨false, false, 61#6, 7#6, 6#6⟩) ∧
    encode (.addi ⟨false, false, 61#6, 7#6, 6#6⟩) = [0x83D1C608#32] := by
  decide +kernel

/-- shl g3, g4, 40 (02_encoding_and_syntax.md). -/
theorem test_decodes_shlI6 :
    decodeTableWord 32 0x92810308 = some (.shlI6 ⟨false, false, 40#6, 4#6, 3#6⟩) ∧
    encode (.shlI6 ⟨false, false, 40#6, 4#6, 3#6⟩) = [0x92810308#32] := by
  decide +kernel

/-- bfx g4, g5, 8, 12 (04_isa_scalar_control.md). -/
theorem test_decodes_bfx :
    decodeTableWord 96 0xC08000000007001440E = some (.bfx ⟨2#2, false, false, 0#6, 5#6, 4#6, 0x0#8, 0#3, 0#3, false, 0#3, 0#4, 0#3, false, 0#6, 0xC08#32, 0x0#64⟩) ∧
    encode (.bfx ⟨2#2, false, false, 0#6, 5#6, 4#6, 0x0#8, 0#3, 0#3, false, 0#3, 0#4, 0#3, false, 0#6, 0xC08#32, 0x0#64⟩) = [0x7001440E#32, 0x00000000#32, 0x00000C08#32] := by
  decide +kernel

/-- zext g29, g27, 32 (17_program_embedding_lookup.md). -/
theorem test_decodes_zext :
    decodeTableWord 32 0x6206DD0C = some (.zext ⟨false, false, 32#6, 27#6, 29#6⟩) ∧
    encode (.zext ⟨false, false, 32#6, 27#6, 29#6⟩) = [0x6206DD0C#32] := by
  decide +kernel

/-- li g9, 0x0123_4567_89AB_CDEF (02_encoding_and_syntax.md). -/
theorem test_decodes_liExt :
    decodeTableWord 96 0x123456789ABCDEF10000911 = some (.liExt ⟨1#2, false, false, 0#6, 0#6, 9#6, 0x0#8, 0#3, 0#3, false, 0#3, 0#4, 0#3, false, 0#6, 0x0#32, 0x123456789ABCDEF#64⟩) ∧
    encode (.liExt ⟨1#2, false, false, 0#6, 0#6, 9#6, 0x0#8, 0#3, 0#3, false, 0#3, 0#4, 0#3, false, 0#6, 0x0#32, 0x123456789ABCDEF#64⟩) = [0x10000911#32, 0x89ABCDEF#32, 0x01234567#32] := by
  decide +kernel

/-- mov g26, g21, ?p6 (17_program_embedding_lookup.md). -/
theorem test_decodes_movExt :
    decodeTableWord 96 0x1800000055A12 = some (.movExt ⟨2#2, false, false, 0#6, 21#6, 26#6, 0x0#8, 0#3, 0#3, false, 6#3, 0#4, 0#3, false, 0#6, 0x0#32, 0x0#64⟩) ∧
    encode (.movExt ⟨2#2, false, false, 0#6, 21#6, 26#6, 0x0#8, 0#3, 0#3, false, 6#3, 0#4, 0#3, false, 0#6, 0x0#32, 0x0#64⟩) = [0x00055A12#32, 0x00018000#32, 0x00000000#32] := by
  decide +kernel

/-- cmp.ltn p2, g5, 1000 (02_encoding_and_syntax.md). -/
theorem test_decodes_cmpLtnExt :
    decodeTableWord 96 0x3E860014215 = some (.cmpLtnExt ⟨1#2, false, false, 0#6, 5#6, 2#6, 0x0#8, 0#3, 0#3, false, 0#3, 0#4, 0#3, false, 0#6, 0x0#32, 0x3E8#64⟩) ∧
    encode (.cmpLtnExt ⟨1#2, false, false, 0#6, 5#6, 2#6, 0x0#8, 0#3, 0#3, false, 0#3, 0#4, 0#3, false, 0#6, 0x0#32, 0x3E8#64⟩) = [0x60014215#32, 0x000003E8#32, 0x00000000#32] := by
  decide +kernel

/-- cmp.gen p2, g13, 1 (18_program_reserving_loop.md). -/
theorem test_decodes_cmpGenExt :
    decodeTableWord 96 0x190034215 = some (.cmpGenExt ⟨1#2, false, false, 0#6, 13#6, 2#6, 0x0#8, 0#3, 0#3, false, 0#3, 0#4, 0#3, false, 0#6, 0x0#32, 0x1#64⟩) ∧
    encode (.cmpGenExt ⟨1#2, false, false, 0#6, 13#6, 2#6, 0x0#8, 0#3, 0#3, false, 0#3, 0#4, 0#3, false, 0#6, 0x0#32, 0x1#64⟩) = [0x90034215#32, 0x00000001#32, 0x00000000#32] := by
  decide +kernel

/-- candp g2, g2, 0x103 (18_program_reserving_loop.md). -/
theorem test_decodes_candpExt :
    decodeTableWord 96 0x10340008221 = some (.candpExt ⟨1#2, false, false, 0#6, 2#6, 2#6, 0x0#8, 0#3, 0#3, false, 0#3, 0#4, 0#3, false, 0#6, 0x0#32, 0x103#64⟩) ∧
    encode (.candpExt ⟨1#2, false, false, 0#6, 2#6, 2#6, 0x0#8, 0#3, 0#3, false, 0#3, 0#4, 0#3, false, 0#6, 0x0#32, 0x103#64⟩) = [0x40008221#32, 0x00000103#32, 0x00000000#32] := by
  decide +kernel

/-- cadd g5, g5, 16 (19_program_embedding_gradient.md). -/
theorem test_decodes_caddExt :
    decodeTableWord 96 0x1000014521 = some (.caddExt ⟨1#2, false, false, 0#6, 5#6, 5#6, 0x0#8, 0#3, 0#3, false, 0#3, 0#4, 0#3, false, 0#6, 0x0#32, 0x10#64⟩) ∧
    encode (.caddExt ⟨1#2, false, false, 0#6, 5#6, 5#6, 0x0#8, 0#3, 0#3, false, 0#3, 0#4, 0#3, false, 0#6, 0x0#32, 0x10#64⟩) = [0x00014521#32, 0x00000010#32, 0x00000000#32] := by
  decide +kernel

/-- pset p3, 0xFF (04_isa_scalar_control.md). -/
theorem test_decodes_psetExt :
    decodeTableWord 96 0xFF000000005000032E = some (.psetExt ⟨2#2, false, false, 0#6, 0#6, 3#6, 0x0#8, 0#3, 0#3, false, 0#3, 0#4, 0#3, false, 0#6, 0xFF#32, 0x0#64⟩) ∧
    encode (.psetExt ⟨2#2, false, false, 0#6, 0#6, 3#6, 0x0#8, 0#3, 0#3, false, 0#3, 0#4, 0#3, false, 0#6, 0xFF#32, 0x0#64⟩) = [0x5000032E#32, 0x00000000#32, 0x000000FF#32] := by
  decide +kernel

/-- pand p3, p3, p4 (17_program_embedding_lookup.md). -/
theorem test_decodes_pand :
    decodeTableWord 32 0x40C32C = some (.pand ⟨false, false, 4#6, 3#6, 3#6⟩) ∧
    encode (.pand ⟨false, false, 4#6, 3#6, 3#6⟩) = [0x0040C32C#32] := by
  decide +kernel

/-- fadd.fp64.rtz g10, g11, g12 (04_isa_scalar_control.md). -/
theorem test_decodes_fadd :
    decodeTableWord 96 0x8000C2CA32 = some (.fadd ⟨2#2, false, false, 12#6, 11#6, 10#6, 0x0#8, 0#3, 0#3, false, 0#3, 0#4, 1#3, false, 0#6, 0x0#32, 0x0#64⟩) ∧
    encode (.fadd ⟨2#2, false, false, 12#6, 11#6, 10#6, 0x0#8, 0#3, 0#3, false, 0#3, 0#4, 1#3, false, 0#6, 0x0#32, 0x0#64⟩) = [0x00C2CA32#32, 0x00000080#32, 0x00000000#32] := by
  decide +kernel

/-- ffma.fp32 g2, g3, g4, g6 (04_isa_scalar_control.md). -/
theorem test_decodes_ffma :
    decodeTableWord 96 0x4063040C232 = some (.ffma ⟨2#2, false, false, 4#6, 3#6, 2#6, 0x0#8, 0#3, 0#3, false, 0#3, 1#4, 0#3, false, 6#6, 0x0#32, 0x0#64⟩) ∧
    encode (.ffma ⟨2#2, false, false, 4#6, 3#6, 2#6, 0x0#8, 0#3, 0#3, false, 0#3, 1#4, 0#3, false, 6#6, 0x0#32, 0x0#64⟩) = [0x3040C232#32, 0x00000406#32, 0x00000000#32] := by
  decide +kernel

/-- loop g9, top (04_isa_scalar_control.md). -/
theorem test_decodes_loop :
    decodeTableWord 96 0xFFFFFFE8000000005002403A = some (.loop ⟨2#2, false, false, 0#6, 9#6, 0#6, 0x0#8, 0#3, 0#3, false, 0#3, 0#4, 0#3, false, 0#6, 0xFFFFFFE8#32, 0x0#64⟩) ∧
    encode (.loop ⟨2#2, false, false, 0#6, 9#6, 0#6, 0x0#8, 0#3, 0#3, false, 0#3, 0#4, 0#3, false, 0#6, 0xFFFFFFE8#32, 0x0#64⟩) = [0x5002403A#32, 0x00000000#32, 0xFFFFFFE8#32] := by
  decide +kernel

/-- brp.any p1, consumer (15_program_stream_ring.md). -/
theorem test_decodes_brp :
    decodeTableWord 96 0x1B4000000011000003A = some (.brp ⟨2#2, false, false, 0#6, 0#6, 0#6, 0x0#8, 0#3, 0#3, false, 0#3, 0#4, 0#3, false, 1#6, 0x1B4#32, 0x0#64⟩) ∧
    encode (.brp ⟨2#2, false, false, 0#6, 0#6, 0#6, 0x0#8, 0#3, 0#3, false, 0#3, 0#4, 0#3, false, 1#6, 0x1B4#32, 0x0#64⟩) = [0x1000003A#32, 0x00000001#32, 0x000001B4#32] := by
  decide +kernel

/-- mfs g7, tid (02_encoding_and_syntax.md). -/
theorem test_decodes_mfs :
    decodeTableWord 32 0x873C = some (.mfs ⟨false, false, 0#6, 2#6, 7#6⟩) ∧
    encode (.mfs ⟨false, false, 0#6, 2#6, 7#6⟩) = [0x0000873C#32] := by
  decide +kernel

/-- mts tpc, g3 (04_isa_scalar_control.md). -/
theorem test_decodes_mts :
    decodeTableWord 32 0x1000CD3C = some (.mts ⟨false, false, 0#6, 3#6, 13#6⟩) ∧
    encode (.mts ⟨false, false, 0#6, 3#6, 13#6⟩) = [0x1000CD3C#32] := by
  decide +kernel

/-- lda.64.dev g5, [g8, 16] (05_isa_memory_sync.md). -/
theorem test_decodes_lda64Ext :
    decodeTableWord 96 0x10000C000090020542 = some (.lda64Ext ⟨2#2, false, false, 0#6, 8#6, 5#6, 0x0#8, 0#3, 3#3, false, 0#3, 0#4, 0#3, false, 0#6, 0x10#32, 0x0#64⟩) ∧
    encode (.lda64Ext ⟨2#2, false, false, 0#6, 8#6, 5#6, 0x0#8, 0#3, 3#3, false, 0#3, 0#4, 0#3, false, 0#6, 0x10#32, 0x0#64⟩) = [0x90020542#32, 0x000C0000#32, 0x00000010#32] := by
  decide +kernel

/-- ld.n32 g5, [g8, -4] (02_encoding_and_syntax.md). -/
theorem test_decodes_ldN32 :
    decodeTableWord 32 0x53F20540 = some (.ldN32 ⟨false, false, 63#6, 8#6, 5#6⟩) ∧
    encode (.ldN32 ⟨false, false, 63#6, 8#6, 5#6⟩) = [0x53F20540#32] := by
  decide +kernel

/-- stl.64.dev g5, [g10, 8] (05_isa_memory_sync.md). -/
theorem test_decodes_stl64Ext :
    decodeTableWord 96 0x8000C000060028546 = some (.stl64Ext ⟨2#2, false, false, 0#6, 10#6, 5#6, 0x0#8, 0#3, 3#3, false, 0#3, 0#4, 0#3, false, 0#6, 0x8#32, 0x0#64⟩) ∧
    encode (.stl64Ext ⟨2#2, false, false, 0#6, 10#6, 5#6, 0x0#8, 0#3, 3#3, false, 0#3, 0#4, 0#3, false, 0#6, 0x8#32, 0x0#64⟩) = [0x60028546#32, 0x000C0000#32, 0x00000008#32] := by
  decide +kernel

/-- stc g28, [g1, 0x2C0] (16_program_factorised_join.md). -/
theorem test_decodes_stcExt :
    decodeTableWord 96 0x2C00000000040005C46 = some (.stcExt ⟨2#2, false, false, 0#6, 1#6, 28#6, 0x0#8, 0#3, 0#3, false, 0#3, 0#4, 0#3, false, 0#6, 0x2C0#32, 0x0#64⟩) ∧
    encode (.stcExt ⟨2#2, false, false, 0#6, 1#6, 28#6, 0x0#8, 0#3, 0#3, false, 0#3, 0#4, 0#3, false, 0#6, 0x2C0#32, 0x0#64⟩) = [0x40005C46#32, 0x00000000#32, 0x000002C0#32] := by
  decide +kernel

/-- ldf g5, [g10] (05_isa_memory_sync.md). -/
theorem test_decodes_ldf :
    decodeTableWord 32 0x28548 = some (.ldf ⟨false, false, 0#6, 10#6, 5#6⟩) ∧
    encode (.ldf ⟨false, false, 0#6, 10#6, 5#6⟩) = [0x00028548#32] := by
  decide +kernel

/-- ste g5, [g10, 4] (05_isa_memory_sync.md). -/
theorem test_decodes_ste :
    decodeTableWord 32 0x20128548 = some (.ste ⟨false, false, 1#6, 10#6, 5#6⟩) ∧
    encode (.ste ⟨false, false, 1#6, 10#6, 5#6⟩) = [0x20128548#32] := by
  decide +kernel

/-- sload s2, g4, g7 (05_isa_memory_sync.md). -/
theorem test_decodes_sload :
    decodeTableWord 32 0x710250 = some (.sload ⟨false, false, 7#6, 4#6, 2#6⟩) ∧
    encode (.sload ⟨false, false, 7#6, 4#6, 2#6⟩) = [0x00710250#32] := by
  decide +kernel

/-- sld v3, s2 (05_isa_memory_sync.md). -/
theorem test_decodes_sldV :
    decodeTableWord 32 0x20008350 = some (.sldV ⟨false, false, 0#6, 2#6, 3#6⟩) ∧
    encode (.sldV ⟨false, false, 0#6, 2#6, 3#6⟩) = [0x20008350#32] := by
  decide +kernel

/-- clzero [g8] (05_isa_memory_sync.md). -/
theorem test_decodes_clzero :
    decodeTableWord 32 0x40020054 = some (.clzero ⟨false, false, 0#6, 8#6, 0#6⟩) ∧
    encode (.clzero ⟨false, false, 0#6, 8#6, 0#6⟩) = [0x40020054#32] := by
  decide +kernel

/-- stash 3, g4, g5 (05_isa_memory_sync.md). -/
theorem test_decodes_stash :
    decodeTableWord 32 0x510354 = some (.stash ⟨false, false, 5#6, 4#6, 3#6⟩) ∧
    encode (.stash ⟨false, false, 5#6, 4#6, 3#6⟩) = [0x00510354#32] := by
  decide +kernel

/-- amo.add.i64.dev.ar g3, [g4], g5 (05_isa_memory_sync.md). -/
theorem test_decodes_amo :
    decodeTableWord 96 0x6C34000051035A = some (.amo ⟨2#2, false, false, 5#6, 4#6, 3#6, 0x0#8, 3#3, 3#3, false, 0#3, 13#4, 0#3, false, 0#6, 0x0#32, 0x0#64⟩) ∧
    encode (.amo ⟨2#2, false, false, 5#6, 4#6, 3#6, 0x0#8, 3#3, 3#3, false, 0#3, 13#4, 0#3, false, 0#6, 0x0#32, 0x0#64⟩) = [0x0051035A#32, 0x006C3400#32, 0x00000000#32] := by
  decide +kernel

/-- amon.add.i32 [g4], g5 (05_isa_memory_sync.md). -/
theorem test_decodes_amon :
    decodeTableWord 96 0x2C002051005A = some (.amon ⟨2#2, false, false, 5#6, 4#6, 0#6, 0x0#8, 0#3, 0#3, false, 0#3, 11#4, 0#3, false, 0#6, 0x0#32, 0x0#64⟩) ∧
    encode (.amon ⟨2#2, false, false, 5#6, 4#6, 0#6, 0x0#8, 0#3, 0#3, false, 0#3, 11#4, 0#3, false, 0#6, 0x0#32, 0x0#64⟩) = [0x2051005A#32, 0x00002C00#32, 0x00000000#32] := by
  decide +kernel

/-- fence.dev (05_isa_memory_sync.md). -/
theorem test_decodes_fence :
    decodeTableWord 96 0xC00000000005E = some (.fence ⟨2#2, false, false, 0#6, 0#6, 0#6, 0x0#8, 0#3, 3#3, false, 0#3, 0#4, 0#3, false, 0#6, 0x0#32, 0x0#64⟩) ∧
    encode (.fence ⟨2#2, false, false, 0#6, 0#6, 0#6, 0x0#8, 0#3, 3#3, false, 0#3, 0#4, 0#3, false, 0#6, 0x0#32, 0x0#64⟩) = [0x0000005E#32, 0x000C0000#32, 0x00000000#32] := by
  decide +kernel

/-- fencex.sys 5 (05_isa_memory_sync.md). -/
theorem test_decodes_fencex :
    decodeTableWord 96 0x51000001000005E = some (.fencex ⟨2#2, false, false, 0#6, 0#6, 0#6, 0x5#8, 0#3, 4#3, false, 0#3, 0#4, 0#3, false, 0#6, 0x0#32, 0x0#64⟩) ∧
    encode (.fencex ⟨2#2, false, false, 0#6, 0#6, 0#6, 0x5#8, 0#3, 4#3, false, 0#3, 0#4, 0#3, false, 0#6, 0x0#32, 0x0#64⟩) = [0x1000005E#32, 0x05100000#32, 0x00000000#32] := by
  decide +kernel

/-- barr g5, [g10] (05_isa_memory_sync.md). -/
theorem test_decodes_barr :
    decodeTableWord 32 0x10028560 = some (.barr ⟨false, false, 0#6, 10#6, 5#6⟩) ∧
    encode (.barr ⟨false, false, 0#6, 10#6, 5#6⟩) = [0x10028560#32] := by
  decide +kernel

/-- bwait [g10], g5 (05_isa_memory_sync.md). -/
theorem test_decodes_bwait :
    decodeTableWord 32 0x30528060 = some (.bwait ⟨false, false, 5#6, 10#6, 0#6⟩) ∧
    encode (.bwait ⟨false, false, 5#6, 10#6, 0#6⟩) = [0x30528060#32] := by
  decide +kernel

/-- xcopy g6, g4, g9, 0x0280_0800_0000_0080, 0x201 (05_isa_memory_sync.md). -/
theorem test_decodes_xcopy :
    decodeTableWord 160 0x280080000000080000002010000000900010667 = some (.xcopy ⟨3#2, false, false, 0#6, 4#6, 6#6, 0x0#8, 0#3, 0#3, false, 0#3, 0#4, 0#3, false, 9#6, 0x201#32, 0x280080000000080#64⟩) ∧
    encode (.xcopy ⟨3#2, false, false, 0#6, 4#6, 6#6, 0x0#8, 0#3, 0#3, false, 0#3, 0#4, 0#3, false, 9#6, 0x201#32, 0x280080000000080#64⟩) = [0x00010667#32, 0x00000009#32, 0x00000201#32, 0x00000080#32, 0x02800800#32] := by
  decide +kernel

/-- xwait 1, g6 (05_isa_memory_sync.md). -/
theorem test_decodes_xwait :
    decodeTableWord 32 0x20604064 = some (.xwait ⟨false, false, 6#6, 1#6, 0#6⟩) ∧
    encode (.xwait ⟨false, false, 6#6, 1#6, 0#6⟩) = [0x20604064#32] := by
  decide +kernel

/-- stbm.fp32 g3, [g4, 0], v5 (05_isa_memory_sync.md). -/
theorem test_decodes_stbm :
    decodeTableWord 96 0x4000051036A = some (.stbm ⟨2#2, false, false, 5#6, 4#6, 3#6, 0x0#8, 0#3, 0#3, false, 0#3, 1#4, 0#3, false, 0#6, 0x0#32, 0x0#64⟩) ∧
    encode (.stbm ⟨2#2, false, false, 5#6, 4#6, 3#6, 0x0#8, 0#3, 0#3, false, 0#3, 1#4, 0#3, false, 0#6, 0x0#32, 0x0#64⟩) = [0x0051036A#32, 0x00000400#32, 0x00000000#32] := by
  decide +kernel

/-- handover g4, g5 (05_isa_memory_sync.md). -/
theorem test_decodes_handover :
    decodeTableWord 32 0x20510068 = some (.handover ⟨false, false, 5#6, 4#6, 0#6⟩) ∧
    encode (.handover ⟨false, false, 5#6, 4#6, 0#6⟩) = [0x20510068#32] := by
  decide +kernel

/-- vfma.fp32.rtz v2, v4, v7, v9, ?p3 (02_encoding_and_syntax.md). -/
theorem test_decodes_vfma :
    decodeTableWord 96 0xC48930710282 = some (.vfma ⟨2#2, false, false, 7#6, 4#6, 2#6, 0x0#8, 0#3, 0#3, false, 3#3, 1#4, 1#3, false, 9#6, 0x0#32, 0x0#64⟩) ∧
    encode (.vfma ⟨2#2, false, false, 7#6, 4#6, 2#6, 0x0#8, 0#3, 0#3, false, 3#3, 1#4, 1#3, false, 9#6, 0x0#32, 0x0#64⟩) = [0x30710282#32, 0x0000C489#32, 0x00000000#32] := by
  decide +kernel

/-- vmul.fp32 v2, ch0!, v1 (02_encoding_and_syntax.md). -/
theorem test_decodes_vmul :
    decodeTableWord 96 0x40024170282 = some (.vmul ⟨2#2, false, true, 1#6, 28#6, 2#6, 0x0#8, 0#3, 0#3, false, 0#3, 1#4, 0#3, false, 0#6, 0x0#32, 0x0#64⟩) ∧
    encode (.vmul ⟨2#2, false, true, 1#6, 28#6, 2#6, 0x0#8, 0#3, 0#3, false, 0#3, 1#4, 0#3, false, 0#6, 0x0#32, 0x0#64⟩) = [0x24170282#32, 0x00000400#32, 0x00000000#32] := by
  decide +kernel

/-- vimin.n32 v6, v6, v7, ?p2 (17_program_embedding_lookup.md). -/
theorem test_decodes_vimin :
    decodeTableWord 96 0xB00030718692 = some (.vimin ⟨2#2, false, false, 7#6, 6#6, 6#6, 0x0#8, 0#3, 0#3, false, 2#3, 12#4, 0#3, false, 0#6, 0x0#32, 0x0#64⟩) ∧
    encode (.vimin ⟨2#2, false, false, 7#6, 6#6, 6#6, 0x0#8, 0#3, 0#3, false, 2#3, 12#4, 0#3, false, 0#6, 0x0#32, 0x0#64⟩) = [0x30718692#32, 0x0000B000#32, 0x00000000#32] := by
  decide +kernel

/-- vcmp.lt.i32 p1, v4, v7 (06_isa_vector_matrix.md). -/
theorem test_decodes_vcmp :
    decodeTableWord 96 0x2002C0000710196 = some (.vcmp ⟨2#2, false, false, 7#6, 4#6, 1#6, 0x2#8, 0#3, 0#3, false, 0#3, 11#4, 0#3, false, 0#6, 0x0#32, 0x0#64⟩) ∧
    encode (.vcmp ⟨2#2, false, false, 7#6, 4#6, 1#6, 0x2#8, 0#3, 0#3, false, 0#3, 11#4, 0#3, false, 0#6, 0x0#32, 0x0#64⟩) = [0x00710196#32, 0x02002C00#32, 0x00000000#32] := by
  decide +kernel

/-- vsel.fp32 v2, v4, v7, p3 (06_isa_vector_matrix.md). -/
theorem test_decodes_vsel :
    decodeTableWord 96 0x40320710296 = some (.vsel ⟨2#2, false, false, 7#6, 4#6, 2#6, 0x0#8, 0#3, 0#3, false, 0#3, 1#4, 0#3, false, 3#6, 0x0#32, 0x0#64⟩) ∧
    encode (.vsel ⟨2#2, false, false, 7#6, 4#6, 2#6, 0x0#8, 0#3, 0#3, false, 0#3, 1#4, 0#3, false, 3#6, 0x0#32, 0x0#64⟩) = [0x20710296#32, 0x00000403#32, 0x00000000#32] := by
  decide +kernel

/-- vcvt.sat.e4m3.fp32 v3, v4, 0 (06_isa_vector_matrix.md). -/
theorem test_decodes_vcvt :
    decodeTableWord 96 0x110010000001039A = some (.vcvt ⟨2#2, false, false, 0#6, 4#6, 3#6, 0x11#8, 0#3, 0#3, false, 0#3, 4#4, 0#3, false, 0#6, 0x0#32, 0x0#64⟩) ∧
    encode (.vcvt ⟨2#2, false, false, 0#6, 4#6, 3#6, 0x11#8, 0#3, 0#3, false, 0#3, 4#4, 0#3, false, 0#6, 0x0#32, 0x0#64⟩) = [0x0001039A#32, 0x11001000#32, 0x00000000#32] := by
  decide +kernel

/-- vrncvt.out.fp32 v3, v2, 0, ?p2 (16_program_factorised_join.md). -/
theorem test_decodes_vrncvt :
    decodeTableWord 96 0x10084001000839A = some (.vrncvt ⟨2#2, false, false, 0#6, 2#6, 3#6, 0x1#8, 0#3, 0#3, false, 2#3, 1#4, 0#3, false, 0#6, 0x0#32, 0x0#64⟩) ∧
    encode (.vrncvt ⟨2#2, false, false, 0#6, 2#6, 3#6, 0x1#8, 0#3, 0#3, false, 2#3, 1#4, 0#3, false, 0#6, 0x0#32, 0x0#64⟩) = [0x1000839A#32, 0x01008400#32, 0x00000000#32] := by
  decide +kernel

/-- vsegsum.i32 v2, v4, p5 (06_isa_vector_matrix.md). -/
theorem test_decodes_vsegsum :
    decodeTableWord 96 0x2C052001029E = some (.vsegsum ⟨2#2, false, false, 0#6, 4#6, 2#6, 0x0#8, 0#3, 0#3, false, 0#3, 11#4, 0#3, false, 5#6, 0x0#32, 0x0#64⟩) ∧
    encode (.vsegsum ⟨2#2, false, false, 0#6, 4#6, 2#6, 0x0#8, 0#3, 0#3, false, 0#3, 11#4, 0#3, false, 5#6, 0x0#32, 0x0#64⟩) = [0x2001029E#32, 0x00002C05#32, 0x00000000#32] := by
  decide +kernel

/-- vred.add.rns64 g10, v2, ?p4 (16_program_factorised_join.md). -/
theorem test_decodes_vred :
    decodeTableWord 96 0x1380000008A9E = some (.vred ⟨2#2, false, false, 0#6, 2#6, 10#6, 0x0#8, 0#3, 0#3, false, 4#3, 14#4, 0#3, false, 0#6, 0x0#32, 0x0#64⟩) ∧
    encode (.vred ⟨2#2, false, false, 0#6, 2#6, 10#6, 0x0#8, 0#3, 0#3, false, 4#3, 14#4, 0#3, false, 0#6, 0x0#32, 0x0#64⟩) = [0x00008A9E#32, 0x00013800#32, 0x00000000#32] := by
  decide +kernel

/-- vsort.i32 v6, v4, 0 (06_isa_vector_matrix.md). -/
theorem test_decodes_vsort :
    decodeTableWord 96 0x2C00500106A2 = some (.vsort ⟨2#2, false, false, 0#6, 4#6, 6#6, 0x0#8, 0#3, 0#3, false, 0#3, 11#4, 0#3, false, 0#6, 0x0#32, 0x0#64⟩) ∧
    encode (.vsort ⟨2#2, false, false, 0#6, 4#6, 6#6, 0x0#8, 0#3, 0#3, false, 0#3, 11#4, 0#3, false, 0#6, 0x0#32, 0x0#64⟩) = [0x500106A2#32, 0x00002C00#32, 0x00000000#32] := by
  decide +kernel

/-- vcomp.n32 v3, v1, p3 (18_program_reserving_loop.md). -/
theorem test_decodes_vcomp :
    decodeTableWord 96 0x3003300043A2 = some (.vcomp ⟨2#2, false, false, 0#6, 1#6, 3#6, 0x0#8, 0#3, 0#3, false, 0#3, 12#4, 0#3, false, 3#6, 0x0#32, 0x0#64⟩) ∧
    encode (.vcomp ⟨2#2, false, false, 0#6, 1#6, 3#6, 0x0#8, 0#3, 0#3, false, 0#3, 12#4, 0#3, false, 3#6, 0x0#32, 0x0#64⟩) = [0x300043A2#32, 0x00003003#32, 0x00000000#32] := by
  decide +kernel

/-- vld.fp32 v3, [g8, 128] (06_isa_vector_matrix.md). -/
theorem test_decodes_vld :
    decodeTableWord 96 0x8000000400000203A6 = some (.vld ⟨2#2, false, false, 0#6, 8#6, 3#6, 0x0#8, 0#3, 0#3, false, 0#3, 1#4, 0#3, false, 0#6, 0x80#32, 0x0#64⟩) ∧
    encode (.vld ⟨2#2, false, false, 0#6, 8#6, 3#6, 0x0#8, 0#3, 0#3, false, 0#3, 1#4, 0#3, false, 0#6, 0x80#32, 0x0#64⟩) = [0x000203A6#32, 0x00000400#32, 0x00000080#32] := by
  decide +kernel

/-- vst.fp32 v3, [g8, 0] (06_isa_vector_matrix.md). -/
theorem test_decodes_vst :
    decodeTableWord 96 0x400100203A6 = some (.vst ⟨2#2, false, false, 0#6, 8#6, 3#6, 0x0#8, 0#3, 0#3, false, 0#3, 1#4, 0#3, false, 0#6, 0x0#32, 0x0#64⟩) ∧
    encode (.vst ⟨2#2, false, false, 0#6, 8#6, 3#6, 0x0#8, 0#3, 0#3, false, 0#3, 1#4, 0#3, false, 0#6, 0x0#32, 0x0#64⟩) = [0x100203A6#32, 0x00000400#32, 0x00000000#32] := by
  decide +kernel

/-- mma.e4m3 acc1, g4, g7, 256 (06_isa_vector_matrix.md). -/
theorem test_decodes_mma :
    decodeTableWord 96 0x10000001000007101AA = some (.mma ⟨2#2, false, false, 7#6, 4#6, 1#6, 0x0#8, 0#3, 0#3, false, 0#3, 4#4, 0#3, false, 0#6, 0x100#32, 0x0#64⟩) ∧
    encode (.mma ⟨2#2, false, false, 7#6, 4#6, 1#6, 0x0#8, 0#3, 0#3, false, 0#3, 4#4, 0#3, false, 0#6, 0x100#32, 0x0#64⟩) = [0x007101AA#32, 0x00001000#32, 0x00000100#32] := by
  decide +kernel

/-- mzero acc3, 0 (06_isa_vector_matrix.md). -/
theorem test_decodes_mzero :
    decodeTableWord 96 0x300003AA = some (.mzero ⟨2#2, false, false, 0#6, 0#6, 3#6, 0x0#8, 0#3, 0#3, false, 0#3, 0#4, 0#3, false, 0#6, 0x0#32, 0x0#64⟩) ∧
    encode (.mzero ⟨2#2, false, false, 0#6, 0#6, 3#6, 0x0#8, 0#3, 0#3, false, 0#3, 0#4, 0#3, false, 0#6, 0x0#32, 0x0#64⟩) = [0x300003AA#32, 0x00000000#32, 0x00000000#32] := by
  decide +kernel

/-- mwait acc1 (06_isa_vector_matrix.md). -/
theorem test_decodes_mwait :
    decodeTableWord 32 0x40AC = some (.mwait ⟨false, false, 0#6, 1#6, 0#6⟩) ∧
    encode (.mwait ⟨false, false, 0#6, 1#6, 0#6⟩) = [0x000040AC#32] := by
  decide +kernel

/-- mqstat g5, acc1 (06_isa_vector_matrix.md). -/
theorem test_decodes_mqstat :
    decodeTableWord 32 0x100045AC = some (.mqstat ⟨false, false, 0#6, 1#6, 5#6⟩) ∧
    encode (.mqstat ⟨false, false, 0#6, 1#6, 5#6⟩) = [0x100045AC#32] := by
  decide +kernel

/-- send g5, g4, 0 (07_isa_actor_join_remote_loop.md). -/
theorem test_decodes_send :
    decodeTableWord 96 0x105C2 = some (.send ⟨2#2, false, false, 0#6, 4#6, 5#6, 0x0#8, 0#3, 0#3, false, 0#3, 0#4, 0#3, false, 0#6, 0x0#32, 0x0#64⟩) ∧
    encode (.send ⟨2#2, false, false, 0#6, 4#6, 5#6, 0x0#8, 0#3, 0#3, false, 0#3, 0#4, 0#3, false, 0#6, 0x0#32, 0x0#64⟩) = [0x000105C2#32, 0x00000000#32, 0x00000000#32] := by
  decide +kernel

/-- sendv v6, g4, 1 (07_isa_actor_join_remote_loop.md). -/
theorem test_decodes_sendv :
    decodeTableWord 96 0x100000000100106C2 = some (.sendv ⟨2#2, false, false, 0#6, 4#6, 6#6, 0x0#8, 0#3, 0#3, false, 0#3, 0#4, 0#3, false, 0#6, 0x1#32, 0x0#64⟩) ∧
    encode (.sendv ⟨2#2, false, false, 0#6, 4#6, 6#6, 0x0#8, 0#3, 0#3, false, 0#3, 0#4, 0#3, false, 0#6, 0x1#32, 0x0#64⟩) = [0x100106C2#32, 0x00000000#32, 0x00000001#32] := by
  decide +kernel

/-- jtload g5, g4, 2 (07_isa_actor_join_remote_loop.md). -/
theorem test_decodes_jtload :
    decodeTableWord 96 0x200000000000105C6 = some (.jtload ⟨2#2, false, false, 0#6, 4#6, 5#6, 0x0#8, 0#3, 0#3, false, 0#3, 0#4, 0#3, false, 0#6, 0x2#32, 0x0#64⟩) ∧
    encode (.jtload ⟨2#2, false, false, 0#6, 4#6, 5#6, 0x0#8, 0#3, 0#3, false, 0#3, 0#4, 0#3, false, 0#6, 0x2#32, 0x0#64⟩) = [0x000105C6#32, 0x00000000#32, 0x00000002#32] := by
  decide +kernel

/-- jtchk.fp32 g6, g4, g7, 2, 4 (07_isa_actor_join_remote_loop.md). -/
theorem test_decodes_jtchk :
    decodeTableWord 96 0x3200000400107106C6 = some (.jtchk ⟨2#2, false, false, 7#6, 4#6, 6#6, 0x0#8, 0#3, 0#3, false, 0#3, 1#4, 0#3, false, 0#6, 0x32#32, 0x0#64⟩) ∧
    encode (.jtchk ⟨2#2, false, false, 7#6, 4#6, 6#6, 0x0#8, 0#3, 0#3, false, 0#3, 1#4, 0#3, false, 0#6, 0x32#32, 0x0#64⟩) = [0x107106C6#32, 0x00000400#32, 0x00000032#32] := by
  decide +kernel

/-- rcall g20, g7, g10, 3, 2, 1 (07_isa_actor_join_remote_loop.md). -/
theorem test_decodes_rcall :
    decodeTableWord 96 0x120030000000000A1D4CA = some (.rcall ⟨2#2, false, false, 10#6, 7#6, 20#6, 0x0#8, 0#3, 0#3, false, 0#3, 0#4, 0#3, false, 0#6, 0x12003#32, 0x0#64⟩) ∧
    encode (.rcall ⟨2#2, false, false, 10#6, 7#6, 20#6, 0x0#8, 0#3, 0#3, false, 0#3, 0#4, 0#3, false, 0#6, 0x12003#32, 0x0#64⟩) = [0x00A1D4CA#32, 0x00000000#32, 0x00012003#32] := by
  decide +kernel

/-- rreply g2, 1 (07_isa_actor_join_remote_loop.md). -/
theorem test_decodes_rreply :
    decodeTableWord 96 0x100000000200080CA = some (.rreply ⟨2#2, false, false, 0#6, 2#6, 0#6, 0x0#8, 0#3, 0#3, false, 0#3, 0#4, 0#3, false, 0#6, 0x1#32, 0x0#64⟩) ∧
    encode (.rreply ⟨2#2, false, false, 0#6, 2#6, 0#6, 0x0#8, 0#3, 0#3, false, 0#3, 0#4, 0#3, false, 0#6, 0x1#32, 0x0#64⟩) = [0x200080CA#32, 0x00000000#32, 0x00000001#32] := by
  decide +kernel

/-- mbpost g4, g5, 9 (11_near_memory_and_remote_call.md). -/
theorem test_decodes_mbpost :
    decodeTableWord 96 0x900000000305100CE = some (.mbpost ⟨2#2, false, false, 5#6, 4#6, 0#6, 0x0#8, 0#3, 0#3, false, 0#3, 0#4, 0#3, false, 0#6, 0x9#32, 0x0#64⟩) ∧
    encode (.mbpost ⟨2#2, false, false, 5#6, 4#6, 0#6, 0x0#8, 0#3, 0#3, false, 0#3, 0#4, 0#3, false, 0#6, 0x9#32, 0x0#64⟩) = [0x305100CE#32, 0x00000000#32, 0x00000009#32] := by
  decide +kernel

/-- nmcfg g4 (17_program_embedding_lookup.md). -/
theorem test_decodes_nmcfg :
    decodeTableWord 96 0x100CE = some (.nmcfg ⟨2#2, false, false, 0#6, 4#6, 0#6, 0x0#8, 0#3, 0#3, false, 0#3, 0#4, 0#3, false, 0#6, 0x0#32, 0x0#64⟩) ∧
    encode (.nmcfg ⟨2#2, false, false, 0#6, 4#6, 0#6, 0x0#8, 0#3, 0#3, false, 0#3, 0#4, 0#3, false, 0#6, 0x0#32, 0x0#64⟩) = [0x000100CE#32, 0x00000000#32, 0x00000000#32] := by
  decide +kernel

/-- rlbegin g5, g4 (07_isa_actor_join_remote_loop.md). -/
theorem test_decodes_rlbegin :
    decodeTableWord 96 0x105D2 = some (.rlbegin ⟨2#2, false, false, 0#6, 4#6, 5#6, 0x0#8, 0#3, 0#3, false, 0#3, 0#4, 0#3, false, 0#6, 0x0#32, 0x0#64⟩) ∧
    encode (.rlbegin ⟨2#2, false, false, 0#6, 4#6, 5#6, 0x0#8, 0#3, 0#3, false, 0#3, 0#4, 0#3, false, 0#6, 0x0#32, 0x0#64⟩) = [0x000105D2#32, 0x00000000#32, 0x00000000#32] := by
  decide +kernel

/-- rsv g1, g6 (07_isa_actor_join_remote_loop.md). -/
theorem test_decodes_rsv :
    decodeTableWord 96 0x106040D2 = some (.rsv ⟨2#2, false, false, 6#6, 1#6, 0#6, 0x0#8, 0#3, 0#3, false, 0#3, 0#4, 0#3, false, 0#6, 0x0#32, 0x0#64⟩) ∧
    encode (.rsv ⟨2#2, false, false, 6#6, 1#6, 0#6, 0x0#8, 0#3, 0#3, false, 0#3, 0#4, 0#3, false, 0#6, 0x0#32, 0x0#64⟩) = [0x106040D2#32, 0x00000000#32, 0x00000000#32] := by
  decide +kernel

/-- vrcp.fp32 v5, v6, from the fields of 02 R52, R54: OP 0x21, FN 0, LEN 10, FMT 1. -/
theorem test_decodes_vrcp :
    decodeTableWord 96 0x000000000000040000018586 = some (.vrcp (onExt 5 6 0 1 0)) ∧
    encode (.vrcp (onExt 5 6 0 1 0)) = [0x00018586#32, 0x00000400#32, 0x00000000#32] := by
  decide +kernel

/-! ## Ill-formed instructions: each check of R72 refuses one -/

theorem test_check1_refuses_a_reserved_op : decodeHead 0x00000000#32 = .error 1 ∧ decodeHead 0x000000FC#32 = .error 1 :=
  ⟨rfl, rfl⟩

theorem test_check2_refuses_an_unassigned_fn : decodeHead 0xF0000038#32 = .error 2 := rfl

theorem test_check3_refuses_a_length : decodeHead 0x7000003B#32 = .error 3 := rfl

/-- The first check that a form of cluster cores fails. -/
def fails (i : Instr) : Option Nat := i.failure false

theorem test_check4_refuses_an_unassigned_sub : fails (.brp { onExt 0 0 0 0 0 with sub := 3#8, c := 1#6 }) = some 4 := by
  decide +kernel

theorem test_check5_refuses_a_code : fails (.vadd { vecF 15 with rm := 0#3 }) = some 5 ∧ fails (.vadd { vecF 1 with rm := 6#3 }) = some 5 := by
  decide +kernel

theorem test_check6_refuses_a_used_zero_field : fails (.nop (on 1 0 0)) = some 6 ∧ fails (.br (onExt 0 0 0 0 2)) = some 6 := by
  decide +kernel

theorem test_check7_refuses_a_register : fails (.pand (on 8 1 2)) = some 7 ∧ fails (.mfs (on 4 63 0)) = some 7 := by
  decide +kernel

theorem test_check8_refuses_a_bank : fails (.add (on 3 4 6)) = some 8 := by
  decide +kernel

/-! ## Single steps: results by hand, or from the spec's worked examples -/

/-- A field of the state after an instruction. -/
noncomputable def after (i : Instr) (s : State) : State := nextOr (exec i s) s

noncomputable def g (i : Instr) (n : BitVec 6) (s : State) : DWord := regData (after i s) n

/-- Two operands in g2 and g3. -/
def two (a b : DWord) : State := setData 2#6 a (setData 3#6 b ready)

/-- 04 R115: modulo 2^64; the shift count is taken modulo 64. -/
theorem test_add_wraps : g (.add (on 4 2 3)) 4 (two 0xFFFFFFFFFFFFFFFF#64 2#64) = 1#64 := by decide +kernel
theorem test_mulh_is_signed : g (.mulh (on 4 2 3)) 4 (two 0xFFFFFFFFFFFFFFFF#64 2#64) = 0xFFFFFFFFFFFFFFFF#64 := by decide +kernel
theorem test_shra_takes_the_count_modulo_64 : g (.shra (on 4 2 3)) 4 (two 0x8000000000000000#64 65#64) = 0xC000000000000000#64 := by
  decide +kernel

/-- 04 R115, R116: division rounds toward zero; b = 0 traps with cause 0x16. -/
theorem test_div_rounds_toward_zero : g (.div (on 4 2 3)) 4 (two (-7#64) 2#64) = -3#64 := by decide +kernel
theorem test_rem_of_minimum_by_minus_one : g (.rem (on 4 2 3)) 4 (two 0x8000000000000000#64 (-1#64)) = 0#64 := by decide +kernel
theorem test_div_by_zero_traps :
    (after (.div (on 4 2 3)) { two 5#64 0#64 with ctxs := [trapContext] }).cur.tcause = 0x16#64 := by decide +kernel

/-- 04 R117: the register of pC bit 0, tag included. -/
theorem test_sel_copies_the_tag :
    regCap (after (.sel { onExt 4 1 2 0 0 with c := 0#6 }) ready) 4 = storeCap 0x100 := by decide +kernel

/-- 04 R118: signed and natural comparisons differ. -/
theorem test_cmp_signed_and_natural :
    predOf (after (.cmpLt (on 2 2 3)) (two (-1#64) 1#64)) 2 = 0xFFFFFFFF#32 ∧
      predOf (after (.cmpLtn (on 2 2 3)) (two (-1#64) 1#64)) 2 = 0#32 := by decide +kernel

/-- 01 R42, 04 R126: the worked bounds, and the pattern that encodes them. -/
def wide (cursor : DWord) : State :=
  setReg 2#6 ⟨makeCap 0x0003#16 0x4000000000 (2 ^ 34) cursor.toNat, true⟩ (setData 3#6 0x30000#64 ready)

theorem test_cbound_encodes_the_worked_example :
    regCap (after (.cbound (on 4 2 3)) (wide 0x4000012000#64)) 4 = ⟨0x00030049000840000000004000012000#128, true⟩ := by
  decide +kernel

theorem test_cbound_rounds_outward :
    capBounds (regCap (after (.cbound (on 4 2 3)) (wide 0x4000012001#64)) 4).val = (0x4000012000, 0x4000042002) := by decide +kernel

/-- 04 R125: a cursor that leaves the window loses the tag. -/
theorem test_cadd_outside_the_window_untags :
    (regCap (after (.cadd (on 4 1 3)) (setData 3#6 0x40000#64 ready)) 4).tag = false ∧
      (regCap (after (.cadd (on 4 1 3)) (setData 3#6 0x20000#64 ready)) 4).tag = true := by decide +kernel

/-- 04 R130, R132: CALL links the address after its last word; LOOP counts down and branches. -/
theorem test_call_links_past_its_words :
    g (.call (onExt 4 0 0 0 0x100)) 4 ready = ready.cur.pc + 12#64 ∧
      (after (.call (onExt 4 0 0 0 0x100)) ready).cur.pc = ready.cur.pc + 0x100#64 := by decide +kernel

theorem test_loop_leaves_a_zero_counter :
    g (.loop (onExt 0 2 0 0 0x100)) 2 (two 0#64 0#64) = 0#64 ∧
      (after (.loop (onExt 0 2 0 0 0x100)) (two 2#64 0#64)).cur.pc = ready.cur.pc + 0x100#64 := by decide +kernel

/-- 05 R141: loads extend by their width; a store writes its low bytes. -/
theorem test_loads_extend :
    g (.ldI16 (on 4 1 0)) 4 filled = 0xFFFFFFFFFFFF9988#64 ∧ g (.ldN16 (on 4 1 0)) 4 filled = 0x9988#64 := by decide +kernel

theorem test_store_writes_low_bytes :
    (after (.st16 (on 2 1 0)) filled).mem.bytes (clusterKey 0 0 0x100) 4 = [0x10#8, 0x32#8, 3#8, 4#8] := by decide +kernel

/-- 01 R43: a store of data into a granule clears its tag; STC sets it. -/
theorem test_stores_move_tags :
    setHas (after (.stc (on 1 1 0)) ready).mem.tags (clusterKey 0 0 0x100 / 16) = true ∧
      setHas (after (.st8 (on 2 1 0)) (after (.stc (on 1 1 0)) ready)).mem.tags (clusterKey 0 0 0x100 / 16) = false := by decide +kernel

/-- 05 R153, R154: the old value of I32 sign-extends and is on its way to a pending register; the sum replaces it. -/
theorem test_amo_returns_the_old_value :
    (after (.amo { onExt 4 1 3 11 0 with sub := 0#8 }) filled).cur.inFlight.map (fun r => (r.reg, r.data)) = [(4, 0x04039988#64)] ∧
      (gAt (after (.amo { onExt 4 1 3 11 0 with sub := 0#8 }) filled).cur 4#6).st = .pending ∧
      (after (.amo { onExt 4 1 3 11 0 with sub := 0#8 }) filled).mem.bytes (clusterKey 0 0 0x100) 4 = [0x8F#8, 0x99#8, 3#8, 4#8] := by
  decide +kernel

/-- 05 R160: the last of two arrivals completes the phase. -/
theorem test_barrier_completes :
    (barrierOf (bytesNat ((after (.barr (on 0 1 0)) (barrierState 1)).mem.bytes (clusterKey 0 0 0x100) 16))) = ⟨1, 2, 0, 0, 0⟩ := by
  decide +kernel

/-- Lanes of v1. -/
def lanes (xs : List Nat) : State :=
  let x : VWord := BitVec.ofNat 1024 (xs.foldr (fun a n => n * 2 ^ 32 + a) 0)
  { vectors with cur := { vectors.cur with v := vectors.cur.v.setIfInBounds 1 ⟨x, .full⟩ } }

noncomputable def v4 (i : Instr) (s : State) : VWord := ((after i s).cur.v.getD 4 VReg.zero).val

/-- VCVT from FP32 into v4: the codes of the destination and the saturate bit. -/
def cvt (dest : BitVec 4) (sat : BitVec 4) (rm : BitVec 3) : Ext := { onExt 4 1 0 dest 0 with sub := sat ++ 1#4, rm := rm }

/-- 03 Worked conversions: 1.375 and 300 into E4M3; 2.5 into E2M1 by RNE and by RNA; 18 saturates to 6, or traps. -/
theorem test_vcvt_into_e4m3 :
    (v4 (.vcvt (cvt 4 0 0)) (lanes [0x3FB00000, 0x43960000])).extractLsb' 0 16 = 0x793B#16 ∧
      (after (.vcvt (cvt 4 0 0)) (lanes [0x3FB00000, 0x43960000])).cur.fstat = 0x10#64 := by decide +kernel

theorem test_vcvt_rounds_ties :
    (v4 (.vcvt (cvt 6 0 0)) (lanes [0x40200000])).extractLsb' 0 4 = 4#4 ∧
      (v4 (.vcvt (cvt 6 0 4)) (lanes [0x40200000])).extractLsb' 0 4 = 5#4 := by decide +kernel

theorem test_vcvt_saturates_or_traps :
    (v4 (.vcvt (cvt 6 1 0)) (lanes [0x41900000])).extractLsb' 0 4 = 7#4 ∧
      (after (.vcvt (cvt 6 1 0)) (lanes [0x41900000])).cur.fstat = 0x14#64 ∧
      (after (.vcvt (cvt 6 0 0)) { lanes [0x41900000] with ctxs := [trapContext] }).cur.tcause = 0x0C#64 := by decide +kernel

/-- 06 R179: I8 sums wrap: 100 + 100 gives −56. -/
theorem test_viadd_wraps :
    (v4 (.viadd (onExt 4 1 1 7 0)) (lanes [100])).extractLsb' 0 8 = 200#8 := by decide +kernel

/-- 05 R171: the sparse record of 1.0 in lane 0 and 2.5 in lane 3. -/
theorem test_stbm_writes_the_worked_record :
    (after (.stbm (onExt 4 1 1 1 0)) (lanes [0x3F800000, 0, 0, 0x40200000])).mem.bytes (clusterKey 0 0 0x100) 16 =
        [9#8, 0#8, 0#8, 0#8, 0#8, 0#8, 0#8, 0#8, 0#8, 0#8, 0x80#8, 0x3F#8, 0#8, 0#8, 0x20#8, 0x40#8] ∧
      g (.stbm (onExt 4 1 1 1 0)) 4 (lanes [0x3F800000, 0, 0, 0x40200000]) = 16#64 := by decide +kernel

/-- 06 R196: a matrix command waits in the core's queue. -/
theorem test_mzero_is_queued :
    ((findCore (after (.mzero (onExt 0 0 0 0 0)) ready) core0).map (·.queue.length)) = some 1 := by decide +kernel

/-- 07 R212: a launched child is a node of the pool. -/
theorem test_launch_adds_a_node : (after (.launch (onExt 0 1 2 0 0)) (setData 2#6 1#64 launching)).nodes.length = 1 := by decide +kernel

/-- 07 R226: a call leaves with its serial, and its reply register waits. -/
theorem test_rcall_leaves :
    (after (.rcall callF) { ready with ctxs := [tableCtx], mem := tableMemory ready.mem }).net.calls.length = 1 := by decide +kernel

/-- 04 R135: ERET goes back to the trapped instruction. -/
theorem test_eret_returns : (after (.eret (on 0 0 0)) (trapped ready)).cur.pc = 0x40#64 := by decide +kernel

/-- 14 R366: KEEPALIVE is answered OK with its own SEQ; another SEQ is refused. -/
theorem test_keepalive_is_answered :
    (after (.keepalive (header 3 0)) host).dev.sent = [wordsMessage 0x03 0 0 1 []] ∧
      (after (.keepalive { header 3 0 with seq := 7#64 }) host).dev.sent = [wordsMessage 0x03 0 2 7 []] := by decide +kernel

/-- 14 R372: a trip latches and sends the device to D1. -/
theorem test_trip_latches :
    (after (.trip (.die 0) 110) host).dev.tripLatched = true ∧ (after (.trip (.die 0) 110) host).dev.powerTarget = some .d1 := by
  decide +kernel

/-- The first step after reset with NOP placed there runs it. -/
theorem test_step_runs_the_placed_word :
    (nextOr (step (State.reset.withFetchWord 32 0x70000038)) State.reset).cur.pc = probe.cur.pc + 4#64 := by decide +kernel

end Sys2Proof.Tests
end

section
/-!
How an instruction runs: the common frame of every row (01 R29, R47, 02 R72), its draws (03 R96), and the registers at its start.
-/

namespace Sys2Proof.Machine

theorem act_map {α β : Type} (g : α → β) (x : Act α) (s : State) :
    (g <$> x) s = match x s with | .ok r => .ok (g r.1, r.2) | .error e => .error e := by
  rewrite [map_eq_pure_bind, act_bind]
  rfl

/-! ## Draws (03 R96) -/

/-- Draws whose generator did not come back poisoned are taken, and change nothing else. -/
theorem takeDraws_sound {rm : BitVec 3} {s : State} (n : Nat) (h : rm = 5#3 → Sound [badSto] s) :
    takeDraws rm n s = .ok ((drawsOf rm n s).1, afterDraws rm n s) := by
  unfold takeDraws afterDraws drawsOf
  by_cases hrm : rm = 5#3
  · by_cases hn : n = 0 <;> simp [hrm, hn, act_bind, act_map, readGood_sound (h hrm), -act_readGood]
  · simp [hrm]

theorem drawsOf_no_rounding {rm : BitVec 3} (h : rm ≠ 5#3) (n : Nat) (s : State) : (drawsOf rm n s).2 = s.cur.sto := by
  simp [drawsOf, h]

/-! ## The common frame of every instruction -/

/-- Every instruction with fields runs in the common frame, with a body of its own. -/
theorem exec_eq_instrWith {i : Instr} {op : BitVec 6} {fn : BitVec 4} {f : Ext} (h : i.fields = some (op, fn, f)) (s : State) :
    ∃ (jumps : Bool) (body : Act Unit), exec i s = instrWith jumps op fn f body s := by
  cases i <;> cases h <;> exact ⟨_, _, rfl⟩

/-- An admitted form that its predicate turns off takes its draws and goes on at the next address (01 R29). -/
theorem instrWith_off {jumps : Bool} {op : BitVec 6} {fn : BitVec 4} {f : Ext} {body : Act Unit} {s : State}
    (ha : FormAdmitted op fn f s) (hoff : ¬ FormEnabled op fn f s) :
    ∃ n, instrWith jumps op fn f body s = .next (past f (afterDraws f.rm n (begun s))) := by
  have hgate (w : Word) := handlerGate_admitted (w := w) ha
  obtain ⟨-, hunit, hreg, hpred, hsto⟩ := ha
  have hp : readGood (predItems f.pred.toNat) (begun s) = .ok (⟨⟩, begun s) := readGood_sound ((sound_begun _ s).2 hpred)
  have hd (n : Nat) := takeDraws_sound (s := begun s) n (fun h => (sound_begun _ s).2 (hsto h))
  have hc : (elementwise op.toNat fn.toNat || (governing s.cur f).getLsbD 0) = false := by
    unfold FormEnabled at hoff; simpa using hoff
  apply Exists.intro
  unfold instrWith run
  simp only [act_bind, hgate, act_get, hunit, act_trapIf, hreg, act_modCur, hc, Bool.false_eq_true, if_false]
  erw [hp]
  dsimp only
  rewrite [hd]
  rfl

/-! ## How an instruction that runs ends -/

theorem runs_iff {i : Instr} {op : BitVec 6} {fn : BitVec 4} {f : Ext} (hf : i.fields = some (op, fn, f)) (s : State) :
    Runs i s ↔ FormAdmitted op fn f s ∧ FormEnabled op fn f s := by
  unfold Runs; rw [hf]

/-- Where the body completes, the instruction does, and the pc moves on. -/
theorem exec_completes {i : Instr} {op : BitVec 6} {fn : BitVec 4} {f : Ext} {body : Act Unit} {s t : State}
    (hf : i.fields = some (op, fn, f)) (he : exec i s = instr op fn f body s) (hr : Runs i s)
    (hb : body (begun s) = .ok (⟨⟩, t)) : exec i s = .next (past f t) := by
  obtain ⟨ha, hen⟩ := (runs_iff hf s).1 hr
  exact he.trans (instr_runs ha hen hb)

/-- Where the body traps, nothing else of the instruction stays. -/
theorem exec_traps {i : Instr} {op : BitVec 6} {fn : BitVec 4} {f : Ext} {body : Act Unit} {s : State} {cause : Nat}
    {info : DWord} (hf : i.fields = some (op, fn, f)) (he : exec i s = instr op fn f body s) (hr : Runs i s)
    (hb : body (begun s) = .error (.trap cause info)) : exec i s = .next (afterTrap cause info s) := by
  obtain ⟨ha, hen⟩ := (runs_iff hf s).1 hr
  exact he.trans (instrWith_ends ha hen hb)

/-! ## Registers at the start of an instruction -/

@[simp] theorem readable_begun (s : State) (n : BitVec 6) (tb : Bool) : Readable (begun s) n tb ↔ Readable s n tb := by
  simp [Readable, regOf, gRead, gAt]

@[simp] theorem writable_begun (s : State) (n : BitVec 6) : Writable (begun s) n ↔ Writable s n := by
  simp [Writable, gAt]

@[simp] theorem regData_begun (s : State) (n : BitVec 6) : regData (begun s) n = regData s n := by
  simp [regData, regOf, gRead, gAt]

end Sys2Proof.Machine
end

section
/-! 01 R29: what a predicate turns off. -/

namespace Sys2Proof.Machine

/-- Settles O54: the common frame skips the body and takes the draws. -/
theorem predicatedOffInstructionsOnlyAdvance : Obligations.PredicatedOffInstructionsOnlyAdvance := by
  unfold Obligations.PredicatedOffInstructionsOnlyAdvance
  intro i op fn f s hf ha hoff
  obtain ⟨jumps, body, he⟩ := exec_eq_instrWith hf s
  obtain ⟨n, hn⟩ := instrWith_off (jumps := jumps) (body := body) ha hoff
  refine ⟨(drawsOf f.rm n (begun s)).2, ?_, fun h => by rw [drawsOf_no_rounding h, begun_cur_sto]⟩
  rw [he, hn]
  simp [past, afterDraws, nextPc]

end Sys2Proof.Machine
end

section
/-! The whole step (01 R32, 02 R51, R72). -/

namespace Sys2Proof.Machine

/-! ## Fetch and decode at the pc (01 R32, 02 R51, R72) -/

/-- Words that are fetched from an address on without a trap, which changes nothing. -/
def WordsAt (s : State) (addr : DWord) (ws : List Word) : Prop :=
  ∀ j, j < ws.length → fetchWord (addr + w64 (4 * j)).toNat s = .ok (ws.getD j 0#32, s)

theorem wordsAtPc_iff (s : State) (ws : List Word) : WordsAtPc s ws ↔ WordsAt s s.cur.pc ws := Iff.rfl

theorem wordsAt_cons {s : State} {addr : DWord} {w : Word} {rest : List Word} (h : WordsAt s addr (w :: rest)) (s0 : State) :
    fetchOr s0 addr s = .ok (w, s) ∧ WordsAt s (addr + 4#64) rest := by
  constructor
  · have h0 : fetchWord addr.toNat s = .ok (w, s) := by simpa [w64] using h 0 (by simp)
    simp [fetchOr, h0]
  · intro j hj
    have hj' := h (j + 1) (by simpa using hj)
    rwa [show addr + w64 (4 * (j + 1)) = addr + 4#64 + w64 (4 * j) by
      unfold w64; rw [Nat.mul_add, Nat.add_comm, BitVec.ofNat_add, BitVec.add_assoc]] at hj'

theorem fetchMany_wordsAt {s : State} (s0 : State) {addr : DWord} {ws : List Word} (h : WordsAt s addr ws) :
    fetchMany s0 addr ws.length s = .ok (ws, s) := by
  induction ws generalizing addr with
  | nil => rfl
  | cons w rest ih =>
    obtain ⟨hw, hrest⟩ := wordsAt_cons h s0
    simp [fetchMany, hw, ih hrest]

theorem lenWords_pos (len : BitVec 2) : 0 < lenWords len := by
  unfold lenWords; split <;> omega

/-- Words that fail at their head fail as a whole, by the same check. -/
theorem decodeWords_head_error {lupin : Bool} {w0 w1 w2 w3 w4 : Word} {n : Nat} (h : decodeHead w0 = .error n) :
    decodeWords lupin w0 w1 w2 w3 w4 = .error n := by
  simp [decodeWords, h]

/-- What a step executes for words with a decoder's answer: their instruction, or the illegal-encoding trap. -/
noncomputable def decodedInstr (w0 : Word) (r : Except Nat Instr) : Instr :=
  match r with
  | .ok i => i
  | .error n => .illegalEncoding n w0

theorem fetchInstr_head_error {s : State} {w : Word} {n : Nat} (hw : WordsAtPc s [w]) (hd : decodeHead w = .error n) :
    fetchInstr s = .ok (.illegalEncoding n w, s) := by
  obtain ⟨h0, -⟩ := wordsAt_cons ((wordsAtPc_iff s _).1 hw) s
  simp [fetchInstr, h0, hd]

theorem fetchInstr_decodes {s : State} {ws : List Word} {r : Except Nat Instr} (hi : InstructionAtPc s ws)
    (hd : Decodes s.cur.pos.lupin ws r) : fetchInstr s = .ok (decodedInstr (ws.getD 0 0#32) r, s) := by
  obtain ⟨hw, hlen⟩ := hi
  cases ws with
  | nil => exact absurd hlen (Nat.ne_of_lt (lenWords_pos _))
  | cons w rest =>
    obtain ⟨h0, hrest⟩ := wordsAt_cons ((wordsAtPc_iff s _).1 hw) s
    have hmany : fetchMany s (s.cur.pc + 4#64) (lenWords (w.extractLsb' 0 2) - 1) s = .ok (rest, s) := by
      have hn : lenWords (w.extractLsb' 0 2) - 1 = rest.length := Nat.sub_eq_of_eq_add hlen.symm
      exact hn ▸ fetchMany_wordsAt s hrest
    unfold Decodes at hd
    simp only [List.getD_cons_zero, List.getD_cons_succ] at hd ⊢
    cases hh : decodeHead w with
    | error n =>
      rw [decodeWords_head_error hh] at hd
      simp [fetchInstr, h0, hh, ← hd, decodedInstr]
    | ok form =>
      simp only [fetchInstr, h0, hh, hmany, hd]
      cases r <;> rfl

/-- A thread that may issue before and after its results land executes the instruction that it fetches then. -/
theorem issue_fetched {s : State} {i : Instr} (h : IssuesLanded s) (hf : fetchInstr (landResults s) = .ok (i, landResults s)) :
    issue s = exec i (hearReplies i (landResults s)) := by
  obtain ⟨h1, h2⟩ := h
  simp [issue, h1, h2, hf]

theorem step_no_turn {s : State} (ht : s.turns = []) : step s = ticked (issue { s with late := [] }) := by
  cases s; cases ht; rfl

theorem step_current {s : State} (ht : s.turns = []) (hl : s.late = []) : step s = ticked (issue s) := by
  rw [step_no_turn ht]
  cases s; cases hl; rfl

/-! ## What the issuing thread finds at the start of a step (01 R23, 05 R142, R154) -/

/-- Which of n results arrive: the free choices from a count on. -/
def arrivals (free n : Nat) : List Bool := (List.range' free n).map (fun k => decide (Config.freeChoice k % 2 = 0))

@[simp] theorem arrivals_length (free n : Nat) : (arrivals free n).length = n := by simp [arrivals]

/-- A thread with the results that arrive in their registers, and the others still in flight after those it has. -/
def landed (rs : List (InFlight × Bool)) (t : Thread) : Thread :=
  { (rs.filter (·.2)).foldl (fun t r => fillResult r.1.reg r.1.data t) t with
    inFlight := t.inFlight ++ (rs.filter (fun r => !r.2)).map (·.1) }

/-- A change of a thread that leaves its registers alone may come before the results or after them. -/
theorem foldl_fillResult_comm {g : Thread → Thread} (hg : ∀ reg x t, fillResult reg x (g t) = g (fillResult reg x t))
    (rs : List (InFlight × Bool)) (t : Thread) :
    rs.foldl (fun t r => fillResult r.1.reg r.1.data t) (g t) = g (rs.foldl (fun t r => fillResult r.1.reg r.1.data t) t) := by
  induction rs generalizing t with
  | nil => rfl
  | cons r rest ih => rw [List.foldl_cons, hg, ih, List.foldl_cons]

theorem landed_cons (r : InFlight) (arrives : Bool) (rs : List (InFlight × Bool)) (t : Thread) :
    landed ((r, arrives) :: rs) t =
      landed rs (if arrives then fillResult r.reg r.data t else { t with inFlight := t.inFlight ++ [r] }) := by
  cases arrives
  · have hcomm := foldl_fillResult_comm (g := fun t' => { t' with inFlight := t.inFlight ++ [r] })
      (fun reg x t => by unfold fillResult; split <;> rfl) (rs.filter (·.2)) t
    simp [landed, hcomm]
  · have hf : (fillResult r.reg r.data t).inFlight = t.inFlight := by unfold fillResult; split <;> rfl
    simp [landed, hf]

/-- Results of this device land by the free choices alone. -/
theorem landEach_local {rs : List InFlight} (s : State) (h : ∀ r ∈ rs, r.away = none) :
    landEach rs s = { s with free := s.free + rs.length, cur := landed (rs.zip (arrivals s.free rs.length)) s.cur } := by
  induction rs generalizing s with
  | nil => simp [landEach, landed]
  | cons r rest ih =>
    obtain ⟨hr, hrest⟩ := List.forall_mem_cons.1 h
    have hz : (r :: rest).zip (arrivals s.free (r :: rest).length) =
        (r, decide (Config.freeChoice s.free % 2 = 0)) :: rest.zip (arrivals (s.free + 1) rest.length) := rfl
    rw [hz, landed_cons, landEach, ih _ hrest]
    by_cases hc : Config.freeChoice s.free % 2 = 0 <;>
      simp [hc, landResult, hr, Nat.add_comm, Nat.add_left_comm]

/-- The state in which the landing begins: overdue stores have failed, and nothing is in flight. -/
theorem landResults_eq (s : State) : landResults s =
    landEach s.cur.inFlight { s with cur := { s.cur with remoteStores := storesNow s, inFlight := [] } } := rfl

theorem landResults_none {s : State} (h : s.cur.inFlight = []) :
    landResults s = { s with cur := { s.cur with remoteStores := storesNow s } } := by
  rw [landResults_eq, h]
  exact congrArg (fun fs => { s with cur := { s.cur with remoteStores := storesNow s, inFlight := fs } }) h.symm

theorem landResults_local {s : State} (h : ∀ r ∈ s.cur.inFlight, r.away = none) :
    ∃ arrives : List Bool, arrives.length = s.cur.inFlight.length ∧
      landResults s = { s with
        free := s.free + arrives.length
        cur := { ((s.cur.inFlight.zip arrives).filter (·.2)).foldl (fun t r => fillResult r.1.reg r.1.data t) s.cur with
          remoteStores := storesNow s
          inFlight := ((s.cur.inFlight.zip arrives).filter (fun r => !r.2)).map (·.1) } } := by
  refine ⟨arrivals s.free s.cur.inFlight.length, arrivals_length _ _, ?_⟩
  have hcomm := foldl_fillResult_comm (g := fun t => { t with remoteStores := storesNow s, inFlight := [] })
    (fun reg x t => by unfold fillResult; split <;> rfl)
    ((s.cur.inFlight.zip (arrivals s.free s.cur.inFlight.length)).filter (·.2)) s.cur
  rw [landResults_eq, landEach_local _ h]
  simp only [landed, hcomm, arrivals_length, List.nil_append]

/-! ## Showing a write, and hearing replies (notes/assumptions/7.md) -/

/-- A write that is shown to a viewer is shown to it. -/
theorem showWrite_shown {s : State} {id : Nat} {viewer : Viewer} {w : DieWrite} (hw : w ∈ (showWrite id viewer s).mem.unseen)
    (hid : w.id = id) : viewer ∈ w.shown := by
  obtain ⟨x, hx, rfl⟩ := List.mem_map.1 hw
  split at hid
  · rename_i hshow
    rw [if_pos hshow]
    exact List.mem_append_right _ (List.mem_singleton_self viewer)
  · rename_i hseen
    rw [if_neg hseen]
    have hp := precedes_self (want := fun w => w.id == id) hx (by simp [hid])
    simpa [hp] using hseen

theorem hearReply_silent {s : State} {n : BitVec 6} (h : (gRead s.cur n).reply = []) : hearReply n s = s := by
  simp [hearReply, h]

theorem foldl_hearReply_silent {s : State} (h : ∀ n, (gRead s.cur n).reply = []) (ns : List (BitVec 6)) :
    ns.foldl (fun s n => hearReply n s) s = s := by
  induction ns with
  | nil => rfl
  | cons n rest ih => rw [List.foldl_cons, hearReply_silent (h n), ih]

theorem hearReplies_silent {s : State} (h : ∀ n, (gRead s.cur n).reply = []) (i : Instr) : hearReplies i s = s := by
  unfold hearReplies
  split
  · split
    · split
      · exact foldl_hearReply_silent h _
      · rfl
    · rfl
  · rfl

theorem hearReplies_illegalEncoding (n : Nat) (w : Word) (s : State) : hearReplies (.illegalEncoding n w) s = s := rfl

/-- Settles O56: the fetch reads the words at the pc, the decoder's answer is executed, and the landing is an induction over the
results in flight. -/
theorem stepRunsTheDecodedInstruction : Obligations.StepRunsTheDecodedInstruction := by
  unfold Obligations.StepRunsTheDecodedInstruction
  refine ⟨?_, ?_, ?_, ?_, ?_, ?_, fun _ => landResults_none, fun _ => landResults_local, ?_,
    fun i s h => hearReplies_silent h i⟩
  · intro s ws i ht hl hs hi hd
    rw [step_current ht hl, issue_fetched hs (fetchInstr_decodes hi hd)]
    rfl
  · intro s w n ht hl hs hw hd
    rw [step_current ht hl, issue_fetched hs (fetchInstr_head_error hw hd), hearReplies_illegalEncoding]
  · intro s ws n ht hl hs hi hd
    rw [step_current ht hl, issue_fetched hs (fetchInstr_decodes hi hd)]
    rfl
  · intro s e late rest ht
    simp [step, ht]
  · intro s t p late rest ws i ht hsel hs hi hd
    simp only [step, ht, hsel, issue_fetched hs (fetchInstr_decodes hi hd)]
    rfl
  · intro s ht hm
    rw [step_no_turn ht, issue, if_neg (fun h => Bool.noConfusion (hm.symm.trans h))]
    rfl
  · intro s id viewer rest ht
    refine ⟨showWrite id viewer { s with turns := rest }, ?_, rfl, rfl, ⟨rfl, rfl, rfl, rfl⟩,
      fun w hw hid => showWrite_shown hw hid⟩
    unfold step
    rw [ht]
    rfl

end Sys2Proof.Machine
end

section
/-! MFS and MTS (01 R33, 04 R136). -/

namespace Sys2Proof.Machine

theorem readGood_then {α : Type} (items : List Nat) (x : α) (s : State) :
    ((fun _ => x) <$> readGood items) s = if holdsBad items s.cur then .error (.trap 0x12 0#64) else .ok (x, s) := by
  rw [act_map, act_readGood]
  cases holdsBad items s.cur <;> rfl

/-- A selector of R33 reads its register, unless that came back poisoned (13 R362). -/
theorem readSystem_eq {s : State} {c : Ctx} {core : CoreState} {sel : Nat} (hsel : sel ≤ 16)
    (hc : findCtx s s.cur.fid.ctx = some c) (hcore : findCore s s.cur.pos = some core) :
    readSystem sel s =
      if holdsBad (systemItem sel) s.cur then .error (.trap 0x12 0#64) else .ok (systemValue s c core sel, s) := by
  have hctx (g : Ctx → DWord) : (g <$> getCtx) s = .ok (g c, s) := by simp [act_map, getCtx, act_bind, ctxOf, hc]
  interval_cases sel <;>
    simp [readSystem, systemItem, systemValue, holdsBad, act_bind, readGood_then, hctx, eventWord, xdone, hcore, w64]

@[simp] theorem systemValue_begun (s : State) (c : Ctx) (core : CoreState) (sel : Nat) :
    systemValue (begun s) c core sel = systemValue s c core sel := by
  unfold systemValue; split <;> simp

theorem mfs_reads {i : Instr} {f : Ext} (hf : i.fields = some (0x0F#6, 0x0#4, f))
    (he : ∀ s, exec i s = instr 0x0F#6 0x0#4 f (mfsBody f) s) : ReadsSystem i f := by
  intro s c core hr hsel hd hc hcore
  have hread := readSystem_eq (s := begun s) hsel (by simpa [findCtx] using hc) (by simpa [findCore] using hcore)
  rw [systemValue_begun] at hread
  constructor
  · intro hgood
    have hg : holdsBad (systemItem f.a.toNat) (begun s).cur = false := (sound_begun _ s).2 hgood
    simp only [hg, Bool.false_eq_true, if_false] at hread
    refine exec_completes hf (he s) hr ?_
    rw [mfsBody, act_bind_ok hread, writeData_writable _ ((writable_begun s _).2 hd)]
  · intro hbad
    have hb : holdsBad (systemItem f.a.toNat) (begun s).cur = true := by
      rw [← sound_begun] at hbad
      simpa [Sound] using hbad
    simp only [hb, if_true] at hread
    exact exec_traps hf (he s) hr (by rw [mfsBody, act_bind_error hread])

/-- The thread with a system register that MTS names written: reserved bits are discarded, and it is good again (13 R362). -/
def withSystem (sel : Nat) (x : DWord) (t : Thread) : Thread :=
  if sel = 12 then { t with tcause := x &&& 0xFF#64, bad := setDrop t.bad badTcause }
  else if sel = 13 then { t with tpc := x &&& ~~~3#64, bad := setDrop t.bad badTpc }
  else if sel = 14 then { t with tinfo := x, bad := setDrop t.bad badTinfo }
  else { t with fstat := x &&& fstatMask, bad := setDrop t.bad badFstat }

/-- Every selector but FSTAT's needs SYS. -/
theorem writeSystem_eq (sel : Nat) (x : DWord) (s : State) : writeSystem sel x s =
    if sel != 15 && !(capHas s.cur.code permSYS) then .error (.trap 0x06 (capCursor s.cur.code))
    else .ok (⟨⟩, { s with cur := withSystem sel x s.cur }) := by
  unfold writeSystem
  simp only [act_bind, act_get, act_trapIf, act_modCur]
  cases sel != 15 && !(capHas s.cur.code permSYS) <;> rfl

theorem mts_writes {i : Instr} {f : Ext} (hf : i.fields = some (0x0F#6, 0x1#4, f))
    (he : ∀ s, exec i s = instr 0x0F#6 0x1#4 f (mtsBody f) s) : WritesSystem i f := by
  intro s hr ha
  have hbody : mtsBody f (begun s) = writeSystem f.d.toNat (regData s f.a) (begun s) := by
    rw [mtsBody, act_bind_ok (readData_readable ((readable_begun s _ _).2 ha)), regData_begun]
  have writes (hok : (f.d.toNat != 15 && !(capHas s.cur.code permSYS)) = false) :
      exec i s = .next (past f { begun s with cur := withSystem f.d.toNat (regData s f.a) (begun s).cur }) := by
    refine exec_completes hf (he s) hr ?_
    rw [hbody, writeSystem_eq, begun_cur_code, hok]
    rfl
  refine ⟨fun hd => ?_, fun hsys => ⟨fun hd => ?_, fun hd => ?_, fun hd => ?_⟩, fun hsys hd => ?_⟩
  · rw [writes (by simp [hd])]; simp [hd, withSystem, fstatMask]
  · rw [writes (by simp [hsys])]; simp [hd, withSystem]
  · rw [writes (by simp [hsys])]; simp [hd, withSystem]
  · rw [writes (by simp [hsys])]; simp [hd, withSystem]
  · refine exec_traps hf (he s) hr ?_
    rw [hbody, writeSystem_eq, begun_cur_code]
    rcases hd with hd | hd | hd <;> simp [hd, hsys]

/-- Settles O10: each selector reads its register, and each writable one is written. -/
theorem systemRegistersReadAndWrite : Obligations.SystemRegistersReadAndWrite := by
  unfold Obligations.SystemRegistersReadAndWrite
  exact ⟨fun _ => mfs_reads rfl (fun _ => rfl), fun _ => mfs_reads rfl (fun _ => rfl),
    fun _ => mts_writes rfl (fun _ => rfl), fun _ => mts_writes rfl (fun _ => rfl)⟩

end Sys2Proof.Machine
end

section
/-! Element-wise vector forms (01 R23 to R29, 06 R176 to R185). -/

namespace Sys2Proof.Machine

/-! ## RNS64 (03 R92 to R94) -/

/-- The canonical residue of an integer. -/
def rnsResidue (m : Nat) (x : Int) : Nat := (x % (m : Int)).toNat

theorem rnsResidue_lt {m : Nat} (h : 0 < m) (x : Int) : rnsResidue m x < m := by
  have := Int.emod_lt_of_pos x (Int.natCast_pos.2 h)
  unfold rnsResidue; omega

theorem rnsResidue_cast {m : Nat} (h : 0 < m) (x : Int) : (rnsResidue m x : Int) = x % m :=
  Int.toNat_of_nonneg (Int.emod_nonneg x (by omega))

theorem rnsResidue_add {m : Nat} (h : 0 < m) (x y : Int) : (rnsResidue m x + rnsResidue m y) % m = rnsResidue m (x + y) := by
  apply Int.natCast_inj.1
  rw [Int.natCast_emod, Int.natCast_add, rnsResidue_cast h, rnsResidue_cast h, rnsResidue_cast h, ← Int.add_emod]

theorem rnsResidue_mul {m : Nat} (h : 0 < m) (x y : Int) : rnsResidue m x * rnsResidue m y % m = rnsResidue m (x * y) := by
  apply Int.natCast_inj.1
  rw [Int.natCast_emod, Int.natCast_mul, rnsResidue_cast h, rnsResidue_cast h, rnsResidue_cast h, ← Int.mul_emod]

theorem rnsResidue_class {m : Nat} (h : 0 < m) (hd : m ∣ rnsM) (x : Int) :
    (x % (rnsM : Int)).toNat % m = rnsResidue m x := by
  apply Int.natCast_inj.1
  rw [Int.natCast_emod, Int.toNat_of_nonneg (Int.emod_nonneg x (by decide)), rnsResidue_cast h,
    Int.emod_emod_of_dvd x (Int.natCast_dvd_natCast.2 hd)]

theorem rnsOfInt_eq (x : Int) : rnsOfInt x =
    rnsPack (rnsResidue (2 ^ 21 - 1) x) (rnsResidue (2 ^ 21) x) (rnsResidue (2 ^ 21 + 1) x) := by
  unfold rnsOfInt
  dsimp only
  rw [rnsResidue_class (by decide) (by decide), rnsResidue_class (by decide) (by decide),
    rnsResidue_class (by decide) (by decide)]

theorem rnsResidues_ofInt (x : Int) : rnsResidues (rnsOfInt x) =
    (rnsResidue (2 ^ 21 - 1) x, rnsResidue (2 ^ 21) x, rnsResidue (2 ^ 21 + 1) x) := by
  have h1 := rnsResidue_lt (m := 2 ^ 21 - 1) (by decide) x
  have h2 := rnsResidue_lt (m := 2 ^ 21) (by decide) x
  have h3 := rnsResidue_lt (m := 2 ^ 21 + 1) (by decide) x
  rw [rnsOfInt_eq, rnsResidues, rnsPack]
  generalize rnsResidue (2 ^ 21 - 1) x = a at *
  generalize rnsResidue (2 ^ 21) x = b at *
  generalize rnsResidue (2 ^ 21 + 1) x = c at *
  norm_num at h1 h2 h3
  simp only [Prod.mk.injEq]
  refine ⟨?_, ?_, ?_⟩ <;> norm_num <;> omega

/-- The residues of a sum and of a product are those of the integers' (03 R93). -/
theorem rnsAdd_ofInt (x y : Int) : rnsAdd (rnsOfInt x) (rnsOfInt y) = rnsOfInt (x + y) := by
  rw [rnsAdd, rnsResidues_ofInt, rnsResidues_ofInt, rnsOfInt_eq]
  dsimp only
  rw [rnsResidue_add (by decide), rnsResidue_add (by decide), rnsResidue_add (by decide)]

theorem rnsMul_ofInt (x y : Int) : rnsMul (rnsOfInt x) (rnsOfInt y) = rnsOfInt (x * y) := by
  rw [rnsMul, rnsResidues_ofInt, rnsResidues_ofInt, rnsOfInt_eq]
  dsimp only
  rw [rnsResidue_mul (by decide), rnsResidue_mul (by decide), rnsResidue_mul (by decide)]

/-! ## Draws (03 R96) -/

theorem drawList_length (x : DWord) (n : Nat) : (drawList x n).1.length = n := by
  induction n generalizing x with
  | zero => rfl
  | succ n ih => simp [drawList, ih]

theorem drawsOf_length (rm : BitVec 3) (n : Nat) (s : State) : (drawsOf rm n s).1.length = n := by
  unfold drawsOf
  split
  · exact drawList_length _ _
  · simp

/-! ## Elements of a v register (01 R26, R50) -/

theorem packNat_lt (w : Nat) (xs : List Nat) : packNat w xs < 2 ^ (w * xs.length) := by
  induction xs with
  | nil => simp [packNat]
  | cons a rest ih =>
    have ha : a % 2 ^ w < 2 ^ w := Nat.mod_lt _ (Nat.two_pow_pos w)
    rw [List.length_cons, Nat.mul_succ, Nat.add_comm, Nat.pow_add]
    calc packNat w (a :: rest) = a % 2 ^ w + 2 ^ w * packNat w rest := rfl
      _ < 2 ^ w * (packNat w rest + 1) := by rw [Nat.mul_succ]; omega
      _ ≤ 2 ^ w * 2 ^ (w * rest.length) := Nat.mul_le_mul_left _ ih

/-- Each element packed is found at its place. -/
theorem packNat_element (w : Nat) (xs : List Nat) (j : Nat) : packNat w xs / 2 ^ (w * j) % 2 ^ w = xs.getD j 0 % 2 ^ w := by
  have hpos : 0 < 2 ^ w := Nat.two_pow_pos w
  induction xs generalizing j with
  | nil => simp [packNat]
  | cons a rest ih =>
    have hcons : packNat w (a :: rest) = a % 2 ^ w + 2 ^ w * packNat w rest := rfl
    cases j with
    | zero => simp [hcons]
    | succ j =>
      have hdiv : packNat w (a :: rest) / 2 ^ w = packNat w rest := by
        rw [hcons, Nat.add_mul_div_left _ _ hpos, Nat.div_eq_of_lt (Nat.mod_lt _ hpos), Nat.zero_add]
      rw [Nat.mul_succ, Nat.add_comm, Nat.pow_add, ← Nat.div_div_eq_div_mul, hdiv, ih, List.getD_cons_succ]

theorem toNat_packNat {w n : Nat} {xs : List Nat} (h : w * xs.length ≤ n) :
    (BitVec.ofNat n (packNat w xs)).toNat = packNat w xs := by
  rw [BitVec.toNat_ofNat]
  exact Nat.mod_eq_of_lt ((packNat_lt w xs).trans_le (Nat.pow_le_pow_right Nat.two_pos h))

/-- Elements that fit a v register are read back. -/
theorem element_packElements {w : Nat} {xs : List Nat} (h : w * xs.length ≤ 1024) (j : Nat) :
    element (packElements w xs) w j = xs.getD j 0 % 2 ^ w := by
  rw [element, packElements, toNat_packNat h, packNat_element]

theorem vCount_eq (s : State) (w : Nat) : vCount s.cur w = elementCount s w := by
  unfold vCount vBytes elementCount; split <;> rfl

theorem elementCount_fits (s : State) (w : Nat) : w * elementCount s w ≤ 1024 := by
  unfold elementCount
  split <;> exact (Nat.mul_div_le _ _).trans (by omega)

/-- A blended element: the result where it is governed and has one, and what was there elsewhere. -/
theorem element_blend {w : Nat} {xs : List (Option Nat)} (h : w * xs.length ≤ 1024) (old : VWord) (p : Word) {j : Nat}
    (hj : j < xs.length) : element (blend old p w xs) w j =
      (if predBit p w j then (xs.getD j none).getD (element old w j) else element old w j) % 2 ^ w := by
  rw [blend, element_packElements (by simpa using h)]
  simp [List.getD_eq_getElem?_getD, hj]

theorem keepsSome_iff (p : Word) (w : Nat) (xs : List (Option Nat)) :
    keepsSome p w xs = true ↔ ∃ j, j < xs.length ∧ (predBit p w j && (xs.getD j none).isSome) = false := by
  unfold keepsSome
  rw [List.any_eq_true]
  constructor
  · rintro ⟨b, hb, hn⟩
    obtain ⟨j, hj, rfl⟩ := List.mem_mapIdx.1 hb
    rw [Bool.not_eq_true'] at hn
    exact ⟨j, hj, by simpa [List.getD_eq_getElem?_getD, hj] using hn⟩
  · rintro ⟨j, hj, hn⟩
    refine ⟨_, List.mem_mapIdx.2 ⟨j, hj, rfl⟩, ?_⟩
    rw [Bool.not_eq_true']
    simpa [List.getD_eq_getElem?_getD, hj] using hn

theorem getLsbD_foldl_or (xs : List Flags) (x : Flags) (k : Nat) :
    (xs.foldl (· ||| ·) x).getLsbD k = true ↔ x.getLsbD k = true ∨ ∃ y ∈ xs, y.getLsbD k = true := by
  induction xs generalizing x with
  | nil => simp
  | cons y rest ih => simp [ih, or_assoc]

/-- A flag is set where an active element sets it (06 R176). -/
theorem getLsbD_activeFlags (p : Word) (w : Nat) (rs : List (Nat × Flags)) (k : Nat) :
    (activeFlags p w rs).getLsbD k = true ↔
      ∃ j, j < rs.length ∧ predBit p w j = true ∧ (rs.getD j (0, Flags.none)).2.getLsbD k = true := by
  have hnone : (Flags.none).getLsbD k = false := by simp [Flags.none]
  unfold activeFlags
  rw [getLsbD_foldl_or, hnone]
  simp only [Bool.false_eq_true, false_or]
  constructor
  · rintro ⟨y, hy, hk⟩
    obtain ⟨j, hj, rfl⟩ := List.mem_mapIdx.1 hy
    split at hk
    · exact ⟨j, hj, ‹_›, by simpa [List.getD_eq_getElem?_getD, hj] using hk⟩
    · rw [hnone] at hk; cases hk
  · rintro ⟨j, hj, hp, hk⟩
    refine ⟨_, List.mem_mapIdx.2 ⟨j, hj, rfl⟩, ?_⟩
    simpa [List.getD_eq_getElem?_getD, hj, hp] using hk

/-! ## Writing D (01 R25, R29, 06 R176, 13 R362) -/

/-- The state that D has after its elements are written. -/
def writtenState (u : State) (f : Ext) (w : Nat) (xs : List (Option Nat)) : RegState :=
  if (vAt u.cur f.d.toNat).st == .poisoned && keepsSome (governing u.cur f) w xs then .poisoned else .full

theorem writeElements_writable {u : State} {f : Ext} (w : Nat) (xs : List (Option Nat)) (h : VWritable u f.d) :
    writeElements f w xs u =
      .ok (⟨⟩, setVAs f.d ⟨blend (vAt u.cur f.d.toNat).val (governing u.cur f) w xs, writtenState u f w xs⟩ u) := by
  have hp : ((vAt u.cur f.d.toNat).st == RegState.pending) = false := by simpa using h.2
  simp [writeElements, writeVAs, act_bind, hp, setVAs, writtenState]

/-- The results of a list agree with those of a function, element by element modulo 2^w. -/
def Agree (n w : Nat) (xs : List (Option Nat)) (r : Nat → Option Nat) : Prop :=
  xs.length = n ∧ ∀ j, j < n → (xs.getD j none).map (· % 2 ^ w) = (r j).map (· % 2 ^ w)

theorem getD_mod_congr {m : Nat} {x y : Option Nat} (h : x.map (· % m) = y.map (· % m)) (d : Nat) :
    x.getD d % m = y.getD d % m := by
  cases x <;> cases y <;> simp_all

theorem elementsAre_blend {u : State} {f : Ext} {w : Nat} {xs : List (Option Nat)} {r : Nat → Option Nat}
    (h : Agree (elementCount u w) w xs r) :
    ElementsAre u f w (blend (vAt u.cur f.d.toNat).val (governing u.cur f) w xs) r := by
  obtain ⟨hn, hx⟩ := h
  intro j hj
  rw [element_blend (hn ▸ elementCount_fits u w) _ _ (hn ▸ hj)]
  unfold governs
  split
  · exact getD_mod_congr (hx j hj) _
  · rfl

theorem dState_written {u : State} {f : Ext} {w : Nat} {xs : List (Option Nat)} {r : Nat → Option Nat}
    (h : Agree (elementCount u w) w xs r) : DState u f w r (writtenState u f w xs) := by
  obtain ⟨hn, hx⟩ := h
  have hsome (j : Nat) (hj : j < elementCount u w) : (xs.getD j none).isSome = (r j).isSome := by
    have := congrArg Option.isSome (hx j hj)
    simpa using this
  have hkeeps : keepsSome (governing u.cur f) w xs = true ↔
      ∃ j, j < elementCount u w ∧ ¬ (governs u f w j = true ∧ (r j).isSome = true) := by
    rw [keepsSome_iff, hn]
    refine exists_congr (fun j => and_congr_right (fun hj => ?_))
    rw [hsome j hj, ← Bool.and_eq_true, Bool.not_eq_true]
    rfl
  unfold writtenState DState
  rw [← hkeeps]
  split <;> simp_all

/-- Two results of an element agree: their values modulo 2^w, and their flags. -/
def SameResult (w : Nat) (x y : Nat × Flags) : Prop := x.1 % 2 ^ w = y.1 % 2 ^ w ∧ x.2 = y.2

theorem SameResult.refl (w : Nat) (x : Nat × Flags) : SameResult w x x := ⟨rfl, rfl⟩

/-- A form whose body ends by writing results to D completes. -/
theorem vectorGives_of {i : Instr} {op : BitVec 6} {fn : BitVec 4} {f : Ext} {body : Act Unit} {s u : State} {w : Nat}
    {rs : List (Nat × Flags)} {r : Nat → Nat × Flags} (hf : i.fields = some (op, fn, f)) (he : exec i s = instr op fn f body s)
    (hr : Runs i s) (hb : body (begun s) = writeResults f w rs u) (hd : VWritable u f.d) (hn : rs.length = elementCount u w)
    (hrs : ∀ j, j < elementCount u w → SameResult w (rs.getD j (0, Flags.none)) (r j)) : VectorGives i f s u w r := by
  have hagree : Agree (elementCount u w) w (rs.map (fun r => some r.1)) (fun j => some (r j).1) := by
    refine ⟨by simpa using hn, fun j hj => ?_⟩
    obtain ⟨hval, -⟩ := hrs j hj
    simpa [List.getD_eq_getElem?_getD, hn, hj] using hval
  refine ⟨activeFlags (governing u.cur f) w rs, ⟨_, _, elementsAre_blend hagree, dState_written hagree, ?_⟩, fun k => ?_⟩
  · refine exec_completes hf he hr (hb.trans ?_)
    have hw := writeElements_writable (u := setFlags (activeFlags (governing u.cur f) w rs) u) w (rs.map (fun r => some r.1)) hd
    simp only [writeResults, act_bind, act_get, orFlags, act_modCur]
    exact hw
  · rw [getLsbD_activeFlags, hn]
    refine exists_congr (fun j => and_congr_right (fun hj => ?_))
    obtain ⟨-, hflags⟩ := hrs j hj
    rw [hflags]
    rfl

/-! ## Sources (01 R23, R27) -/

theorem readV_register {s : State} {n : BitVec 6} (tb : Bool) (hn : n.toNat < 28) : readV n tb s = readVReg n.toNat tb s := by
  rw [readV, if_pos hn]

theorem readV_channel {s : State} {n : BitVec 6} (tb : Bool) (hn : 28 ≤ n.toNat) :
    readV n tb s = popChannel (n.toNat - 28) tb s := by
  rw [readV, if_neg (by omega)]

theorem getBand_found {s : State} {b : Band} (h : bandOf s s.cur = some b) : getBand s = .ok (b, s) := by
  simp [getBand, act_bind, h]

/-- The state after the head of an input FIFO of the issuing firing is popped: the FIFO keeps the rest, the pop is counted, and
the thread follows the element's clock. -/
def poppedHead (b : Band) (port : Nat) (x : Sent) (rest : List Sent) (s : State) : State :=
  { modInstance b.entry s.cur.fid.gang s.cur.fid.inst (fun i => { i with fifos := i.fifos.set port rest }) s with
    cur := { s.cur with popped := setAt s.cur.popped port (· + 1) }
    mem := (s.mem.releasesFirst (eyeOf s.cur) 2).applyClock (eyeOf s.cur).die (some (.agent (eyeOf s.cur).who)) x.clock }

section
variable {s : State} {b : Band} {i : Instance} {port : Nat} (tb : Bool)

theorem popChannel_spent (hb : bandOf s s.cur = some b) (hr : inRate b port ≤ s.cur.popped.getD port 0) :
    popChannel port tb s = .error (.trap 0x03 (emptyInfo false 2 port)) := by
  simp only [popChannel, act_bind, act_get, getBand_found hb, act_trapIf, hr, decide_true, if_true]

theorem popChannel_empty (hb : bandOf s s.cur = some b) (hi : findInstance b s.cur.fid.gang s.cur.fid.inst = some i)
    (hr : s.cur.popped.getD port 0 < inRate b port) (hx : i.fifos.getD port [] = []) :
    popChannel port tb s = .error (if tb then .trap 0x03 (emptyInfo true 2 port) else .wait) := by
  unfold popChannel
  simp only [act_bind, act_get, getBand_found hb, act_trapIf, Nat.not_le.2 hr, decide_false, Bool.false_eq_true, if_false, hi, hx]
  cases tb <;> rfl

theorem popChannel_head {x : Sent} {rest : List Sent} (hb : bandOf s s.cur = some b)
    (hi : findInstance b s.cur.fid.gang s.cur.fid.inst = some i) (hr : s.cur.popped.getD port 0 < inRate b port)
    (hx : i.fifos.getD port [] = x :: rest) : popChannel port tb s = .ok (x.data, poppedHead b port x rest s) := by
  unfold popChannel
  simp only [act_bind, act_get, getBand_found hb, act_trapIf, Nat.not_le.2 hr, decide_false, Bool.false_eq_true, if_false, hi, hx]
  rfl

end

/-- A read of a channel answers only with the head of a FIFO. -/
theorem popChannel_ok {s t : State} {port : Nat} {tb : Bool} {a : VWord} (h : popChannel port tb s = .ok (a, t)) :
    ∃ b x rest, t = poppedHead b port x rest s := by
  cases hb : bandOf s s.cur with
  | none => simp [popChannel, act_bind, getBand, hb, dangling] at h
  | some b =>
    by_cases hr : inRate b port ≤ s.cur.popped.getD port 0
    · rw [popChannel_spent tb hb hr] at h; cases h
    · cases hi : findInstance b s.cur.fid.gang s.cur.fid.inst with
      | none =>
        simp only [popChannel, act_bind, act_get, getBand_found hb, act_trapIf, hr, decide_false, Bool.false_eq_true, if_false,
          hi] at h
        cases h
      | some i =>
        cases hx : i.fifos.getD port [] with
        | nil => rw [popChannel_empty tb hb hi (by omega) hx] at h; cases h
        | cons x rest =>
          rw [popChannel_head tb hb hi (by omega) hx] at h
          cases h
          exact ⟨b, x, rest, rfl⟩

/-- A read of a v register answers without a change. -/
theorem readVReg_ok {s t : State} {n : Nat} {tb : Bool} {a : VWord} (h : readVReg n tb s = .ok (a, t)) : t = s := by
  cases hst : (vAt s.cur n).st <;> simp [readVReg, act_bind, hst, act_ite] at h
  case full => exact h.2.symm
  case pending => cases tb <;> cases h

/-- A vector read makes nothing of the thread good or bad (13 R362). -/
theorem readV_bad {s t : State} {n : BitVec 6} {tb : Bool} {a : VWord} (h : readV n tb s = .ok (a, t)) : t.cur.bad = s.cur.bad := by
  by_cases hn : n.toNat < 28
  · rw [readV_register tb hn] at h
    rw [readVReg_ok h]
  · rw [readV_channel tb (by omega)] at h
    obtain ⟨b, x, rest, rfl⟩ := popChannel_ok h
    rfl

theorem poppedHead_sameBytes (b : Band) (port : Nat) (x : Sent) (rest : List Sent) (s : State) :
    SameBytes (poppedHead b port x rest s).mem s.mem := by
  have hrel : Memory.SameData (s.mem.releasesFirst (eyeOf s.cur) 2) s.mem := by
    refine foldl_same _ (fun m r => ?_) _ _
    split
    · exact applyWhere_same _ _ _
    · exact .refl m
  obtain ⟨h1, h2, h3, h4⟩ := (applyWhere_same _ _ _).trans hrel
  exact ⟨h1, h2, h3, h4⟩

theorem vectorSourcesReadRegistersAndChannels : VectorSourcesReadRegistersAndChannelsPart := by
  refine ⟨fun s n tb hn hst => ?_, fun s n tb hn hst htb => ?_, fun s n tb b i x rest hn hb hi hx hr => ?_,
    fun s n tb b i hn hb hi => ⟨fun hr => ?_, fun hr hx => ?_⟩⟩
  · simp [readV_register tb hn, readVReg, act_bind, hst]
  · rw [readV_register tb hn]
    simp [readVReg, act_bind, hst, htb]
  · rw [readV_channel tb hn]
    exact ⟨_, popChannel_head tb hb hi hr hx, poppedHead_sameBytes b _ x rest s, rfl, rfl⟩
  · rw [readV_channel tb hn, popChannel_spent tb hb hr]
    simp [emptyInfo, w64]
  · rw [readV_channel tb hn, popChannel_empty tb hb hi hr hx]
    simp [emptyInfo, w64]

/-! ## The element-wise shapes -/

/-- What every element-wise shape does once its sources are read: `op` takes the element's number and its draw. -/
def drawnResults (op : Nat → Nat → Nat × Flags) (f : Ext) : Act Unit := do
  let n := vCount (← get).cur (vw f)
  let ds ← takeDraws f.rm n
  writeResults f (vw f) (ds.mapIdx op)

theorem drawnResults_eq {t : State} {f : Ext} (op : Nat → Nat → Nat × Flags) (h : f.rm = 5#3 → Sound [badSto] t) :
    drawnResults op f t = writeResults f (vw f) ((drawsOf f.rm (elementCount t (vw f)) t).1.mapIdx op)
      (afterDraws f.rm (elementCount t (vw f)) t) := by
  simp only [drawnResults, act_bind, act_get, vCount_eq, takeDraws_sound _ h]

/-- A form that reads its sources, which makes nothing good or bad, and then writes drawn results completes. -/
theorem vectorGives_drawn {i : Instr} {op : BitVec 6} {fn : BitVec 4} {f : Ext} {body : Act Unit} {s t : State}
    {g : Nat → Nat → Nat × Flags} {r : Nat → Nat × Flags} (hf : i.fields = some (op, fn, f))
    (he : exec i s = instr op fn f body s) (hr : Runs i s) (hb : body (begun s) = drawnResults g f t)
    (hbad : t.cur.bad = s.cur.bad) (hd : VWritable t f.d)
    (hg : ∀ j, SameResult (vw f) (g j (drawAt f.rm (elementCount t (vw f)) j t)) (r j)) :
    VectorGives i f s (afterDraws f.rm (elementCount t (vw f)) t) (vw f) r := by
  obtain ⟨⟨-, -, -, -, hsto⟩, -⟩ := (runs_iff hf s).1 hr
  have hsound (h : f.rm = 5#3) : Sound [badSto] t := by
    have := hsto h
    unfold Sound holdsBad at *
    rwa [hbad]
  have hn := drawsOf_length f.rm (elementCount t (vw f)) t
  refine vectorGives_of hf he hr (hb.trans (drawnResults_eq g hsound)) hd (List.length_mapIdx.trans hn) (fun j hj => ?_)
  have hj' : j < (drawsOf f.rm (elementCount t (vw f)) t).1.length := hn.symm ▸ hj
  have hget : ((drawsOf f.rm (elementCount t (vw f)) t).1.mapIdx g).getD j (0, Flags.none) =
      g j (drawAt f.rm (elementCount t (vw f)) j t) := by
    simp [drawAt, List.getD_eq_getElem?_getD, hj']
  rw [hget]
  exact hg j

section
variable {i : Instr} {op : BitVec 6} {fn : BitVec 4} {f : Ext} (hf : i.fields = some (op, fn, f))
include hf

theorem vectorOne_of {g r : Nat → Nat → Nat × Flags} (he : ∀ s, exec i s = instr op fn f (vecR g f) s)
    (hg : ∀ d a, SameResult (vw f) (g d a) (r d a)) : VectorOne i f r := by
  intro s t a hr ha hd
  refine vectorGives_drawn hf (he s) hr (g := fun j d => g d (element a (vw f) j)) ?_ ?_ hd (fun j => hg _ _)
  · rw [vecR, act_bind_ok ha]; rfl
  · rw [readV_bad ha, begun_cur_bad]

theorem vectorTwo_of {g r : Nat → Nat → Nat → Nat × Flags} (he : ∀ s, exec i s = instr op fn f (vecRR g f) s)
    (hg : ∀ d a b, SameResult (vw f) (g d a b) (r d a b)) : VectorTwo i f r := by
  intro s t u a b hr ha hb hd
  refine vectorGives_drawn hf (he s) hr (g := fun j d => g d (element a (vw f) j) (element b (vw f) j)) ?_ ?_ hd
    (fun j => hg _ _ _)
  · rw [vecRR, act_bind_ok ha, act_bind_ok hb]; rfl
  · rw [readV_bad hb, readV_bad ha, begun_cur_bad]

theorem vectorThree_of {g : Nat → Nat → Nat → Nat → Nat × Flags} (he : ∀ s, exec i s = instr op fn f (vecRRR g f) s) :
    VectorThree i f g := by
  intro s t u v a b c hr ha hb hc hd
  refine vectorGives_drawn hf (he s) hr
    (g := fun j d => g d (element a (vw f) j) (element b (vw f) j) (element c (vw f) j)) ?_ ?_ hd (fun j => .refl _ _)
  · rw [vecRRR, act_bind_ok ha, act_bind_ok hb, act_bind_ok hc]; rfl
  · rw [readV_bad hc, readV_bad hb, readV_bad ha, begun_cur_bad]

/-- A form of one source whose meaning is the stated operation itself. -/
theorem vectorOne_self {g : Nat → Nat → Nat × Flags} (he : ∀ s, exec i s = instr op fn f (vecR g f) s) : VectorOne i f g :=
  vectorOne_of hf he (fun _ _ => .refl _ _)

/-- A floating-point form of two sources. -/
theorem vectorFp_of {g : Fp → Rm → Nat → Nat → Nat → Nat × Flags} (he : ∀ s, exec i s = instr op fn f (vecFp g f) s) :
    VectorFp i f g :=
  vectorTwo_of hf he (fun _ _ _ => .refl _ _)

/-- An integer form: the machine reduces its result modulo 2^w, as D holds it. -/
theorem vectorInt_of {g : Nat → Nat → Nat → Nat} {r : Nat → Nat → Nat}
    (he : ∀ s, exec i s = instr op fn f (vecInt g f) s) (hg : ∀ a b, g (vw f) a b = r a b) : VectorInt i f r :=
  vectorTwo_of hf he (fun _ a b => ⟨by rw [← hg a b]; exact Nat.mod_mod _ _, rfl⟩)

theorem vectorRns_of {g : Nat → Nat → Nat} (he : ∀ s, exec i s = instr op fn f (vecRR (fun _ a b => exact (g a b)) f) s) :
    VectorInt i f g :=
  vectorTwo_of hf he (fun _ _ _ => .refl _ _)

end

theorem intExtreme_min (fmt a b : Nat) : intExtreme fmt false a b = if intValue fmt b < intValue fmt a then b else a := by
  simp [intExtreme]

theorem intExtreme_max (fmt a b : Nat) : intExtreme fmt true a b = if intValue fmt b < intValue fmt a then a else b := by
  by_cases h : intValue fmt b < intValue fmt a <;> simp [intExtreme, h]

theorem vectorElementwiseForms : VectorElementwiseFormsComputePart :=
  ⟨fun _ => vectorFp_of rfl (fun _ => rfl), fun _ => vectorFp_of rfl (fun _ => rfl),
    fun _ => vectorFp_of rfl (fun _ => rfl), fun _ => vectorFp_of rfl (fun _ => rfl),
    fun _ => vectorThree_of rfl (fun _ => rfl), fun _ => vectorThree_of rfl (fun _ => rfl),
    fun _ => vectorThree_of rfl (fun _ => rfl),
    fun _ => vectorOne_self rfl (fun _ => rfl),
    fun _ => vectorFp_of rfl (fun _ => rfl), fun _ => vectorFp_of rfl (fun _ => rfl),
    fun _ => vectorOne_self rfl (fun _ => rfl), fun _ => vectorOne_self rfl (fun _ => rfl),
    fun _ => vectorOne_self rfl (fun _ => rfl), fun _ => vectorOne_self rfl (fun _ => rfl),
    fun _ => vectorOne_self rfl (fun _ => rfl), fun _ => vectorOne_self rfl (fun _ => rfl),
    fun _ => vectorOne_self rfl (fun _ => rfl), fun _ => vectorOne_self rfl (fun _ => rfl),
    fun _ => vectorInt_of rfl (fun _ => rfl) (fun _ _ => rfl),
    fun _ => vectorInt_of rfl (fun _ => rfl) (fun _ _ => rfl),
    fun _ => vectorInt_of rfl (fun _ => rfl) (fun _ _ => rfl),
    fun _ => vectorInt_of rfl (fun _ => rfl) (intExtreme_min _),
    fun _ => vectorInt_of rfl (fun _ => rfl) (intExtreme_max _),
    fun _ => vectorInt_of rfl (fun _ => rfl) (fun _ _ => rfl),
    fun _ => vectorInt_of rfl (fun _ => rfl) (fun _ _ => rfl),
    fun _ => vectorInt_of rfl (fun _ => rfl) (fun _ _ => rfl),
    fun _ => vectorInt_of rfl (fun _ => rfl) (fun _ _ => rfl),
    fun _ => vectorInt_of rfl (fun _ => rfl) (fun _ _ => rfl),
    fun _ => vectorInt_of rfl (fun _ => rfl) (fun _ _ => rfl),
    fun _ => vectorRns_of rfl (fun _ => rfl), fun _ => vectorRns_of rfl (fun _ => rfl),
    fun x y => ⟨rnsAdd_ofInt x y, rnsMul_ofInt x y⟩⟩

/-- Settles O26: a source is read, the draws are taken, and D is blended of the governed elements' results. -/
theorem vectorElementwiseFormsCompute : Obligations.VectorElementwiseFormsCompute :=
  ⟨vectorSourcesReadRegistersAndChannels, vectorElementwiseForms⟩

end Sys2Proof.Machine
end

section
/-! The encoder and the decoder agree (02 R51 to R54, R72). -/

namespace Sys2Proof.Machine

/-! ## Words and bytes (00 R9, 02 R51 to R54) -/

/-- The bytes of a word hold it (00 R9). -/
theorem takeWord_wordBytes (w : Word) (rest : List Byte) : takeWord (wordBytes w ++ rest) = some (w, rest) := by
  have h : w.extractLsb' 24 8 ++ w.extractLsb' 16 8 ++ w.extractLsb' 8 8 ++ w.extractLsb' 0 8 = w := by
    rw [BitVec.extractLsb'_append_extractLsb'_eq_extractLsb' (by rfl),
      BitVec.extractLsb'_append_extractLsb'_eq_extractLsb' (by rfl),
      BitVec.extractLsb'_append_extractLsb'_eq_extractLsb' (by rfl)]
    exact BitVec.extractLsb'_eq_self
  simp [wordBytes, takeWord, h]

/-- The base word holds LEN, OP and FN (02 R52). -/
@[simp] theorem baseWord_len (op : BitVec 6) (fn : BitVec 4) (f : Ext) : (baseWord op fn f).extractLsb' 0 2 = f.len :=
  BitVec.extractLsb'_append_eq_right

@[simp] theorem baseWord_op (op : BitVec 6) (fn : BitVec 4) (f : Ext) : (baseWord op fn f).extractLsb' 2 6 = op := by
  unfold baseWord
  simp only [BitVec.extractLsb'_append_eq_ite]
  simp

@[simp] theorem baseWord_fn (op : BitVec 6) (fn : BitVec 4) (f : Ext) : (baseWord op fn f).extractLsb' 28 4 = fn := by
  unfold baseWord
  simp only [BitVec.extractLsb'_append_eq_ite]
  simp

/-- The operand fields of the base word (02 R52). -/
theorem baseWord_operands (op : BitVec 6) (fn : BitVec 4) (f : Ext) :
    (baseWord op fn f).getLsbD 27 = f.tb ∧ (baseWord op fn f).getLsbD 26 = f.ta ∧
      (baseWord op fn f).extractLsb' 20 6 = f.b ∧ (baseWord op fn f).extractLsb' 14 6 = f.a ∧
      (baseWord op fn f).extractLsb' 8 6 = f.d := by
  unfold baseWord
  simp only [BitVec.extractLsb'_append_eq_ite, BitVec.getLsbD_append]
  simp

/-- The fields of extended word 1 (02 R53). -/
theorem extWord_fields (f : Ext) :
    (extWord f).extractLsb' 24 8 = f.sub ∧ (extWord f).extractLsb' 21 3 = f.ord ∧ (extWord f).extractLsb' 18 3 = f.scope ∧
      (extWord f).getLsbD 17 = f.pneg ∧ (extWord f).extractLsb' 14 3 = f.pred ∧ (extWord f).extractLsb' 10 4 = f.fmt ∧
      (extWord f).extractLsb' 7 3 = f.rm ∧ (extWord f).getLsbD 6 = f.tc ∧ (extWord f).extractLsb' 0 6 = f.c := by
  unfold extWord
  simp only [BitVec.extractLsb'_append_eq_ite, BitVec.getLsbD_append]
  simp

/-- The fields of words of which the first is a base word and those after it, as far as LEN calls for them, hold the rest. -/
theorem fieldsOf_baseWord {op : BitVec 6} {fn : BitVec 4} {f : Ext} {w1 w2 w3 w4 : Word}
    (hx : (if f.hasExt then w1 else 0#32) = extWord f) (hi : (if f.hasExt then w2 else 0#32) = f.imm)
    (hl : (if f.len.toNat = 1 then w2 ++ w1 else if f.len.toNat = 3 then w4 ++ w3 else 0#64) = f.lit) :
    fieldsOf (baseWord op fn f) w1 w2 w3 w4 = f := by
  obtain ⟨htb, hta, hb, ha, hd⟩ := baseWord_operands op fn f
  obtain ⟨hsub, hord, hscope, hpneg, hpred, hfmt, hrm, htc, hc⟩ := extWord_fields f
  unfold Ext.hasExt at hx hi
  simp only [fieldsOf, baseWord_len, htb, hta, hb, ha, hd, hx, hi, hl, hsub, hord, hscope, hpneg, hpred, hfmt, hrm, htc, hc]

/-- The words that LEN does not call for would be zero. -/
theorem normal_words {f : Ext} (h : f.normal = true) :
    (f.hasExt = false → extWord f = 0#32 ∧ f.imm = 0#32) ∧ (f.hasLit = false → f.lit = 0#64) := by
  unfold Ext.normal at h
  rw [Bool.and_eq_true] at h
  obtain ⟨hx, hl⟩ := h
  refine ⟨fun hn => ?_, fun hn => by simpa [hn] using hl⟩
  simp only [hn, Bool.false_or, Bool.and_eq_true, beq_iff_eq, Bool.not_eq_true'] at hx
  obtain ⟨⟨⟨⟨⟨⟨⟨⟨⟨hsub, hord⟩, hscope⟩, hpneg⟩, hpred⟩, hfmt⟩, hrm⟩, htc⟩, hc⟩, himm⟩ := hx
  exact ⟨by simp [extWord, hsub, hord, hscope, hpneg, hpred, hfmt, hrm, htc, hc], himm⟩

theorem len_cases (len : BitVec 2) : len = 0#2 ∨ len = 1#2 ∨ len = 2#2 ∨ len = 3#2 := by
  revert len; decide

theorem lenWords_cases (len : BitVec 2) : lenWords len = 1 ∨ lenWords len = 3 ∨ lenWords len = 5 := by
  revert len; decide

/-- The fields of an instruction's own words are its fields. -/
theorem fieldsOf_encodeFields (op : BitVec 6) (fn : BitVec 4) {f : Ext} (h : f.normal = true) :
    fieldsOf ((encodeFields op fn f).getD 0 0#32) ((encodeFields op fn f).getD 1 0#32) ((encodeFields op fn f).getD 2 0#32)
      ((encodeFields op fn f).getD 3 0#32) ((encodeFields op fn f).getD 4 0#32) = f := by
  obtain ⟨hx, hl⟩ := normal_words h
  have hlit : f.lit.extractLsb' 32 32 ++ f.lit.extractLsb' 0 32 = f.lit := BitVec.extractLsb'_append_extractLsb'
  obtain hlen | hlen | hlen | hlen := len_cases f.len
  · have hno : f.hasExt = false ∧ f.hasLit = false := by simp [Ext.hasExt, Ext.hasLit, hlen]
    obtain ⟨hw, hi⟩ := hx hno.1
    have he : encodeFields op fn f = [baseWord op fn f] := by simp [encodeFields, hlen]
    rw [he]
    exact fieldsOf_baseWord (by simp [hno, hw]) (by simp [hno, hi]) (by simp [hlen, hl hno.2])
  · have hno : f.hasExt = false := by simp [Ext.hasExt, hlen]
    obtain ⟨hw, hi⟩ := hx hno
    have he : encodeFields op fn f = [baseWord op fn f, f.lit.extractLsb' 0 32, f.lit.extractLsb' 32 32] := by
      simp [encodeFields, hlen]
    rw [he]
    exact fieldsOf_baseWord (by simp [hno, hw]) (by simp [hno, hi]) (by simp [hlen, hlit])
  · have hyes : f.hasExt = true ∧ f.hasLit = false := by simp [Ext.hasExt, Ext.hasLit, hlen]
    have he : encodeFields op fn f = [baseWord op fn f, extWord f, f.imm] := by simp [encodeFields, hlen]
    rw [he]
    exact fieldsOf_baseWord (by simp [hyes]) (by simp [hyes]) (by simp [hlen, hl hyes.2])
  · have hyes : f.hasExt = true := by simp [Ext.hasExt, hlen]
    have he : encodeFields op fn f =
        [baseWord op fn f, extWord f, f.imm, f.lit.extractLsb' 0 32, f.lit.extractLsb' 32 32] := by
      simp [encodeFields, hlen]
    rw [he]
    exact fieldsOf_baseWord (by simp [hyes]) (by simp [hyes]) (by simp [hlen, hlit])

/-! ## Forms and heads (02 R68 to R72) -/

/-- A reserved major opcode has no form (02 R68 to R70). -/
theorem formsOf_reservedOp (op : BitVec 6) (h : reservedOp op.toNat = true) : formsOf op.toNat = [] := by
  revert op; decide +kernel

/-- Checks 1 to 3 find the form of an instruction at its base word. -/
theorem decodeHead_baseWord {op : BitVec 6} {fn : BitVec 4} {f : Ext} {r : Form} (h : formFor op fn f.len = some r) :
    decodeHead (baseWord op fn f) = .ok r := by
  unfold formFor at h
  have hop : reservedOp op.toNat = false := by
    cases hr : reservedOp op.toNat with
    | false => rfl
    | true => rw [formsOf_reservedOp op hr] at h; cases h
  have hfind : ((formsOf op.toNat).filter (fun r => r.fn == fn)).find? (fun r => r.lens.contains f.len) = some r := by
    rw [List.find?_filter, ← h]
    simp only [Bool.decide_and, Bool.decide_eq_true]
  simp only [decodeHead, baseWord_op, baseWord_fn, baseWord_len, hop, Bool.false_eq_true, if_false]
  split
  · next hnil => rw [hnil] at hfind; cases hfind
  · rw [hfind]

/-! ## Making instructions -/

/-- A row of one word is what the opcode map makes of its fields. -/
theorem makeInstr_short {i : Instr} {op : BitVec 6} {fn : BitVec 4} {f : Ext} (hf : i.fields = some (op, fn, f))
    (hs : i.isLong = false) : makeInstr op.toNat fn f = some i := by
  cases i <;> cases hf <;> cases hs <;> rfl

/-- For a LEN other than 00 the opcode map gives the row of more than one word. -/
theorem makeInstr_long {i : Instr} {op : BitVec 6} {fn : BitVec 4} {f : Ext} (hf : i.fields = some (op, fn, f))
    (hs : i.isLong = true) (hl : f.len ≠ 0#2) : makeInstr op.toNat fn f = some i := by
  obtain ⟨⟨⟨_ | k, hk⟩⟩, tb, ta, b, a, d, sub, ord, scope, pneg, pred, fmt, rm, tc, c, imm, lit⟩ := f
  · exact absurd rfl hl
  · cases i <;> cases hf <;> cases hs <;> rfl

/-! ## Decoding what was encoded -/

/-- What a well-formed instruction with fields passes: it has a form, whose checks hold, and its uncalled words are zero. -/
theorem instr_wf_iff {lupin : Bool} {i : Instr} {op : BitVec 6} {fn : BitVec 4} {f : Ext} (hf : i.fields = some (op, fn, f)) :
    i.wf lupin = true ↔ (i.isLong = true → f.len ≠ 0#2) ∧
      ∃ r, formFor op fn f.len = some r ∧ f.normal = true ∧ r.firstFailure lupin f = none := by
  unfold Instr.wf Instr.failure
  rw [hf]
  dsimp only
  by_cases hl : i.isLong = true ∧ f.len = 0#2
  · simp [hl.1, hl.2]
  · have hl' : (i.isLong && f.len == 0#2) = false := by simpa using hl
    simp only [hl', Bool.false_eq_true, if_false]
    cases hr : formFor op fn f.len with
    | none => simp
    | some r =>
      have hlong : i.isLong = true → f.len ≠ 0#2 := fun h e => hl ⟨h, e⟩
      cases hn : f.normal with
      | false => simp
      | true => simpa using fun _ => hlong

/-- An instruction begins with its base word, and has as many words as LEN says (02 R51). -/
theorem encodeFields_head (op : BitVec 6) (fn : BitVec 4) (f : Ext) : (encodeFields op fn f).getD 0 0#32 = baseWord op fn f := by
  unfold encodeFields; split <;> rfl

theorem encodeFields_length (op : BitVec 6) (fn : BitVec 4) (f : Ext) : (encodeFields op fn f).length = lenWords f.len := by
  unfold encodeFields lenWords; split <;> simp [*]

/-- The decoder reads a well-formed instruction back from its words (02 R72). -/
theorem decodes_encode {lupin : Bool} {i : Instr} {op : BitVec 6} {fn : BitVec 4} {f : Ext} (hf : i.fields = some (op, fn, f))
    (hw : i.wf lupin = true) : Decodes lupin (encodeFields op fn f) (.ok i) := by
  obtain ⟨hlong, r, hr, hnormal, hfail⟩ := (instr_wf_iff hf).1 hw
  have hmake : makeInstr op.toNat fn f = some i := by
    cases hs : i.isLong with
    | false => exact makeInstr_short hf hs
    | true => exact makeInstr_long hf hs (hlong hs)
  have hfields := fieldsOf_encodeFields op fn hnormal
  rw [encodeFields_head] at hfields
  unfold Decodes
  simp only [encodeFields_head, decodeWords, decodeHead_baseWord hr, hfields, hfail, baseWord_op, baseWord_fn, hmake]

/-- Reading an instruction from bytes reads its words, as many as LEN says. -/
theorem decode_wordBytes {lupin : Bool} {ws : List Word} {i : Instr} (rest : List Byte)
    (hlen : ws.length = lenWords ((ws.getD 0 0#32).extractLsb' 0 2)) (hd : Decodes lupin ws (.ok i)) :
    decode lupin (ws.flatMap wordBytes ++ rest) = .ok (i, rest) := by
  unfold Decodes at hd
  cases hh : decodeHead (ws.getD 0 0#32) with
  | error n => rw [decodeWords_head_error hh] at hd; cases hd
  | ok r =>
    obtain hn | hn | hn := lenWords_cases ((ws.getD 0 0#32).extractLsb' 0 2) <;> rw [hn] at hlen
    · match ws, hlen with
      | [w0], _ =>
        simp only [List.getD_cons_zero, List.getD_cons_succ, List.getD_nil] at hn hd hh
        simp [decode, List.flatMap_cons, takeWord_wordBytes, hh, hn, hd]
    · match ws, hlen with
      | [w0, w1, w2], _ =>
        simp only [List.getD_cons_zero, List.getD_cons_succ, List.getD_nil] at hn hd hh
        simp [decode, List.flatMap_cons, takeWord_wordBytes, hh, hn, hd]
    · match ws, hlen with
      | [w0, w1, w2, w3, w4], _ =>
        simp only [List.getD_cons_zero, List.getD_cons_succ] at hn hd hh
        simp [decode, List.flatMap_cons, takeWord_wordBytes, hh, hn, hd]

/-- Settles O58: the words of an instruction hold its fields, its LEN says how many they are, and the opcode map that the encoder
reads makes the same row of them. -/
theorem decodeInvertsEncode : Obligations.DecodeInvertsEncode := by
  unfold Obligations.DecodeInvertsEncode
  intro lupin i rest hf hw
  obtain ⟨⟨op, fn, f⟩, hf⟩ := Option.ne_none_iff_exists'.1 hf
  have hlen : (encodeFields op fn f).length = lenWords (((encodeFields op fn f).getD 0 0#32).extractLsb' 0 2) := by
    rw [encodeFields_length, encodeFields_head, baseWord_len]
  have henc : encode i = encodeFields op fn f := by simp only [encode, hf]
  rw [encodeBytes, henc]
  exact decode_wordBytes rest hlen (decodes_encode hf hw)

/-! ## Words of the spec's programs (15 to 19) -/

/-- Words that begin with an instruction's encoding decode to it, on a cluster core. -/
theorem decodeTableWord_of_encode {nbits w : Nat} {i : Instr} (hf : i.fields ≠ none) (hw : i.wf false = true)
    (he : (encode i).isPrefixOf (tableWords nbits w) = true) : decodeTableWord nbits w = some i := by
  obtain ⟨rest, hrest⟩ := List.isPrefixOf_iff_prefix.1 he
  have hd : decode false (encodeBytes i ++ rest.flatMap wordBytes) = .ok (i, rest.flatMap wordBytes) :=
    decodeInvertsEncode false i _ hf hw
  rw [encodeBytes, ← List.flatMap_append, hrest] at hd
  rw [decodeTableWord, hd]

/-- Settles O57: each word is the encoding of its instruction, which is well-formed. -/
theorem assembledWordsDecode : Obligations.AssembledWordsDecode := by
  unfold Obligations.AssembledWordsDecode
  refine ⟨?_, ?_, ?_, ?_, ?_, ?_, ?_, ?_⟩
  all_goals exact decodeTableWord_of_encode nofun (by decide) (by decide)

end Sys2Proof.Machine
end

section
/-! Stream slots (02 R65 to R67, 05 R146, R147). -/

namespace Sys2Proof.Machine

/-! ## Accesses of the issuing thread (05 R141) -/

/-- The issuing thread's agent sees as the thread does (08 R255). -/
theorem curAgent_eye {s : State} {a : Agent} (h : curAgent s = .ok (a, s)) : a.eye = eyeOf s.cur := by
  obtain ⟨hdie, hissuer, -, hpos, -, -⟩ := curAgent_ok h
  simp only [Agent.eye, eyeOf, hdie, hissuer, hpos]

/-- The thread's own accesses go to the address given. -/
theorem curAgent_carried {s : State} {a : Agent} (h : curAgent s = .ok (a, s)) (c : QWord) (addr : Nat) :
    a.carried c addr = addr := by
  rw [curAgent_spec] at h
  split at h
  · split at h
    · cases h
    · cases h; rfl
  · cases h

/-- A load whose checks pass reads the bytes that the thread sees. -/
theorem loadBytes_reaches {s t : State} {c : TCap} {addr size k : Nat} {leaf : Option Nat} {perms : List Nat}
    (hd : DerefPasses c addr size perms) (ha : addr % size = 0)
    (hr : Reaches s addr size .read false false (.bytes k leaf) t) (hv : keyIsView k = false)
    (hp : (t.mem.readied (eyeOf s.cur) k size).firstPoison k size = none) :
    loadBytes c addr size perms s =
      .ok (((t.mem.readied (eyeOf s.cur) k size).seenBytes (eyeOf s.cur) k size,
        (t.mem.readied (eyeOf s.cur) k size).seenTag (eyeOf s.cur) (k / 16)),
        { t with mem := t.mem.readied (eyeOf s.cur) k size }) := by
  obtain ⟨a, hcur, hreach⟩ := hr
  rw [← curAgent_eye hcur] at hp ⊢
  simp only [loadBytes, loadAs, act_bind, hcur, derefAligned_passes hd ha, curAgent_carried hcur, hreach,
    readPlace_bytes hv hp]

/-- A store whose checks pass writes its bytes. -/
theorem storeBytes_reaches {s t : State} {c : TCap} {addr k : Nat} {bs : List Byte} {leaf : Option Nat} {perms : List Nat}
    {tag : Bool} (hd : DerefPasses c addr bs.length perms) (ha : addr % bs.length = 0)
    (hr : Reaches s addr bs.length .write true (capHas c.val permFMTW) (.bytes k leaf) t) :
    storeBytes c addr bs perms tag none s =
      .ok (⟨⟩, { t with mem := t.mem.write (eyeOf s.cur) t.late t.nextId none k bs tag, nextId := t.nextId + 1 }) := by
  obtain ⟨a, hcur, hreach⟩ := hr
  rw [← curAgent_eye hcur]
  simp only [storeBytes, act_bind, derefAligned_passes hd ha, hcur, hreach, writePlace_bytes]

/-- What a write of bytes without a tag does to the cells. -/
theorem writesCells_of_writesBytes {e : Eye} {k : Nat} {bs : List Byte} {m m' : Memory} (h : WritesBytes e k bs false m m') :
    WritesCells k bs m m' := by
  obtain ⟨hin, hout, htags, hcleared, hfull⟩ := h
  refine ⟨fun j hj => (hin j hj).1, fun a ha => (hout a ha).1, fun g => ?_, hfull⟩
  by_cases hg : g < k / 16 ∨ (k + bs.length - 1) / 16 < g
  · simp [htags g hg, hg]
  · simp [hcleared g (by omega) (by omega), hg]

theorem natBytes_length (n x : Nat) : (natBytes n x).length = n := by
  induction n generalizing x with
  | zero => rfl
  | succ n ih => simp [natBytes, ih]

theorem bytesNat_lt (bs : List Byte) : bytesNat bs < 2 ^ (8 * bs.length) := by
  induction bs with
  | nil => simp [bytesNat]
  | cons b rest ih =>
    have hb := b.isLt
    rw [bytesNat, List.length_cons, Nat.mul_succ, Nat.pow_add]
    omega

/-- Loaded bytes that are not sign-extended are the number they hold. -/
theorem loadedValue_unsigned (bs : List Byte) : loadedValue false bs = w64 (bytesNat bs) := by
  apply BitVec.eq_of_toNat_eq
  simp [loadedValue, w64, Nat.mod_eq_of_lt (bytesNat_lt bs)]

/-! ## Registers and slots at the start of an instruction -/

@[simp] theorem regCap_begun (s : State) (n : BitVec 6) : regCap (begun s) n = regCap s n := by
  simp [regCap, regOf, gRead, gAt]

@[simp] theorem vAt_begun (s : State) (n : Nat) : vAt (begun s).cur n = vAt s.cur n := by simp [vAt]

@[simp] theorem slotAt_begun (s : State) (n : Nat) : slotAt (begun s).cur n = slotAt s.cur n := by simp [slotAt]

/-- A check that holds lets the instruction go on. -/
theorem trapIf_passes {b : Bool} {c : Nat} {info : DWord} {s : State} (h : b = false) : trapIf b c info s = .ok (⟨⟩, s) := by
  simp [h]

theorem writable_congr {s t : State} (h : t.cur.g = s.cur.g) (n : BitVec 6) : Writable t n ↔ Writable s n := by
  simp [Writable, gAt, h]

/-! ## Slots (02 R65 to R67, 05 R146, R147) -/

/-- A slot that may be read did not come back poisoned itself (13 R362). -/
theorem slotReadable_own {s : State} {n : Nat} (h : SlotReadable s n) : Sound [badSlot n] s := by
  unfold SlotReadable Sound holdsBad at *
  rw [slotChain, List.map_cons, List.any_cons, Bool.or_eq_false_iff] at h
  simp only [List.any_cons, List.any_nil, h.1, Bool.or_false]

/-- The common checks of SLD and SST pass for a slot that serves. -/
theorem slotFor_serves {s : State} {n : Nat} {write : Bool} {p : Nat → Prop} {accepts : Nat → Bool}
    (h : SlotServes s n write p) (hp : ∀ e, p e → accepts e = true) (f : Ext) (op : BitVec 6) (fn : BitVec 4) :
    slotFor f op fn n write accepts (begun s) = .ok (slotAt s.cur n, begun s) := by
  obtain ⟨hread, hactive, hbound, hpipe, hwrite, hsize⟩ := h
  have hgood := readGood_sound ((sound_begun _ s).2 (slotReadable_own hread))
  simp only [slotFor, act_bind, act_get, hgood, slotAt_begun, check9If, act_trapIf, slotBound, hbound, hpipe, hactive, hwrite,
    hp _ hsize]
  simp

/-! ## Elements (02 R66) -/

theorem slotChain_direct {t : Thread} {n : Nat} (h : (slotAt t n).record.ind = false) : slotChain t 8 n = [n] := by
  unfold slotAt at h
  simp [slotChain, h]

/-- The next element of a direct stream is the one at its counters; the stream moves on. -/
theorem nextElement_direct {s : State} {n : Nat} {c : Ctx} (hc : findCtx s s.cur.fid.ctx = some c)
    (hw : accessWaits s.cur = false) (hr : SlotReadable s n) (hd : (slotAt s.cur n).record.ind = false) :
    nextElement n s = .ok ((slotAt s.cur n).address, { s with cur := setSlot n ((slotAt s.cur n).advance false) s.cur }) := by
  have hchain := slotChain_direct hd
  have hgood : readGood [badSlot n] s = .ok (⟨⟩, s) := readGood_sound (slotReadable_own hr)
  simp only [nextElement, act_bind, act_get, hchain, hgood, curAgent_spec, hc, hw, Bool.false_eq_true, if_false,
    List.map_cons, List.map_nil, streamNext, hd, Bool.false_and, act_pure, act_modCur, putChain]

/-- Dimension 0 varies fastest. -/
theorem advance_within {x : Slot} (more : Bool) (h : x.i0 + 1 < x.record.count0.toNat) :
    x.advance more = { x with visited := x.visited + 1, i0 := x.i0 + 1 } := by
  simp only [Slot.advance, h, if_true]

theorem advance_carry {x : Slot} (more : Bool) (h0 : x.i0 + 1 = x.record.count0.toNat) (h1 : x.i1 + 1 < x.record.count1.toNat) :
    x.advance more = { x with visited := x.visited + 1, i0 := 0, i1 := x.i1 + 1 } := by
  simp only [Slot.advance, h0, h1, Nat.lt_irrefl, if_false, if_true]

/-- After its last element a stream goes on only where an index stream does. -/
theorem advance_last {x : Slot} (more : Bool) (h0 : x.i0 + 1 = x.record.count0.toNat) (h1 : x.i1 + 1 = x.record.count1.toNat)
    (h2 : x.i2 + 1 = x.record.count2.toNat) (h3 : x.i3 + 1 = x.record.count3.toNat) :
    (x.advance more).active = (x.record.ind && more) := by
  simp only [Slot.advance, h0, h1, h2, h3, Nat.lt_irrefl, if_false]

theorem streamElementsFollowTheNest : StreamElementsFollowTheNestPart := by
  intro s n c _ hc hw hr x r hd
  refine ⟨nextElement_direct hc hw hr hd, fun h0 => ?_, fun h0 h1 => ?_, fun h0 h1 h2 h3 => ?_⟩
  · rw [advance_within false h0]; exact ⟨rfl, rfl, rfl⟩
  · rw [advance_carry false h0 h1]; exact ⟨rfl, rfl, rfl⟩
  · rw [advance_last false h0 h1 h2 h3, Bool.and_false]

/-! ## SLD and SST (05 R147) -/

/-- A write of a v register that no producer holds. -/
theorem writeV_writable {s : State} {n : Nat} (x : VWord) (h : (vAt s.cur n).st ≠ .pending) :
    writeV n x s = .ok (⟨⟩, { s with cur := { s.cur with v := s.cur.v.setIfInBounds n ⟨x, .full⟩ } }) := by
  have hp : ((vAt s.cur n).st == RegState.pending) = false := by simpa using h
  simp [writeV, writeVAs, act_bind, hp]

/-- The element size of the v forms on the thread's kind of core (05 R147). -/
theorem vectorEsize_begun {s : State} {e : Nat} (h : e = if s.cur.pos.lupin then 5 else 7) :
    vectorEsize (begun s).cur e = true := by
  simpa [vectorEsize] using h

/-- A full v register is read without a change (01 R23). -/
theorem readV_full {s : State} {n : BitVec 6} (tb : Bool) (hn : n.toNat < 28) (h : (vAt s.cur n.toNat).st = .full) :
    readV n tb s = .ok ((vAt s.cur n.toNat).val, s) := by
  rw [readV_register tb hn]
  simp [readVReg, act_bind, h]

section
variable {i : Instr} {f : Ext}

theorem streamLoadsG_of (hf : i.fields = some (0x14#6, 1#4, f)) (he : ∀ s, exec i s = instr 0x14#6 1#4 f (sldGBody f) s) :
    StreamLoadsG i f := by
  intro s s1 t k leaf addr hruns hserves hwrite x size hnext hg hderef halign hreach hview m hpoison
  have hslot := slotFor_serves (accepts := fun e => decide (e ≤ 3)) hserves (fun e he => decide_eq_true he) f 0x14#6 1#4
  have hload := loadBytes_reaches hderef halign hreach hview hpoison
  have hd : Writable { t with mem := m } f.d := (writable_congr (by rw [reaches_cur hreach, hg]) _).2 hwrite
  rw [loadedValue_unsigned]
  refine exec_completes hf (he s) hruns ?_
  unfold sldGBody
  rw [act_bind_ok hslot, act_bind_ok hnext]
  exact (act_bind_ok hload).trans (writeData_writable _ hd)

theorem streamLoadsV_of (hf : i.fields = some (0x14#6, 2#4, f)) (he : ∀ s, exec i s = instr 0x14#6 2#4 f (sldVBody f) s) :
    StreamLoadsV i f := by
  intro s s1 t k leaf addr hruns hserves x size hnext hv hd hderef halign hreach hview m hpoison
  have hslot := slotFor_serves (accepts := vectorEsize (begun s).cur) hserves (fun e => vectorEsize_begun) f 0x14#6 2#4
  have hload := loadBytes_reaches hderef halign hreach hview hpoison
  have hd' : (vAt t.cur f.d.toNat).st ≠ .pending := by rwa [vAt, reaches_cur hreach, hv]
  refine exec_completes hf (he s) hruns ?_
  unfold sldVBody
  rw [act_bind_ok (act_get _), act_bind_ok hslot, act_bind_ok hnext]
  exact (act_bind_ok hload).trans (writeV_writable (s := { t with mem := m }) _ hd')

/-- The store of an element completes, and changes no byte but its own. -/
theorem storeElement_completes {s s1 t : State} {c : TCap} {addr size x k : Nat} {leaf : Option Nat} {op : BitVec 6}
    {fn : BitVec 4} {body : Act Unit} (hf : i.fields = some (op, fn, f)) (he : exec i s = instr op fn f body s) (hruns : Runs i s)
    (hpos : 0 < size) (hderef : DerefPasses c addr size [permST]) (halign : addr % size = 0)
    (hreach : Reaches s1 addr size .write true (capHas c.val permFMTW) (.bytes k leaf) t) (hview : keyIsView k = false)
    (hb : body (begun s) = storeBytes c addr (natBytes size x) [permST] false none s1) :
    ∃ m, exec i s = .next (past f { t with mem := m, nextId := t.nextId + 1 }) ∧
      (t.mem.wf = true → NoViews k t.mem → WritesCells k (natBytes size x) t.mem m) := by
  have hlen := natBytes_length size x
  rw [← hlen] at hderef halign hreach hpos
  exact ⟨_, exec_completes hf he hruns (hb.trans (storeBytes_reaches hderef halign hreach)),
    fun hw hs => writesCells_of_writesBytes (write_bytes hview hpos hw hs)⟩

theorem streamStoresG_of (hf : i.fields = some (0x14#6, 3#4, f)) (he : ∀ s, exec i s = instr 0x14#6 3#4 f (sstGBody f) s) :
    StreamStoresG i f := by
  intro s s1 t k leaf addr hruns hserves hread x size hnext hderef halign hreach hview
  have hslot := slotFor_serves (accepts := fun e => decide (e ≤ 3)) hserves (fun e he => decide_eq_true he) f 0x14#6 3#4
  refine storeElement_completes hf (he s) hruns (Nat.two_pow_pos _) hderef halign hreach hview ?_
  unfold sstGBody
  rw [act_bind_ok hslot, act_bind_ok (readData_readable ((readable_begun _ _ _).2 hread)), act_bind_ok hnext, regData_begun]
  rfl

theorem streamStoresV_of (hf : i.fields = some (0x14#6, 4#4, f)) (he : ∀ s, exec i s = instr 0x14#6 4#4 f (sstVBody f) s) :
    StreamStoresV i f := by
  intro s s1 t k leaf addr hruns hserves hlow hfull x size hnext hderef halign hreach hview
  have hslot := slotFor_serves (accepts := vectorEsize (begun s).cur) hserves (fun e => vectorEsize_begun) f 0x14#6 4#4
  have hread : readV f.d f.tb (begun s) = .ok ((vAt s.cur f.d.toNat).val, begun s) := by
    rw [← vAt_begun] at hfull ⊢
    exact readV_full f.tb hlow hfull
  refine storeElement_completes hf (he s) hruns (Nat.two_pow_pos _) hderef halign hreach hview ?_
  unfold sstVBody
  rw [act_bind_ok (act_get _), act_bind_ok hslot, act_bind_ok hread, act_bind_ok hnext]
  rfl

end

/-! ## SLOAD (05 R146) -/

/-- SLOAD's read of word i of the record at an address. -/
def readRecordWord (addr i : Nat) : Act DWord := do
  let g ← curAgent
  let p ← reach g (addr + 8 * i) 8 .read false false
  let r ← readPlace g p (addr + 8 * i) 8
  return w64 (bytesNat r.1)

/-- Words that are read one after another are what the thread reads there. -/
theorem readRecordWords {addr : Nat} {ws : List DWord} {s t : State} (n : Nat) (h : ReadsWords (addr + 8 * n) ws s t) :
    (List.range' n ws.length).mapM (readRecordWord addr) s = .ok (ws, t) := by
  induction ws generalizing n s with
  | nil => cases h; rfl
  | cons w rest ih =>
    obtain ⟨u, k, leaf, ⟨a, hcur, hreach⟩, hview, hpoison, hw, hrest⟩ := h
    rw [← curAgent_eye hcur] at hpoison hw hrest
    have hword : readRecordWord addr n s = .ok (w, { u with mem := u.mem.readied a.eye k 8 }) := by
      simp only [readRecordWord, act_bind, hcur, hreach, readPlace_bytes hview hpoison, act_pure, hw, w64]
    rw [List.length_cons, List.range'_succ, List.mapM_cons, act_bind_ok hword, act_bind_ok (ih (n + 1) hrest)]
    rfl

section
variable {i : Instr} {f : Ext}

theorem loadsSlot_of (hf : i.fields = some (0x14#6, 0#4, f)) (he : ∀ s, exec i s = instr 0x14#6 0#4 f (sloadBody f) s) :
    LoadsSlot i f := by
  intro s t ws hruns ha hb addr old hserves hpipe hold hderef halign htag htype hlen hwords hclean hisize hind slot
  have hwords' := readRecordWords (addr := addr) 0 hwords
  rw [hlen, ← List.range_eq_range'] at hwords'
  refine exec_completes hf (he s) hruns ?_
  have ha' : readG f.a f.ta (begun s) = .ok (regCap s f.a, begun s) := by simpa using readG_readable ((readable_begun s _ _).2 ha)
  have hb' : readG f.b f.tb (begun s) = .ok (regCap s f.b, begun s) := by simpa using readG_readable ((readable_begun s _ _).2 hb)
  have hold' : slotAt (begun s).cur f.d.toNat = old := slotAt_begun s _
  have hfree : slotBound old = false := by simp [slotBound, hserves, hpipe]
  have halign' : (addr % 8 != 0) = false := by simp [halign]
  have hunsealed : capSealed (regCap s f.a).val = false := by simp [capSealed, htype]
  have hfits : (!(recordClean ws) || (recordOf ws).isize == 3#2 ||
      ((recordOf ws).ind && decide ((recordOf ws).islot.toNat = f.d.toNat))) = false := by
    simpa [hclean, hind] using hisize
  unfold sloadBody
  rw [act_bind_ok ha', act_bind_ok hb', act_bind_ok (act_get _)]
  simp only [hold']
  refine (act_bind_ok (trapIf_passes hfree)).trans ((act_bind_ok (deref_passes hderef _)).trans ?_)
  refine (act_bind_ok (trapIf_passes halign')).trans ((act_bind_ok (trapIf_passes (by simp [htag]))).trans ?_)
  refine (act_bind_ok (trapIf_passes hunsealed)).trans ((act_bind_ok hwords').trans ?_)
  refine (act_bind_ok (trapIf_passes hfits)).trans ?_
  simp [check9If, act_bind, hind, hold, slot]

end

theorem streamFormsCompletePart : StreamFormsCompletePart :=
  ⟨fun _ => loadsSlot_of rfl (fun _ => rfl), fun _ => loadsSlot_of rfl (fun _ => rfl),
    fun _ => streamLoadsG_of rfl (fun _ => rfl), fun _ => streamLoadsG_of rfl (fun _ => rfl),
    fun _ => streamLoadsV_of rfl (fun _ => rfl), fun _ => streamLoadsV_of rfl (fun _ => rfl),
    fun _ => streamStoresG_of rfl (fun _ => rfl), fun _ => streamStoresG_of rfl (fun _ => rfl),
    fun _ => streamStoresV_of rfl (fun _ => rfl), fun _ => streamStoresV_of rfl (fun _ => rfl)⟩

/-- Settles O17: a slot's address is the formula of its nest, and each form is its checks, the element and one access. -/
theorem streamFormsComplete : Obligations.StreamFormsComplete :=
  ⟨streamElementsFollowTheNest, streamFormsCompletePart⟩

end Sys2Proof.Machine
end

section
/-!
Rounding onto a format's grid (03 R88, R95): the values of the magnitude codes, and the cell of the grid in which a magnitude lies.
-/

namespace Sys2Proof.Machine

/-! ## The values of the magnitude codes -/

/-- A code of `n` last places at the scale 2^d above the smallest, also where `n` runs over into the next binade. -/
theorem gridValue_places {p : Fp} {d n : Nat} (hlow : d = 0 ∨ 2 ^ p.frac ≤ n) (hhigh : n ≤ 2 ^ (p.frac + 1)) :
    gridValue p (d * 2 ^ p.frac + n) = n * 2 ^ d := by
  have hF : 0 < 2 ^ p.frac := by positivity
  rw [pow_succ] at hhigh
  unfold gridValue
  generalize 2 ^ p.frac = F at *
  rcases Nat.lt_or_ge n F with hn | hn
  · obtain rfl : d = 0 := by omega
    simp [Nat.div_eq_of_lt hn, Nat.mod_eq_of_lt hn]
  obtain ⟨r, rfl⟩ := Nat.exists_eq_add_of_le hn
  have hsplit : d * F + (F + r) = r + F * (d + 1) := by ring
  rw [hsplit, Nat.add_mul_div_left _ _ hF, Nat.add_mul_mod_self_left]
  rcases Nat.lt_or_ge r F with hr | hr
  · simp [Nat.div_eq_of_lt hr, Nat.mod_eq_of_lt hr]
  · obtain rfl : r = F := by omega
    simp [Nat.div_self hF]
    ring

/-- Every magnitude code is a number of last places at some scale. -/
theorem code_eq_places (p : Fp) (c : Nat) :
    ∃ d n, c = d * 2 ^ p.frac + n ∧ (d = 0 ∨ 2 ^ p.frac ≤ n) ∧ n < 2 ^ (p.frac + 1) := by
  have hF : 0 < 2 ^ p.frac := by positivity
  have hc := Nat.div_add_mod c (2 ^ p.frac)
  have hr := Nat.mod_lt c hF
  rw [pow_succ]
  cases hd : c / 2 ^ p.frac with
  | zero => exact ⟨0, c, by simp, .inl rfl, by rw [hd] at hc; omega⟩
  | succ d =>
    refine ⟨d, 2 ^ p.frac + c % 2 ^ p.frac, ?_, .inr (by omega), by omega⟩
    rw [hd, mul_comm, add_one_mul] at hc
    omega

theorem gridValue_lt_succ (p : Fp) (c : Nat) : gridValue p c < gridValue p (c + 1) := by
  obtain ⟨d, n, rfl, hlow, hhigh⟩ := code_eq_places p c
  rw [add_assoc, gridValue_places hlow hhigh.le, gridValue_places (hlow.imp_right (·.trans n.le_succ)) hhigh]
  exact Nat.mul_lt_mul_of_pos_right n.lt_succ_self (by positivity)

theorem gridValue_strictMono (p : Fp) : StrictMono (gridValue p) := strictMono_nat_of_lt_succ (gridValue_lt_succ p)

/-! ## The cell of a magnitude -/

theorem lt_two_pow_bitLen (m : Nat) : m < 2 ^ bitLen m := by
  unfold bitLen
  split
  · simp [*]
  · exact Nat.lt_log2_self

theorem two_pow_bitLen_le {m : Nat} (hm : m ≠ 0) : 2 ^ (bitLen m - 1) ≤ m := by
  simpa [bitLen, hm] using Nat.log2_self_le hm

theorem bitLen_pos {m : Nat} (hm : m ≠ 0) : 0 < bitLen m := by simp [bitLen, hm]

/-- The magnitude m · 2^e lies `n` last places and `rem` of 2^k parts of one above zero, a last place being 2^(qmin + d). -/
structure Cell (p : Fp) (m : Nat) (e : Int) (n rem k d : Nat) : Prop where
  rem_lt : rem < 2 ^ k
  low : d = 0 ∨ 2 ^ p.frac ≤ n
  high : n < 2 ^ (p.frac + 1)
  mag : ∃ up : Nat, m * 2 ^ up = n * 2 ^ k + rem ∧ e + k = p.qmin + d + up ∧ (k = 0 ∨ up = 0)
  scale : m ≠ 0 → p.qmin + d = max (topExp m e - p.frac) p.qmin

section
variable {p : Fp} {m : Nat} {e : Int} {n rem k d : Nat}

theorem Cell.gridValue_lower (h : Cell p m e n rem k d) : gridValue p (d * 2 ^ p.frac + n) = n * 2 ^ d :=
  gridValue_places h.low h.high.le

theorem Cell.gridValue_upper (h : Cell p m e n rem k d) : gridValue p (d * 2 ^ p.frac + n + 1) = (n + 1) * 2 ^ d := by
  rw [add_assoc]
  exact gridValue_places (h.low.imp_right (·.trans n.le_succ)) h.high

end

/-- A magnitude on the grid stays there in every rounding mode. -/
theorem roundsAway_exact (rm : Rm) (draw : Nat) (neg : Bool) (n k : Nat) : roundsAway rm draw neg n 0 k false = false := by
  cases rm <;> simp [roundsAway]
  intro h
  exact absurd h.symm (by positivity)

/-- Rounding to the grid takes the lower or the upper end of the magnitude's cell, as the mode says. -/
theorem roundMag_cell (p : Fp) (m : Nat) (e : Int) :
    ∃ n rem k d, Cell p m e n rem k d ∧ ∀ rm draw neg,
      let away := roundsAway rm draw neg n rem k false
      let r := p.roundMag rm draw neg m e false
      r.code = d * 2 ^ p.frac + n + (if away then 1 else 0) ∧ r.inexact = (rem != 0) ∧ r.away = away := by
  by_cases hm : m = 0
  · refine ⟨0, 0, (p.qmin - e).toNat, 0, ⟨by positivity, .inl rfl, by positivity,
      ⟨(e - p.qmin).toNat, by simp [hm], by omega, by omega⟩, absurd hm⟩, ?_⟩
    intro rm draw neg
    simp [Fp.roundMag, hm, roundsAway_exact]
  have hlow := two_pow_bitLen_le hm
  have hhigh := lt_two_pow_bitLen m
  have hpos := bitLen_pos hm
  generalize hL : bitLen m = L at *
  generalize hq : max (e + (L : Int) - 1 - (p.frac : Int)) p.qmin = q
  generalize hup : (e - q).toNat = up
  generalize hk : (q - e).toNat = k
  refine ⟨m * 2 ^ up / 2 ^ k, m * 2 ^ up % 2 ^ k, k, (q - p.qmin).toNat, ⟨Nat.mod_lt _ (by positivity), ?_, ?_,
    ⟨up, ?_, by omega, by omega⟩, fun _ => by unfold topExp; omega⟩, ?_⟩
  · rcases Nat.eq_zero_or_pos (q - p.qmin).toNat with hd | hd
    · exact .inl hd
    · right
      rw [Nat.le_div_iff_mul_le (by positivity), ← pow_add, show p.frac + k = L - 1 + up by omega, pow_add]
      exact Nat.mul_le_mul_right _ hlow
  · rw [Nat.div_lt_iff_lt_mul (by positivity), ← pow_add]
    calc m * 2 ^ up < 2 ^ L * 2 ^ up := Nat.mul_lt_mul_of_pos_right hhigh (by positivity)
      _ = 2 ^ (L + up) := (pow_add _ _ _).symm
      _ ≤ 2 ^ (p.frac + 1 + k) := Nat.pow_le_pow_right (by decide) (by omega)
  · rw [mul_comm _ (2 ^ k), Nat.div_add_mod]
  · intro rm draw neg
    simp [Fp.roundMag, hm, hL, hq, hup, hk]

/-! ## Where the modes go -/

theorem roundsAway_inexact {rm : Rm} {draw : Nat} {neg : Bool} {n rem k : Nat} (h : roundsAway rm draw neg n rem k false = true) :
    rem ≠ 0 := by
  rintro rfl
  simp [roundsAway_exact] at h

theorem roundsAway_rup (draw : Nat) (neg : Bool) (n rem k : Nat) :
    roundsAway .rup draw neg n rem k false = true ↔ rem ≠ 0 ∧ neg = false := by
  simp [roundsAway]

theorem roundsAway_rdn (draw : Nat) (neg : Bool) (n rem k : Nat) :
    roundsAway .rdn draw neg n rem k false = true ↔ rem ≠ 0 ∧ neg = true := by
  simp [roundsAway]

theorem pos_of_remainder {rem k : Nat} (hlt : rem < 2 ^ k) (h : rem ≠ 0) : k ≠ 0 := by
  rintro rfl
  omega

theorem roundsAway_rne {draw : Nat} {neg : Bool} {n rem k : Nat} (hlt : rem < 2 ^ k) :
    roundsAway .rne draw neg n rem k false = true ↔ 2 ^ k < 2 * rem ∨ 2 * rem = 2 ^ k ∧ n % 2 = 1 := by
  have hk (h : 2 * rem = 2 ^ k) : k ≠ 0 := pos_of_remainder hlt (by rintro rfl; exact absurd h.symm (by positivity))
  simp only [roundsAway, Bool.or_eq_true, decide_eq_true_eq, Bool.and_eq_true, beq_iff_eq, bne_iff_ne, Bool.false_eq_true, false_or]
  tauto

theorem roundsAway_rna {draw : Nat} {neg : Bool} {n rem k : Nat} (hlt : rem < 2 ^ k) :
    roundsAway .rna draw neg n rem k false = true ↔ rem ≠ 0 ∧ 2 ^ k ≤ 2 * rem := by
  have hk := pos_of_remainder hlt
  simp only [roundsAway, Bool.and_eq_true, decide_eq_true_eq, bne_iff_ne]
  constructor
  · rintro ⟨h, -⟩
    exact ⟨by rintro rfl; exact absurd h (by simp), h⟩
  · exact fun ⟨hr, h⟩ => ⟨h, hk hr⟩

/-! ## The neighbours -/

/-- From the smallest last place up, a magnitude's distance from the lower end of its cell is to the cell as `rem` is to 2^k. -/
theorem Cell.offset {p : Fp} {m : Nat} {e : Int} {n rem k d : Nat} (h : Cell p m e n rem k d) (he : p.qmin ≤ e) :
    ∃ z, m * 2 ^ (e - p.qmin).toNat = n * 2 ^ d + z ∧ z * 2 ^ k = rem * 2 ^ d := by
  obtain ⟨up, hmag, hexp, -⟩ := h.mag
  have hscale : m * 2 ^ (e - p.qmin).toNat * 2 ^ k = (n * 2 ^ d) * 2 ^ k + rem * 2 ^ d := by
    calc m * 2 ^ (e - p.qmin).toNat * 2 ^ k = m * 2 ^ up * 2 ^ d := by
          rw [mul_assoc, mul_assoc, ← pow_add, ← pow_add, show (e - p.qmin).toNat + k = up + d by omega]
      _ = _ := by rw [hmag]; ring
  have hle : n * 2 ^ d ≤ m * 2 ^ (e - p.qmin).toNat := Nat.le_of_mul_le_mul_right (by omega) (show 0 < 2 ^ k by positivity)
  obtain ⟨z, hz⟩ := Nat.exists_eq_add_of_le hle
  refine ⟨z, hz, ?_⟩
  rw [hz, add_mul] at hscale
  omega

/-- How a magnitude's distance from the lower end of its cell compares with half the cell. -/
theorem offset_compare {z rem k d : Nat} (hrem : rem < 2 ^ k) (hz : z * 2 ^ k = rem * 2 ^ d) :
    z < 2 ^ d ∧ (rem = 0 ↔ z = 0) ∧ (2 ^ k ≤ 2 * rem ↔ 2 ^ d ≤ 2 * z) ∧ (2 * rem ≤ 2 ^ k ↔ 2 * z ≤ 2 ^ d) := by
  have hK : 0 < 2 ^ k := by positivity
  have hD : 0 < 2 ^ d := by positivity
  have hdouble : 2 * z * 2 ^ k = 2 * rem * 2 ^ d := by rw [mul_assoc, hz, mul_assoc]
  refine ⟨?_, ?_, ?_, ?_⟩
  · refine Nat.lt_of_mul_lt_mul_right (a := 2 ^ k) ?_
    rw [hz, mul_comm]
    exact Nat.mul_lt_mul_of_pos_left hrem hD
  · constructor <;> (rintro rfl; simpa using hz)
  · rw [← Nat.mul_le_mul_right_iff hD, ← hdouble, mul_comm (2 ^ k), Nat.mul_le_mul_right_iff hK]
  · rw [← Nat.mul_le_mul_right_iff hD, ← hdouble, mul_comm (2 ^ k), Nat.mul_le_mul_right_iff hK]

/-- Settles O8: the magnitude lies in its cell, whose ends are neighbours on the grid, and each mode compares the two distances. -/
theorem roundingChoosesANeighbour : Obligations.RoundingChoosesANeighbour := by
  unfold Obligations.RoundingChoosesANeighbour
  intro p rm draw neg m e hfrac he x r c
  obtain ⟨n, rem, k, d, hcell, hround⟩ := roundMag_cell p m e
  obtain ⟨hcode, hinexact, haway⟩ := hround rm draw neg
  obtain ⟨z, hx, hz⟩ := hcell.offset he
  have hrem := hcell.rem_lt
  obtain ⟨hwithin, hzero, hmore, hless⟩ := offset_compare hrem hz
  have hc : c = d * 2 ^ p.frac + n := by
    change (if r.away then r.code - 1 else r.code) = _
    rw [haway, hcode]
    cases roundsAway rm draw neg n rem k false <;> simp
  have hlower : gridValue p c = n * 2 ^ d := hc ▸ hcell.gridValue_lower
  have hupper : gridValue p (c + 1) = n * 2 ^ d + 2 ^ d := by rw [hc, hcell.gridValue_upper, add_one_mul]
  have hinexact' : r.inexact = true ↔ rem ≠ 0 := by simp [r, hinexact]
  have haway' : r.away = roundsAway rm draw neg n rem k false := haway
  have hparity : r.code % 2 = (n + if roundsAway rm draw neg n rem k false then 1 else 0) % 2 := by
    obtain ⟨w, hw⟩ := dvd_pow_self 2 hfrac.ne'
    rw [hcode, hw, mul_left_comm]
    omega
  rw [hlower, hupper, hinexact', show x = n * 2 ^ d + z from hx, haway']
  refine ⟨by omega, by omega, by omega, roundsAway_inexact, ?_, ?_, ?_, ?_, ?_⟩
  · rintro rfl
    rfl
  · rintro rfl
    exact roundsAway_rup ..
  · rintro rfl
    exact roundsAway_rdn ..
  · rintro rfl
    have hiff := roundsAway_rne (draw := draw) (neg := neg) (n := n) hrem
    rw [hparity]
    generalize roundsAway .rne draw neg n rem k false = away at hiff ⊢
    cases away
    · have hstay : ¬ (2 ^ k < 2 * rem ∨ 2 * rem = 2 ^ k ∧ n % 2 = 1) := fun h => absurd (hiff.2 h) (by decide)
      refine ⟨fun h => absurd h (by decide), fun _ => by omega, fun _ htie => ?_⟩
      simp only [Bool.false_eq_true, if_false]
      omega
    · have hgo := hiff.1 rfl
      refine ⟨fun _ => by omega, fun h => absurd h (by decide), fun _ htie => ?_⟩
      simp only [if_true]
      omega
  · rintro rfl
    rw [roundsAway_rna hrem, hmore]
    omega

end Sys2Proof.Machine
end

section
/-!
The real numbers of the codes of FP64 and FP32 (03 R88, R89), what the directed roundings return, and results that are exact.
-/

namespace Sys2Proof.Machine

/-! ## The grid in real numbers -/

/-- The real number of a magnitude code. -/
noncomputable def gridReal (p : Fp) (c : Nat) : ℝ := gridValue p c * (2 : ℝ) ^ p.qmin

theorem gridReal_strictMono (p : Fp) : StrictMono (gridReal p) := fun _ _ h =>
  mul_lt_mul_of_pos_right (by exact_mod_cast gridValue_strictMono p h) (by positivity)

theorem gridReal_nonneg (p : Fp) (c : Nat) : 0 ≤ gridReal p c := by unfold gridReal; positivity

@[simp] theorem gridReal_zero (p : Fp) : gridReal p 0 = 0 := by simp [gridReal, gridValue]

section
variable {p : Fp} {m : Nat} {e : Int} {n rem k d : Nat}

theorem Cell.gridReal_lower (h : Cell p m e n rem k d) : gridReal p (d * 2 ^ p.frac + n) = n * (2 : ℝ) ^ (p.qmin + d) := by
  rw [gridReal, h.gridValue_lower, zpow_add₀ two_ne_zero, zpow_natCast]
  push_cast
  ring

theorem Cell.gridReal_upper (h : Cell p m e n rem k d) :
    gridReal p (d * 2 ^ p.frac + n + 1) = (n + 1) * (2 : ℝ) ^ (p.qmin + d) := by
  rw [gridReal, h.gridValue_upper, zpow_add₀ two_ne_zero, zpow_natCast]
  push_cast
  ring

/-- The magnitude in real numbers. -/
theorem Cell.real_eq (h : Cell p m e n rem k d) : (m : ℝ) * 2 ^ e = (n + rem / 2 ^ k) * (2 : ℝ) ^ (p.qmin + d) := by
  obtain ⟨up, hmag, hexp, -⟩ := h.mag
  have hmag' : (m : ℝ) * 2 ^ up = n * 2 ^ k + rem := by exact_mod_cast hmag
  have hscale : (2 : ℝ) ^ e * 2 ^ k = 2 ^ (p.qmin + d) * 2 ^ up := by
    rw [← zpow_natCast, ← zpow_natCast, ← zpow_add₀ two_ne_zero, ← zpow_add₀ two_ne_zero, hexp]
  have hK : (2 : ℝ) ^ k ≠ 0 := by positivity
  rw [← mul_left_inj' hK]
  calc (m : ℝ) * 2 ^ e * 2 ^ k = (m : ℝ) * 2 ^ up * 2 ^ (p.qmin + d) := by rw [mul_assoc, hscale]; ring
    _ = _ := by rw [hmag']; field_simp

theorem Cell.lower_le (h : Cell p m e n rem k d) : gridReal p (d * 2 ^ p.frac + n) ≤ m * 2 ^ e := by
  rw [h.gridReal_lower, h.real_eq]
  gcongr
  exact le_add_of_nonneg_right (by positivity)

theorem Cell.lt_upper (h : Cell p m e n rem k d) : m * 2 ^ e < gridReal p (d * 2 ^ p.frac + n + 1) := by
  rw [h.gridReal_upper, h.real_eq]
  gcongr
  rw [div_lt_one (by positivity)]
  exact_mod_cast h.rem_lt

theorem Cell.exact_iff (h : Cell p m e n rem k d) : rem = 0 ↔ gridReal p (d * 2 ^ p.frac + n) = m * 2 ^ e := by
  rw [h.gridReal_lower, h.real_eq, mul_left_inj' (by positivity)]
  simp

end

@[simp] theorem signBit_false (p : Fp) : p.signBit false = 0 := rfl

theorem signBit_false_add (p : Fp) (c : Nat) : p.signBit false + c = c := zero_add c

/-! ## What a rounding returns -/

section
variable (p : Fp) (draw : Nat) (neg : Bool) (m : Nat) (e : Int)

/-- Rounding toward zero takes the largest code not above the magnitude. -/
theorem le_roundMag_rtz_iff (c : Nat) : c ≤ (p.roundMag .rtz draw neg m e false).code ↔ gridReal p c ≤ m * 2 ^ e := by
  obtain ⟨n, rem, k, d, hcell, hround⟩ := roundMag_cell p m e
  obtain ⟨hcode, -, -⟩ := hround .rtz draw neg
  rw [hcode, show roundsAway .rtz draw neg n rem k false = false from rfl, if_neg Bool.false_ne_true, add_zero]
  constructor
  · exact fun h => ((gridReal_strictMono p).monotone h).trans hcell.lower_le
  · exact fun h => Nat.lt_succ_iff.1 ((gridReal_strictMono p).lt_iff_lt.1 (h.trans_lt hcell.lt_upper))

/-- Rounding a positive magnitude up takes the smallest code not below it. -/
theorem roundMag_rup_le_iff (c : Nat) : (p.roundMag .rup draw false m e false).code ≤ c ↔ m * 2 ^ e ≤ gridReal p c := by
  obtain ⟨n, rem, k, d, hcell, hround⟩ := roundMag_cell p m e
  obtain ⟨hcode, -, -⟩ := hround .rup draw false
  have hiff := roundsAway_rup draw false n rem k
  rw [hcode]
  by_cases hrem : rem = 0
  · rw [if_neg (fun h => (hiff.1 h).1 hrem), ← hcell.exact_iff.1 hrem]
    exact ((gridReal_strictMono p).le_iff_le).symm
  · rw [if_pos (by simp [hiff, hrem]), Nat.succ_le_iff]
    constructor
    · exact fun h => hcell.lt_upper.le.trans ((gridReal_strictMono p).monotone h)
    · refine fun h => (gridReal_strictMono p).lt_iff_lt.1 (lt_of_lt_of_le (lt_of_le_of_ne hcell.lower_le ?_) h)
      exact fun heq => hrem (hcell.exact_iff.2 heq)

variable (rm : Rm)

/-- An exact rounding returns the magnitude. -/
theorem gridReal_roundMag (h : (p.roundMag rm draw neg m e false).inexact = false) :
    gridReal p (p.roundMag rm draw neg m e false).code = m * 2 ^ e := by
  obtain ⟨n, rem, k, d, hcell, hround⟩ := roundMag_cell p m e
  obtain ⟨hcode, hinexact, -⟩ := hround rm draw neg
  obtain rfl : rem = 0 := by simpa [hinexact] using h
  rw [hcode, roundsAway_exact, if_neg Bool.false_ne_true, add_zero]
  exact hcell.exact_iff.1 rfl

variable {p m e}

/-- A magnitude on the grid keeps its code. -/
theorem roundMag_gridReal {c : Nat} (h : gridReal p c = m * 2 ^ e) :
    (p.roundMag rm draw neg m e false).code = c ∧ (p.roundMag rm draw neg m e false).inexact = false := by
  obtain ⟨n, rem, k, d, hcell, hround⟩ := roundMag_cell p m e
  obtain ⟨hcode, hinexact, -⟩ := hround rm draw neg
  have hc : c = d * 2 ^ p.frac + n := by
    refine le_antisymm (Nat.lt_succ_iff.1 ((gridReal_strictMono p).lt_iff_lt.1 ?_)) ((gridReal_strictMono p).le_iff_le.1 ?_)
    · exact h ▸ hcell.lt_upper
    · exact h ▸ hcell.lower_le
  obtain rfl : rem = 0 := hcell.exact_iff.2 (hc ▸ h)
  simp [hcode, hinexact, roundsAway_exact, hc]

end

/-! ## FP64 and FP32 -/

/-- What the proofs use of FP64 and FP32 (03 R88, R89). -/
structure Fp.IsWide (p : Fp) : Prop where
  kind : p.kind = .ieee
  bias : 2 ^ p.exp = 2 * (p.bias + 1)
  frac_pos : 0 < p.frac
  frac_le : p.frac ≤ 52
  frac_le_bias : p.frac ≤ p.bias
  logs : p.bias + p.frac < 2 ^ p.frac

theorem isWide_ofFmt {fmt : Nat} (h : fmt ≤ 1) : (Fp.ofFmt fmt).IsWide := by
  obtain rfl | rfl : fmt = 0 ∨ fmt = 1 := by omega
  all_goals exact ⟨rfl, by decide, by decide, by decide, by decide, by decide⟩

section
variable {p : Fp} (hp : p.IsWide)
include hp

theorem maxCode_lt_iff (c : Nat) : p.maxCode < c ↔ p.infCode ≤ c := by
  have hpos : 0 < p.infCode := Nat.mul_pos (by have := hp.bias; omega) (by positivity)
  unfold Fp.infCode at hpos
  simp only [Fp.maxCode, Fp.infCode, hp.kind]
  omega

/-- Infinity has the code of the first value beyond the range. -/
theorem gridReal_infCode : gridReal p p.infCode = (2 : ℝ) ^ ((p.bias : Int) + 1) := by
  have hb := hp.bias
  have hcode : p.infCode = (2 ^ p.exp - 2) * 2 ^ p.frac + 2 ^ p.frac := by
    rw [Fp.infCode, ← add_one_mul]
    congr 1
    omega
  rw [gridReal, hcode, gridValue_places (.inr le_rfl) (Nat.pow_le_pow_right (by decide) p.frac.le_succ), ← pow_add]
  push_cast
  rw [← zpow_natCast, ← zpow_add₀ two_ne_zero]
  congr 1
  unfold Fp.qmin
  omega

theorem lt_infCode_iff (c : Nat) : c < p.infCode ↔ gridReal p c < (2 : ℝ) ^ ((p.bias : Int) + 1) := by
  rw [← gridReal_infCode hp, (gridReal_strictMono p).lt_iff_lt]

omit hp in
/-- The fields of a code with its sign. -/
theorem fields_signBit_add (neg : Bool) {c : Nat} (hc : c < 2 ^ (p.exp + p.frac)) :
    (p.signBit neg + c).testBit (p.exp + p.frac) = neg ∧ (p.signBit neg + c) / 2 ^ p.frac % 2 ^ p.exp = c / 2 ^ p.frac ∧
      (p.signBit neg + c) % 2 ^ p.frac = c % 2 ^ p.frac := by
  have hdiv : c / 2 ^ p.frac < 2 ^ p.exp := by rwa [Nat.div_lt_iff_lt_mul (by positivity), ← pow_add]
  cases neg
  · simp [Fp.signBit, Nat.testBit_lt_two_pow hc, Nat.mod_eq_of_lt hdiv]
  · refine ⟨by simp [Fp.signBit, Nat.testBit_two_pow_add_eq, Nat.testBit_lt_two_pow hc], ?_, ?_⟩ <;>
      simp only [Fp.signBit, if_true, pow_add, mul_comm (2 ^ p.exp)]
    · rw [Nat.mul_add_div (by positivity), Nat.add_mod_left, Nat.mod_eq_of_lt hdiv]
    · exact Nat.mul_add_mod _ _ _

/-- How a code decodes, by its fields. -/
theorem decode_fields (code : Nat) :
    let s := code.testBit (p.exp + p.frac)
    let x := code / 2 ^ p.frac % 2 ^ p.exp
    let f := code % 2 ^ p.frac
    p.decode code = if x = 2 ^ p.exp - 1 then (if f = 0 then .inf s else .nan s f)
      else .fin s (if x = 0 then f else 2 ^ p.frac + f) (p.qmin + (x - 1 : Nat)) := by
  intro s x f
  simp only [Fp.decode, hp.kind]
  by_cases hx : x = 0
  · simp [x, hx, s, f]
  · have hcast : ((x - 1 : Nat) : Int) = x - 1 := by omega
    simp [x, hx, s, f, hcast, add_sub_assoc, add_comm (2 ^ p.frac)]

/-- A finite code of either sign decodes to the value of its magnitude code. -/
theorem decode_code (neg : Bool) {c : Nat} (hc : c < p.infCode) :
    ∃ m e, p.decode (p.signBit neg + c) = .fin neg m e ∧ (m : ℝ) * 2 ^ e = gridReal p c := by
  have hdiv : c / 2 ^ p.frac < 2 ^ p.exp - 1 := by rwa [Nat.div_lt_iff_lt_mul (by positivity)]
  have hc' : c < 2 ^ (p.exp + p.frac) := hc.trans_le (by rw [pow_add]; exact Nat.mul_le_mul_right _ (Nat.sub_le _ _))
  obtain ⟨hs, hx, hf⟩ := fields_signBit_add neg hc'
  rw [decode_fields hp, hs, hx, hf, if_neg hdiv.ne]
  refine ⟨_, _, rfl, ?_⟩
  rw [gridReal, gridValue, zpow_add₀ two_ne_zero, zpow_natCast]
  by_cases hzero : c / 2 ^ p.frac = 0
  · simp [hzero]
  · simp only [hzero, if_false]
    push_cast
    ring

theorem decode_infCode (neg : Bool) : p.decode (p.signBit neg + p.infCode) = .inf neg := by
  have hc : p.infCode < 2 ^ (p.exp + p.frac) := by
    rw [pow_add]
    exact Nat.mul_lt_mul_of_pos_right (Nat.sub_lt (by positivity) one_pos) (by positivity)
  obtain ⟨hs, hx, hf⟩ := fields_signBit_add neg hc
  rw [decode_fields hp, hs, hx, hf, Fp.infCode, Nat.mul_div_cancel _ (by positivity), if_pos rfl, Nat.mul_mod_left, if_pos rfl]

/-- What a code that decodes to a finite value holds. -/
theorem decode_fin {code : Nat} {s : Bool} {m : Nat} {e : Int} (h : p.decode code = .fin s m e) :
    p.qmin ≤ e ∧ m < 2 ^ (p.frac + 1) ∧ ∃ c, c < p.infCode ∧ (m : ℝ) * 2 ^ e = gridReal p c := by
  rw [decode_fields hp] at h
  have hx := Nat.mod_lt (code / 2 ^ p.frac) (show 0 < 2 ^ p.exp by positivity)
  have hf := Nat.mod_lt code (show 0 < 2 ^ p.frac by positivity)
  generalize code / 2 ^ p.frac % 2 ^ p.exp = x at h hx
  generalize code % 2 ^ p.frac = f at h hf
  by_cases hlast : x = 2 ^ p.exp - 1
  · rw [if_pos hlast] at h
    split at h <;> cases h
  rw [if_neg hlast] at h
  injection h with _ hm he
  have hF : 0 < 2 ^ p.frac := by positivity
  have hdiv : (f + 2 ^ p.frac * x) / 2 ^ p.frac = x := by rw [Nat.add_mul_div_left _ _ hF, Nat.div_eq_of_lt hf, zero_add]
  have hmod : (f + 2 ^ p.frac * x) % 2 ^ p.frac = f := by rw [Nat.add_mul_mod_self_left, Nat.mod_eq_of_lt hf]
  refine ⟨by omega, ?_, f + 2 ^ p.frac * x, ?_, ?_⟩
  · rw [pow_succ, ← hm]
    split <;> omega
  · rwa [Fp.infCode, ← Nat.div_lt_iff_lt_mul hF, hdiv, Nat.lt_iff_le_and_ne, and_iff_left hlast,
      Nat.le_sub_one_iff_lt (by positivity)]
  · rw [gridReal, gridValue, hdiv, hmod, ← hm, ← he, zpow_add₀ two_ne_zero, zpow_natCast]
    by_cases hzero : x = 0
    · simp [hzero]
    · simp only [hzero, if_false]
      push_cast
      ring

/-! ## Exact results -/

omit hp in
/-- A magnitude of the format's precision from the smallest last place up is on the grid. -/
theorem exists_gridReal_eq {m : Nat} {e : Int} (hm : m < 2 ^ (p.frac + 1)) (he : p.qmin ≤ e) :
    ∃ c, gridReal p c = m * 2 ^ e := by
  obtain ⟨d, rfl⟩ := Int.le.dest he
  have hgrid : ∃ c, gridValue p c = m * 2 ^ d := by
    clear he
    induction d generalizing m with
    | zero => exact ⟨0 * 2 ^ p.frac + m, gridValue_places (.inl rfl) hm.le⟩
    | succ d ih =>
      rcases Nat.lt_or_ge m (2 ^ p.frac) with hlt | hge
      · obtain ⟨c, hc⟩ := ih (m := 2 * m) (by rw [pow_succ]; omega)
        exact ⟨c, by rw [hc]; ring⟩
      · exact ⟨_, gridValue_places (.inr hge) hm.le⟩
  obtain ⟨c, hc⟩ := hgrid
  refine ⟨c, ?_⟩
  rw [gridReal, hc, zpow_add₀ two_ne_zero, zpow_natCast]
  push_cast
  ring

/-- A code of either sign holds its value. -/
theorem holdsReal_code (neg : Bool) {c : Nat} (hc : c < p.infCode) :
    HoldsReal p (p.signBit neg + c) ((if neg then -1 else 1) * gridReal p c) := by
  obtain ⟨m, e, hdecode, hval⟩ := decode_code hp neg hc
  exact ⟨neg, m, e, hdecode, by rw [realOf, mul_assoc, hval]⟩

/-- An arithmetic rounding of a value that the format has gives it without a flag. -/
theorem givesReal_roundArith (rm : Rm) (draw : Nat) (neg : Bool) {m : Nat} {e : Int} {c : Nat} (h : gridReal p c = m * 2 ^ e)
    (hc : c < p.infCode) : GivesReal p (p.roundArith rm draw neg m e false) (realOf neg m e) := by
  obtain ⟨hcode, hinexact⟩ := roundMag_gridReal draw neg rm h
  have hmax : ¬ p.maxCode < c := by rw [maxCode_lt_iff hp]; omega
  simp only [Fp.roundArith, hcode, hinexact, hmax, if_false]
  refine ⟨?_, rfl⟩
  rw [realOf, mul_assoc, ← h]
  exact holdsReal_code hp neg hc

/-- A power of two within the format's range is given exactly. -/
theorem givesReal_roundArith_pow (rm : Rm) (draw : Nat) (neg : Bool) {m : Nat} {e j : Int} (h : (m : ℝ) * 2 ^ e = 2 ^ j)
    (hlow : p.qmin ≤ j) (hhigh : j ≤ p.bias) : GivesReal p (p.roundArith rm draw neg m e false) (realOf neg m e) := by
  obtain ⟨c, hc⟩ := exists_gridReal_eq (m := 1) (by apply Nat.one_lt_two_pow; omega) hlow
  rw [Nat.cast_one, one_mul, ← h] at hc
  refine givesReal_roundArith hp rm draw neg hc ((lt_infCode_iff hp c).2 ?_)
  rw [hc, h]
  exact zpow_lt_zpow_right₀ one_lt_two (by omega)

end

end Sys2Proof.Machine
end

section
/-!
Results within a bound of a real number (03 R112): what makes one, and that `Fp.within` takes one wherever its two numbers enclose
the value closely enough.
-/

namespace Sys2Proof.Machine

/-! ## The ulp at a value -/

theorem exists_isUlp (p : Fp) {y : ℝ} (hy : y ≠ 0) : ∃ u, IsUlp p y u := by
  obtain ⟨t, hlow, hhigh⟩ := exists_mem_Ico_zpow (abs_pos.2 hy) (one_lt_two (α := ℝ))
  exact ⟨_, t, hlow, hhigh, rfl⟩

/-- No ulp is less than the smallest last place. -/
theorem qmin_le_of_isUlp {p : Fp} {y u : ℝ} (h : IsUlp p y u) : (2 : ℝ) ^ p.qmin ≤ u := by
  obtain ⟨t, -, -, rfl⟩ := h
  exact zpow_le_zpow_right₀ one_le_two (le_max_right _ _)

theorem isUlp_nonneg {p : Fp} {y u : ℝ} (h : IsUlp p y u) : 0 ≤ u := (zpow_nonneg zero_le_two _).trans (qmin_le_of_isUlp h)

theorem two_pow_topExp_le {m : Nat} (hm : m ≠ 0) (e : Int) : (2 : ℝ) ^ topExp m e ≤ m * 2 ^ e := by
  have hm' : (2 : ℝ) ^ (bitLen m - 1) ≤ m := by exact_mod_cast two_pow_bitLen_le hm
  have hpos := bitLen_pos hm
  have hexp : topExp m e = ((bitLen m - 1 : Nat) : Int) + e := by unfold topExp; omega
  rw [hexp, zpow_add₀ two_ne_zero, zpow_natCast]
  gcongr

/-- The last place at a number that encloses a value from below is at most the value's ulp. -/
theorem lastPlace_le_of_isUlp {p : Fp} {y u : ℝ} {m : Nat} {e : Int} (h : IsUlp p y u) (hm : m ≠ 0) (hle : m * 2 ^ e ≤ |y|) :
    (2 : ℝ) ^ max (topExp m e - p.frac) p.qmin ≤ u := by
  obtain ⟨t, -, hhigh, rfl⟩ := h
  have htop : topExp m e < t + 1 := (zpow_lt_zpow_iff_right₀ one_lt_two).1 (((two_pow_topExp_le hm e).trans hle).trans_lt hhigh)
  exact zpow_le_zpow_right₀ one_le_two (by omega)

/-! ## Results within a bound -/

theorem inexactFlags_inexact (tiny : Bool) : inexactFlags tiny &&& Flags.inexact = Flags.inexact := by
  cases tiny <;> decide

section
variable {p : Fp} (hp : p.IsWide) {n : Nat} {y : ℝ} {neg : Bool} (hy : y ≠ 0) (hneg : neg = true ↔ y < 0)
include hp hy hneg

/-- A finite result of y's sign. -/
theorem approximatesReal_code {c : Nat} {fl : Flags} (hfl : fl &&& Flags.inexact = Flags.inexact) (hc : c < p.infCode)
    (h : ∀ u, IsUlp p y u → abs (gridReal p c - |y|) ≤ n * u) : ApproximatesReal p n (p.signBit neg + c, fl) y := by
  obtain ⟨u, hu⟩ := exists_isUlp p hy
  obtain ⟨m, e, hdecode, hval⟩ := decode_code hp neg hc
  refine .inr ⟨hfl, u, hu, ?_⟩
  rw [hdecode]
  dsimp only
  rw [realOf, mul_assoc, hval]
  refine le_trans (le_of_eq ?_) (h u hu)
  cases neg
  · rw [abs_of_nonneg (not_lt.1 fun h => absurd (hneg.2 h) (by decide)), if_neg Bool.false_ne_true, one_mul]
  · rw [abs_of_neg (hneg.1 rfl), if_pos rfl, ← abs_neg]
    ring_nf

/-- An infinity of y's sign. -/
theorem approximatesReal_infinity {fl : Flags} (hfl : fl &&& Flags.inexact = Flags.inexact)
    (h : ∀ u, IsUlp p y u → (2 : ℝ) ^ ((p.bias : Int) + 1) ≤ |y| + n * u) :
    ApproximatesReal p n (p.signBit neg + p.infCode, fl) y := by
  obtain ⟨u, hu⟩ := exists_isUlp p hy
  refine .inr ⟨hfl, u, hu, ?_⟩
  rw [decode_infCode hp]
  exact ⟨hneg, h u hu⟩

/-- An infinity for a value beyond the range. -/
theorem approximatesReal_beyond {fl : Flags} (hfl : fl &&& Flags.inexact = Flags.inexact)
    (h : (2 : ℝ) ^ ((p.bias : Int) + 1) ≤ |y|) : ApproximatesReal p n (p.signBit neg + p.infCode, fl) y :=
  approximatesReal_infinity hp hy hneg hfl fun _ hu =>
    h.trans (le_add_of_nonneg_right (mul_nonneg n.cast_nonneg (isUlp_nonneg hu)))

end

/-- The sign of a positive value. -/
theorem sign_of_pos {y : ℝ} (h : 0 < y) : false = true ↔ y < 0 := by simp [h.le]

theorem clampCode_mem {lo hi : Nat} (h : lo ≤ hi) (x : Nat) : lo ≤ clampCode lo hi x ∧ clampCode lo hi x ≤ hi := by
  unfold clampCode
  split
  · assumption
  · exact ⟨le_rfl, h⟩

/-! ## The codes that `Fp.within` chooses from -/

/-- The last place at the lower of two enclosing numbers. -/
def lastPlace (p : Fp) (lo : Nat) (g : Int) : Int := max (topExp lo g - p.frac) p.qmin

/-- A number in finer units. -/
theorem mul_two_pow_sub (x : Nat) {a b : Int} (h : b ≤ a) : ((x * 2 ^ (a - b).toNat : Nat) : ℝ) * 2 ^ b = x * 2 ^ a := by
  push_cast
  rw [mul_assoc, ← zpow_natCast, ← zpow_add₀ two_ne_zero]
  congr 2
  omega

/-- The codes of the range are those within the bound of both enclosing numbers. -/
theorem ulpRange_iff {p : Fp} (n lo hi : Nat) {g : Int} (c : Nat) :
    ((p.ulpRange n lo hi g).1 ≤ c ↔ hi * (2 : ℝ) ^ g - n * 2 ^ lastPlace p lo g ≤ gridReal p c) ∧
    (c ≤ (p.ulpRange n lo hi g).2 ↔ gridReal p c ≤ lo * (2 : ℝ) ^ g + n * 2 ^ lastPlace p lo g) := by
  unfold Fp.ulpRange lastPlace
  generalize max (topExp lo g - (p.frac : Int)) p.qmin = q
  dsimp only
  have hg : min g q ≤ g := min_le_left _ _
  have hu : min g q ≤ q := min_le_right _ _
  generalize min g q = u at *
  have hb := mul_two_pow_sub hi hg
  have ha := mul_two_pow_sub lo hg
  have hd := mul_two_pow_sub n hu
  generalize hi * 2 ^ (g - u).toNat = b at *
  generalize lo * 2 ^ (g - u).toNat = a at *
  generalize n * 2 ^ (q - u).toNat = d at *
  rw [← ha, ← hb, ← hd, ← sub_mul, ← add_mul]
  constructor
  · split
    · rename_i hle
      have : ((b : ℝ) - d) * 2 ^ u ≤ 0 := mul_nonpos_of_nonpos_of_nonneg (by simpa using hle) (by positivity)
      simpa using this.trans (gridReal_nonneg p c)
    · rw [roundMag_rup_le_iff, Nat.cast_sub (by omega)]
  · rw [le_roundMag_rtz_iff]
    push_cast
    rfl

/-- The end of the cell below the lower number. -/
theorem exists_code_below {p : Fp} {lo : Nat} {g : Int} (hg : g ≤ lastPlace p lo g) :
    ∃ c n : Nat, gridReal p c = n * 2 ^ lastPlace p lo g ∧ gridReal p c ≤ lo * 2 ^ g ∧
      lo + 1 ≤ (n + 1) * 2 ^ (lastPlace p lo g - g).toNat := by
  by_cases hzero : lo = 0
  · exact ⟨0, 0, by simp, by simp [hzero], by simp [hzero, Nat.one_le_two_pow]⟩
  obtain ⟨n, rem, k, d, hcell, -⟩ := roundMag_cell p lo g
  have hscale : p.qmin + d = lastPlace p lo g := hcell.scale hzero
  obtain ⟨up, hmag, hexp, hfine⟩ := hcell.mag
  obtain rfl : up = 0 := by omega
  have hk : (lastPlace p lo g - g).toNat = k := by omega
  refine ⟨_, n, hscale ▸ hcell.gridReal_lower, hcell.lower_le, ?_⟩
  rw [hk, add_one_mul]
  have := hcell.rem_lt
  omega

/-- Some code is within the bound of both enclosing numbers, when they are closer than the bound less one ulp. -/
theorem ulpRange_nonempty {p : Fp} {n lo hi : Nat} {g : Int} {w : Nat} (hn : 1 ≤ n) (hw : g + w ≤ lastPlace p lo g)
    (hgap : hi ≤ lo + (n - 1) * 2 ^ w + 1) :
    (p.ulpRange n lo hi g).1 ≤ (p.ulpRange n lo hi g).2 := by
  have hg : g ≤ lastPlace p lo g := by omega
  obtain ⟨c, j, hc, hle, hnext⟩ := exists_code_below hg
  refine ((ulpRange_iff n lo hi c).1.2 ?_).trans ((ulpRange_iff n lo hi c).2.2 (hle.trans (le_add_of_nonneg_right (by positivity))))
  have hpow : (n - 1) * 2 ^ w ≤ (n - 1) * 2 ^ (lastPlace p lo g - g).toNat :=
    Nat.mul_le_mul_left _ (Nat.pow_le_pow_right (by decide) (by omega))
  have hhi : hi ≤ (j + n) * 2 ^ (lastPlace p lo g - g).toNat := by
    rw [show j + n = j + 1 + (n - 1) by omega, add_mul]
    omega
  rw [hc, sub_le_iff_le_add, ← add_mul]
  calc (hi : ℝ) * 2 ^ g ≤ ((j + n) * 2 ^ (lastPlace p lo g - g).toNat : Nat) * 2 ^ g := by gcongr
    _ = _ := by rw [mul_two_pow_sub _ hg]; push_cast; rfl

/-! ## The form within the bound -/

/-- Two numbers of last place 2^g that enclose a magnitude, and are close enough for a bound of `n` ulp: their distance is
below n − 1 of the units 2^w, which do not exceed the last place of a result. -/
structure Encloses (p : Fp) (n : Nat) (y : ℝ) (lo hi : Nat) (g : Int) : Prop where
  lower : lo * (2 : ℝ) ^ g ≤ |y|
  upper : |y| ≤ hi * (2 : ℝ) ^ g
  close : ∃ w : Nat, (2 ^ (p.frac + w) ≤ lo ∨ g + w ≤ p.qmin) ∧ hi ≤ lo + (n - 1) * 2 ^ w + 1

section
variable {p : Fp} {n : Nat} {y : ℝ} {lo hi : Nat} {g : Int} (h : Encloses p n y lo hi g)
include h

theorem Encloses.ulpRange_nonempty (hn : 1 ≤ n) : (p.ulpRange n lo hi g).1 ≤ (p.ulpRange n lo hi g).2 := by
  obtain ⟨w, hw, hgap⟩ := h.close
  refine Machine.ulpRange_nonempty hn ?_ hgap
  rcases hw with hlo | hsub
  · have hbits : p.frac + w < bitLen lo := (Nat.pow_lt_pow_iff_right (by decide)).1 (hlo.trans_lt (lt_two_pow_bitLen lo))
    exact le_trans (by unfold topExp; omega) (le_max_left _ _)
  · exact hsub.trans (le_max_right _ _)

theorem Encloses.lastPlace_le {u : ℝ} (hu : IsUlp p y u) : (2 : ℝ) ^ lastPlace p lo g ≤ u := by
  by_cases hzero : lo = 0
  · obtain ⟨w, hw, -⟩ := h.close
    have hpos : ¬ 2 ^ (p.frac + w) ≤ lo := by simp [hzero]
    have hq : lastPlace p lo g = p.qmin := max_eq_right (by simp only [topExp, hzero, bitLen, if_true]; omega)
    exact hq ▸ qmin_le_of_isUlp hu
  · exact lastPlace_le_of_isUlp hu hzero h.lower

/-- A result of `Fp.within` is within n ulp of the value that its two numbers enclose (03 R95, R112). -/
theorem within_approximatesReal (hp : p.IsWide) {fn fmt code : Nat} {neg : Bool} (hn : 1 ≤ n) (hy : y ≠ 0)
    (hneg : neg = true ↔ y < 0) : ApproximatesReal p n (p.within fn fmt code n neg lo hi g) y := by
  unfold Fp.within
  by_cases hbeyond : p.maxCode < (p.roundMag .rtz 0 false lo g false).code
  · rw [if_pos hbeyond]
    rw [maxCode_lt_iff hp, le_roundMag_rtz_iff, gridReal_infCode hp] at hbeyond
    exact approximatesReal_beyond hp hy hneg (by decide) (hbeyond.trans h.lower)
  rw [if_neg hbeyond]
  dsimp only
  obtain ⟨hge, hle⟩ := clampCode_mem (min_le_min_right p.infCode (h.ulpRange_nonempty hn)) (Config.transcendental fn fmt code)
  generalize clampCode _ _ _ = c at hge hle ⊢
  have habove : (gridReal p c ≤ lo * (2 : ℝ) ^ g + n * 2 ^ lastPlace p lo g) :=
    (ulpRange_iff n lo hi c).2.1 (hle.trans (min_le_left _ _))
  by_cases hc : c = p.infCode
  · rw [if_pos hc]
    subst hc
    refine approximatesReal_infinity hp hy hneg (by decide) fun u hu => ?_
    rw [← gridReal_infCode hp]
    exact habove.trans (add_le_add h.lower (mul_le_mul_of_nonneg_left (h.lastPlace_le hu) n.cast_nonneg))
  · rw [if_neg hc]
    have hlt : c < p.infCode := lt_of_le_of_ne (hle.trans (min_le_right _ _)) hc
    have hbelow := (ulpRange_iff n lo hi c).1.1 ((min_le_iff.1 hge).resolve_right (by omega))
    refine approximatesReal_code hp hy hneg (inexactFlags_inexact _) hlt fun u hu => ?_
    have hulp : (n : ℝ) * 2 ^ lastPlace p lo g ≤ n * u := mul_le_mul_of_nonneg_left (h.lastPlace_le hu) n.cast_nonneg
    have hlower := h.lower
    have hupper := h.upper
    rw [abs_le]
    constructor <;> linarith

end

end Sys2Proof.Machine
end

section
/-!
The exact points, the special results, VRCP and VRSQ (03 R112, R113).
-/

namespace Sys2Proof.Machine

/-! ## Integer square roots -/

theorem isqrtFrom_sqrt (n k r : Nat) (hlow : r * r ≤ n) (hhigh : n < (r + 2 ^ k) * (r + 2 ^ k)) :
    isqrtFrom n k r = Nat.sqrt n := by
  induction k generalizing r with
  | zero => exact Nat.eq_sqrt.2 ⟨hlow, hhigh⟩
  | succ k ih =>
    unfold isqrtFrom
    split
    · rename_i h
      exact ih _ h (by rwa [add_assoc, ← two_mul, ← pow_succ'])
    · rename_i h
      exact ih _ hlow (not_le.1 h)

/-- The model's square root is the integer square root. -/
theorem isqrt_eq_sqrt (n : Nat) : isqrt n = Nat.sqrt n := by
  refine isqrtFrom_sqrt n _ 0 (Nat.zero_le _) ?_
  rw [zero_add, ← pow_add]
  exact (lt_two_pow_bitLen n).trans_le (Nat.pow_le_pow_right (by decide) (by omega))

/-! ## Powers of two -/

@[simp] theorem bitLen_two_pow (j : Nat) : bitLen (2 ^ j) = j + 1 := by
  simp [bitLen]

/-- A magnitude that is a power of two has a power of two as its integer. -/
theorem eq_two_pow_of_real {m : Nat} {e k : Int} (h : (m : ℝ) * 2 ^ e = 2 ^ k) : ∃ j : Nat, m = 2 ^ j ∧ e + j = k := by
  have hm : (m : ℝ) = 2 ^ (k - e) := by rw [zpow_sub₀ two_ne_zero, ← h]; field_simp
  have hpos : m ≠ 0 := by
    rintro rfl
    have : (2 : ℝ) ^ (k - e) ≠ 0 := by positivity
    simp_all
  have hle : 0 ≤ k - e := by
    rw [← zpow_le_zpow_iff_right₀ (one_lt_two (α := ℝ)), ← hm, zpow_zero]
    exact_mod_cast Nat.one_le_iff_ne_zero.2 hpos
  obtain ⟨j, hj⟩ := Int.eq_ofNat_of_zero_le hle
  refine ⟨j, ?_, by omega⟩
  rw [hj, zpow_natCast] at hm
  exact_mod_cast hm

theorem realOf_false (m : Nat) (e : Int) : realOf false m e = m * 2 ^ e := by simp [realOf]

theorem abs_realOf (s : Bool) (m : Nat) (e : Int) : |realOf s m e| = m * 2 ^ e := by
  have h : (0 : ℝ) ≤ m * 2 ^ e := by positivity
  cases s <;> simp [realOf, neg_mul, abs_of_nonneg h]

theorem realOf_ne_zero (s : Bool) {m : Nat} (hm : m ≠ 0) (e : Int) : realOf s m e ≠ 0 := by
  rw [← abs_pos, abs_realOf]
  positivity

/-- A magnitude that is a power is not zero. -/
theorem ne_zero_of_realOf_eq_zpow {m : Nat} {e k : Int} {b : ℝ} (hb : b ≠ 0) (h : realOf false m e = b ^ k) : m ≠ 0 := by
  rintro rfl
  refine zpow_ne_zero k hb (h.symm.trans ?_)
  simp [realOf]

theorem realOf_neg_iff (s : Bool) {m : Nat} (hm : m ≠ 0) (e : Int) : s = true ↔ realOf s m e < 0 := by
  have h : (0 : ℝ) < m * 2 ^ e := by positivity
  cases s <;> simp [realOf, neg_mul, h, h.le]

/-- A value of a finite code lies within the format's range. -/
theorem magnitude_of_decode {p : Fp} (hp : p.IsWide) {code : Nat} {s : Bool} {m : Nat} {e : Int} (h : p.decode code = .fin s m e)
    (hm : m ≠ 0) : (2 : ℝ) ^ p.qmin ≤ m * 2 ^ e ∧ m * (2 : ℝ) ^ e < 2 ^ ((p.bias : Int) + 1) := by
  obtain ⟨he, -, c, hc, hval⟩ := decode_fin hp h
  constructor
  · calc (2 : ℝ) ^ p.qmin ≤ 2 ^ e := zpow_le_zpow_right₀ one_le_two he
      _ ≤ m * 2 ^ e := le_mul_of_one_le_left (by positivity) (by exact_mod_cast Nat.one_le_iff_ne_zero.2 hm)
  · rw [hval]
    exact (lt_infCode_iff hp c).1 hc

/-! ## Exact results, also beyond the range -/

section
variable {p : Fp} (hp : p.IsWide)
include hp

/-- Rounding to nearest a magnitude that is on the grid gives it, or an infinity beyond the range. -/
theorem roundArith_rne_approximatesReal {n : Nat} {neg : Bool} {m : Nat} {e : Int} {y : ℝ} {c : Nat} (hy : y ≠ 0)
    (hneg : neg = true ↔ y < 0) (h : (m : ℝ) * 2 ^ e = |y|) (hgrid : gridReal p c = m * 2 ^ e) :
    ApproximatesReal p n (p.roundArith .rne 0 neg m e false) y := by
  by_cases hc : c < p.infCode
  · have hval : realOf neg m e = y := by
      cases neg
      · rw [realOf_false, h, abs_of_nonneg (not_lt.1 fun h => absurd (hneg.2 h) (by decide))]
      · rw [realOf, mul_assoc, h, abs_of_neg (hneg.1 rfl)]
        simp
    exact .inl (hval ▸ (givesReal_roundArith hp .rne 0 neg hgrid hc).1)
  · have hmax := (maxCode_lt_iff hp _).2 (not_lt.1 hc)
    simp only [Fp.roundArith, (roundMag_gridReal 0 neg .rne hgrid).1, hmax, if_true]
    rw [lt_infCode_iff hp, not_lt, hgrid, h] at hc
    exact approximatesReal_beyond hp hy hneg (by decide) hc

/-- The code of a power of two. -/
theorem givesReal_two_pow (neg : Bool) {j : Int} (hlow : p.qmin ≤ j) (hhigh : j ≤ p.bias) :
    GivesReal p (p.signBit neg + (p.roundMag .rne 0 false 1 j false).code, Flags.none) ((if neg then -1 else 1) * 2 ^ j) := by
  obtain ⟨c, hc⟩ := exists_gridReal_eq (p := p) (m := 1) (Nat.one_lt_two_pow p.frac.succ_ne_zero) hlow
  rw [(roundMag_gridReal 0 false .rne hc).1]
  rw [Nat.cast_one, one_mul] at hc
  rw [← hc]
  refine ⟨holdsReal_code hp neg ((lt_infCode_iff hp c).2 ?_), rfl⟩
  rw [hc]
  exact zpow_lt_zpow_right₀ one_lt_two (by omega)

end

/-! ## VRCP -/

/-- The quotient that VRCP forms encloses the reciprocal. -/
theorem recip_encloses (p : Fp) (s : Bool) {m : Nat} (hm : m ≠ 0) (e : Int) :
    let k := p.frac + 45 + bitLen m
    Encloses p 1 (1 / realOf s m e) (2 ^ k / m) (2 ^ k / m + 1) (-e - k) := by
  intro k
  have hmpos : (0 : ℝ) < m := by positivity
  have hq : (2 : ℝ) ^ (-e - k : Int) = 1 / 2 ^ e / 2 ^ k := by rw [zpow_sub₀ two_ne_zero, zpow_neg, zpow_natCast, one_div]
  have hlow : ((2 ^ k / m : Nat) : ℝ) * m ≤ 2 ^ k := by exact_mod_cast Nat.div_mul_le_self _ _
  have hhigh : (2 : ℝ) ^ k ≤ ((2 ^ k / m + 1 : Nat) : ℝ) * m := by
    have := (Nat.lt_mul_div_succ (2 ^ k) (Nat.pos_of_ne_zero hm)).le
    rw [mul_comm] at this
    exact_mod_cast this
  refine ⟨?_, ?_, 0, .inl ?_, by omega⟩
  · rw [abs_div, abs_realOf, abs_one, hq]
    generalize ((2 ^ k / m : Nat) : ℝ) = q at *
    field_simp
    linarith
  · rw [abs_div, abs_realOf, abs_one, hq]
    generalize ((2 ^ k / m + 1 : Nat) : ℝ) = q at *
    field_simp
    linarith
  · rw [add_zero, Nat.le_div_iff_mul_le (Nat.pos_of_ne_zero hm)]
    calc 2 ^ p.frac * m ≤ 2 ^ p.frac * 2 ^ bitLen m := Nat.mul_le_mul_left _ (lt_two_pow_bitLen m).le
      _ ≤ 2 ^ k := by rw [← pow_add]; exact Nat.pow_le_pow_right (by decide) (by omega)

/-- Where the division has no remainder, the quotient is the reciprocal. -/
theorem recip_exact {k m : Nat} (hm : m ≠ 0) (e : Int) (h : 2 ^ k % m = 0) :
    ((2 ^ k / m : Nat) : ℝ) * 2 ^ (-e - k : Int) = 1 / (m * 2 ^ e) := by
  have hmul : ((2 ^ k / m : Nat) : ℝ) * m = 2 ^ k := by exact_mod_cast Nat.div_mul_cancel (Nat.dvd_of_mod_eq_zero h)
  have hmpos : (m : ℝ) ≠ 0 := by positivity
  rw [zpow_sub₀ two_ne_zero, zpow_neg, zpow_natCast]
  field_simp
  exact hmul

section
variable {p : Fp} (hp : p.IsWide)
include hp

/-- The bound of VRCP. -/
theorem recip_approximatesReal (fmt code : Nat) (s : Bool) {m : Nat} (hm : m ≠ 0) (e : Int) :
    ApproximatesReal p 1 (p.recip fmt code s m e) (1 / realOf s m e) := by
  have hy : 1 / realOf s m e ≠ 0 := one_div_ne_zero (realOf_ne_zero s hm e)
  have hneg : s = true ↔ 1 / realOf s m e < 0 := by rw [one_div, inv_lt_zero, realOf_neg_iff s hm e]
  unfold Fp.recip
  dsimp only
  split
  · rename_i h
    simp only [Bool.and_eq_true, decide_eq_true_eq, Bool.not_eq_true'] at h
    refine roundArith_rne_approximatesReal hp hy hneg ?_ (gridReal_roundMag p 0 s _ _ .rtz h.2)
    rw [abs_div, abs_one, abs_realOf]
    exact recip_exact hm e h.1
  · exact within_approximatesReal (recip_encloses p s hm e) hp le_rfl hy hneg

/-- The exact points of VRCP. -/
theorem recip_givesReal (fmt code : Nat) (s : Bool) {m : Nat} {e k : Int} (h : realOf false m e = 2 ^ k) (hlow : p.qmin ≤ -k)
    (hhigh : -k ≤ p.bias) : GivesReal p (p.recip fmt code s m e) (1 / realOf s m e) := by
  rw [realOf_false] at h
  obtain ⟨j, rfl, -⟩ := eq_two_pow_of_real h
  have hdvd : 2 ^ (p.frac + 45 + bitLen (2 ^ j)) % 2 ^ j = 0 :=
    Nat.mod_eq_zero_of_dvd (pow_dvd_pow 2 (by rw [bitLen_two_pow]; omega))
  have hval := recip_exact (by positivity) e hdvd
  rw [h, one_div, ← zpow_neg] at hval
  obtain ⟨c, hc⟩ := exists_gridReal_eq (p := p) (m := 1) (Nat.one_lt_two_pow p.frac.succ_ne_zero) hlow
  rw [Nat.cast_one, one_mul, ← hval] at hc
  unfold Fp.recip
  dsimp only
  rw [if_pos (by rw [hdvd, (roundMag_gridReal 0 s .rtz hc).2]; rfl)]
  have hsign : realOf s (2 ^ (p.frac + 45 + bitLen (2 ^ j)) / 2 ^ j) (-e - (p.frac + 45 + bitLen (2 ^ j) : Nat)) =
      1 / realOf s (2 ^ j) e := by
    rw [realOf, mul_assoc, hval, realOf, mul_assoc, h, zpow_neg]
    cases s <;> simp
  exact hsign ▸ givesReal_roundArith_pow hp .rne 0 s hval hlow hhigh

end

/-! ## VRSQ -/

/-- What VRSQ forms: an integer and an even exponent, and the square root of the quotient. -/
theorem recipSqrt_forms (p : Fp) (m : Nat) (e : Int) :
    ∃ (m' : Nat) (h : Int), (m' : ℝ) * (2 ^ h) ^ 2 = m * 2 ^ e ∧ (m ≠ 0 → m' ≠ 0) ∧ ∀ fmt code,
      let k := p.frac + 45 + bitLen m'
      let q := Nat.sqrt (2 ^ (2 * k) / m')
      p.recipSqrt fmt code m e = if q * q * m' = 2 ^ (2 * k) then p.roundArith .rne 0 false q (-h - (k : Int)) false
        else p.within 1 fmt code 1 false q (q + 1) (-h - (k : Int)) := by
  refine ⟨m * 2 ^ (if e % 2 = 0 then 0 else 1), (e - ((if e % 2 = 0 then 0 else 1 : Nat) : Int)) / 2, ?_,
    fun hm => by positivity, fun fmt code => ?_⟩
  · push_cast
    rw [mul_assoc, ← zpow_natCast, ← zpow_natCast, ← zpow_mul, ← zpow_add₀ two_ne_zero]
    congr 2
    split <;> omega
  · unfold Fp.recipSqrt
    simp only [isqrt_eq_sqrt]

/-- The square of a number in the units of VRSQ's root. -/
theorem recipSqrt_scale (m k : Nat) (h : Int) (x : ℝ) :
    (x * 2 ^ (-h - k : Int)) ^ 2 * (m * (2 ^ h) ^ 2) * 2 ^ (2 * k) = x * x * m := by
  rw [zpow_sub₀ two_ne_zero, zpow_neg, zpow_natCast]
  field_simp
  ring

/-- The square root that VRSQ forms encloses the reciprocal square root. -/
theorem recipSqrt_encloses (p : Fp) {m : Nat} (hm : m ≠ 0) (h : Int) {y : ℝ} (hy : y ^ 2 * (m * (2 ^ h) ^ 2) = 1) :
    let k := p.frac + 45 + bitLen m
    Encloses p 1 y (Nat.sqrt (2 ^ (2 * k) / m)) (Nat.sqrt (2 ^ (2 * k) / m) + 1) (-h - k) := by
  intro k
  generalize hq : Nat.sqrt (2 ^ (2 * k) / m) = q
  obtain ⟨hlow, hhigh⟩ := Nat.eq_sqrt.1 hq.symm
  rw [Nat.le_div_iff_mul_le (Nat.pos_of_ne_zero hm)] at hlow
  rw [Nat.div_lt_iff_lt_mul (Nat.pos_of_ne_zero hm)] at hhigh
  have hmpos : (0 : ℝ) < m * (2 ^ h) ^ 2 := by positivity
  have hK : (0 : ℝ) < 2 ^ (2 * k) := by positivity
  refine ⟨?_, ?_, 0, .inl ?_, by omega⟩
  · rw [← pow_le_pow_iff_left₀ (by positivity) (abs_nonneg y) two_ne_zero, sq_abs,
      ← mul_le_mul_iff_of_pos_right hmpos, ← mul_le_mul_iff_of_pos_right hK, recipSqrt_scale, hy, one_mul]
    exact_mod_cast hlow
  · rw [← pow_le_pow_iff_left₀ (abs_nonneg y) (by positivity) two_ne_zero, sq_abs,
      ← mul_le_mul_iff_of_pos_right hmpos, ← mul_le_mul_iff_of_pos_right hK, recipSqrt_scale, hy, one_mul]
    exact_mod_cast hhigh.le
  · rw [add_zero, ← hq, Nat.le_sqrt, Nat.le_div_iff_mul_le (Nat.pos_of_ne_zero hm)]
    calc 2 ^ p.frac * 2 ^ p.frac * m ≤ 2 ^ p.frac * 2 ^ p.frac * 2 ^ bitLen m := Nat.mul_le_mul_left _ (lt_two_pow_bitLen m).le
      _ ≤ 2 ^ (2 * k) := by rw [← pow_add, ← pow_add]; exact Nat.pow_le_pow_right (by decide) (by omega)

/-- Where the square is the quotient, the root is a power of two, and the reciprocal square root. -/
theorem recipSqrt_exact {m q k : Nat} {h : Int} {y : ℝ} (hy : y ^ 2 * (m * (2 ^ h) ^ 2) = 1) (hpos : 0 < y)
    (hq : q * q * m = 2 ^ (2 * k)) : q * (2 : ℝ) ^ (-h - k : Int) = y ∧ ∃ j : Int, y = 2 ^ j := by
  have hq' : (q : ℝ) * q * m = 2 ^ (2 * k) := by exact_mod_cast hq
  have heq : q * (2 : ℝ) ^ (-h - k : Int) = y := by
    have hm : (m : ℝ) * (2 ^ h) ^ 2 ≠ 0 := right_ne_zero_of_mul_eq_one hy
    have hscale := recipSqrt_scale m k h q
    rw [hq', mul_eq_right₀ (by positivity), ← hy, mul_left_inj' hm] at hscale
    exact (pow_left_inj₀ (by positivity) hpos.le two_ne_zero).1 hscale
  obtain ⟨i, -, rfl⟩ := (Nat.dvd_prime_pow Nat.prime_two).1 (show q ∣ 2 ^ (2 * k) from ⟨q * m, by rw [← hq, mul_assoc]⟩)
  refine ⟨heq, i + (-h - k), ?_⟩
  rw [← heq, zpow_add₀ two_ne_zero]
  push_cast
  rfl

section
variable {m : Nat} {e : Int} (hm : m ≠ 0)
include hm

theorem recipSqrt_pos : 0 < 1 / Real.sqrt (realOf false m e) := by
  rw [realOf_false]
  positivity

theorem recipSqrt_sq : (1 / Real.sqrt (realOf false m e)) ^ 2 * (m * 2 ^ e) = 1 := by
  rw [realOf_false, div_pow, Real.sq_sqrt (by positivity)]
  field_simp

variable {p : Fp} (hp : p.IsWide) {code : Nat} {s : Bool} (hcode : p.decode code = .fin s m e)
include hp hcode

/-- A power of two that is the reciprocal square root of a value in range is in range. -/
theorem recipSqrt_range {j : Int} (hj : 1 / Real.sqrt (realOf false m e) = 2 ^ j) : p.qmin ≤ j ∧ j ≤ p.bias := by
  have hsq := recipSqrt_sq (e := e) hm
  rw [hj, ← zpow_natCast, ← zpow_mul] at hsq
  have hval : (m : ℝ) * 2 ^ e = 2 ^ (-(j * (2 : Nat))) := by rw [zpow_neg]; exact eq_inv_of_mul_eq_one_right hsq
  obtain ⟨hlow, hhigh⟩ := magnitude_of_decode hp hcode hm
  rw [hval, zpow_le_zpow_iff_right₀ one_lt_two] at hlow
  rw [hval, zpow_lt_zpow_iff_right₀ one_lt_two] at hhigh
  have hbias := hp.frac_le_bias
  have hfrac := hp.frac_pos
  unfold Fp.qmin at hlow ⊢
  omega

/-- The root of an exact square is given. -/
theorem recipSqrt_square_givesReal {m' q k : Nat} {h : Int} (hm' : (m' : ℝ) * (2 ^ h) ^ 2 = m * 2 ^ e)
    (hq : q * q * m' = 2 ^ (2 * k)) :
    GivesReal p (p.roundArith .rne 0 false q (-h - k) false) (1 / Real.sqrt (realOf false m e)) := by
  have hsq := recipSqrt_sq (e := e) hm
  rw [← hm'] at hsq
  obtain ⟨hval, j, hj⟩ := recipSqrt_exact hsq (recipSqrt_pos hm) hq
  obtain ⟨hlow, hhigh⟩ := recipSqrt_range hm hp hcode hj
  rw [← hval, ← realOf_false]
  exact givesReal_roundArith_pow hp .rne 0 false (hval.trans hj) hlow hhigh

/-- The bound of VRSQ. -/
theorem recipSqrt_approximatesReal (fmt : Nat) :
    ApproximatesReal p 1 (p.recipSqrt fmt code m e) (1 / Real.sqrt (realOf false m e)) := by
  obtain ⟨m', h, hm', hpos, hform⟩ := recipSqrt_forms p m e
  rw [hform]
  split
  · rename_i hq
    exact .inl (recipSqrt_square_givesReal hm hp hcode hm' hq).1
  · have hy := recipSqrt_pos (e := e) hm
    have hsq := recipSqrt_sq (e := e) hm
    rw [← hm'] at hsq
    exact within_approximatesReal (recipSqrt_encloses p (hpos hm) h hsq) hp le_rfl hy.ne' (sign_of_pos hy)

/-- The exact points of VRSQ. -/
theorem recipSqrt_givesReal (fmt : Nat) {k : Int} (hk : realOf false m e = 4 ^ k) :
    GivesReal p (p.recipSqrt fmt code m e) (1 / 2 ^ k) := by
  obtain ⟨m', h, hm', -, hform⟩ := recipSqrt_forms p m e
  have hfour : (4 : ℝ) ^ k = (2 ^ k) ^ 2 := by rw [← zpow_natCast, zpow_comm]; norm_num
  have hy : 1 / Real.sqrt (realOf false m e) = 1 / 2 ^ k := by rw [hk, hfour, Real.sqrt_sq (by positivity)]
  rw [realOf_false] at hk
  have hpow : (m' : ℝ) * 2 ^ (2 * h) = 2 ^ (2 * k) := by
    rw [mul_comm 2 h, mul_comm 2 k, zpow_mul, zpow_mul]
    exact_mod_cast hm'.trans (hk.trans hfour)
  obtain ⟨j, rfl, hj⟩ := eq_two_pow_of_real hpow
  obtain ⟨i, rfl⟩ : ∃ i, j = 2 * i := ⟨j / 2, by omega⟩
  rw [hform, ← hy]
  have hle : i ≤ p.frac + 45 + bitLen (2 ^ (2 * i)) := by rw [bitLen_two_pow]; omega
  generalize p.frac + 45 + bitLen (2 ^ (2 * i)) = l at hle ⊢
  have hroot : Nat.sqrt (2 ^ (2 * l) / 2 ^ (2 * i)) = 2 ^ (l - i) := by
    rw [Nat.pow_div (by omega) (by decide), ← Nat.mul_sub, mul_comm, pow_mul, Nat.sqrt_eq']
  have hq : 2 ^ (l - i) * 2 ^ (l - i) * 2 ^ (2 * i) = 2 ^ (2 * l) := by
    rw [← pow_add, ← pow_add]
    congr 1
    omega
  rw [hroot, if_pos hq]
  exact recipSqrt_square_givesReal hm hp hcode hm' hq

end

end Sys2Proof.Machine
end

section
/-!
The exact points of VEXP2 and VLOG2, and the six forms on one code (03 R112, R113).
-/

namespace Sys2Proof.Machine

/-! ## VEXP2 -/

/-- What VEXP2 forms: the integer part, 128 bits of fraction, and whether the value has no more. -/
theorem exp2_forms (p : Fp) (s : Bool) (m : Nat) (e : Int) :
    ∃ (fl : Int) (r : Nat) (exact : Bool), r < 2 ^ 128 ∧
      fl + r / 2 ^ 128 ≤ realOf s m e ∧ realOf s m e < fl + (r + 1) / 2 ^ 128 ∧
      (exact = true ↔ fl + r / 2 ^ 128 = realOf s m e) ∧ ∀ fmt code, p.exp2 fmt code s m e =
        if (p.bias : Int) < fl then (p.infCode, Flags.overflow ||| Flags.inexact)
        else if fl < p.qmin - 1 then (clampCode 0 2 (Config.transcendental 2 fmt code), Flags.inexact ||| Flags.underflow)
        else if r = 0 && exact && !(p.roundMag .rtz 0 false 1 fl false).inexact then p.roundArith .rne 0 false 1 fl false
        else p.within 2 fmt code 2 false (pow2Bounds r).1 (min (pow2Bounds r).2 (2 ^ 161)) (fl - 160) := by
  generalize hk : (-(e + 128)).toNat = k
  generalize hx : (if s then -(m : Int) else (m : Int)) * ((2 ^ (e + 128).toNat : Nat) : Int) = x
  have hreal : (x : ℝ) = realOf s m e * 2 ^ 128 * 2 ^ k := by
    have hpow : (2 : ℝ) ^ (e + 128).toNat = 2 ^ e * 2 ^ 128 * 2 ^ k := by
      rw [← zpow_natCast, ← zpow_natCast, ← zpow_natCast, ← zpow_add₀ two_ne_zero, ← zpow_add₀ two_ne_zero]
      congr 1
      omega
    rw [← hx, realOf]
    push_cast
    rw [hpow]
    cases s <;> simp <;> ring
  have hK : (0 : Int) < ((2 ^ k : Nat) : Int) := by positivity
  have hD : (0 : Int) < ((2 ^ 128 : Nat) : Int) := by positivity
  have hsplit : x = ((2 ^ k : Nat) : Int) * (x / ((2 ^ k : Nat) : Int)) + x % ((2 ^ k : Nat) : Int) := by rw [Int.mul_ediv_add_emod]
  have htail := Int.emod_nonneg x hK.ne'
  have htail' := Int.emod_lt_of_pos x hK
  generalize hy : x / ((2 ^ k : Nat) : Int) = y at hsplit
  have hsplit' : y = ((2 ^ 128 : Nat) : Int) * (y / ((2 ^ 128 : Nat) : Int)) + y % ((2 ^ 128 : Nat) : Int) := by
    rw [Int.mul_ediv_add_emod]
  have hr' := Int.emod_lt_of_pos y hD
  obtain ⟨r, hr⟩ := Int.eq_ofNat_of_zero_le (Int.emod_nonneg y hD.ne')
  rw [hr] at hsplit' hr'
  refine ⟨y / ((2 ^ 128 : Nat) : Int), r, x % ((2 ^ k : Nat) : Int) = 0, by omega, ?_, ?_, ?_, fun fmt code => ?_⟩
  rotate_left 3
  · simp only [Fp.exp2, hk, hx, hy, hr, Int.toNat_natCast]
  all_goals
    generalize y / ((2 ^ 128 : Nat) : Int) = fl at *
    generalize x % ((2 ^ k : Nat) : Int) = t at *
    have hval : realOf s m e = fl + r / 2 ^ 128 + t / (2 ^ 128 * 2 ^ k) := by
      rw [hsplit, hsplit'] at hreal
      push_cast at hreal
      field_simp
      linarith
    have hlow : (0 : ℝ) ≤ t := by exact_mod_cast htail
    have hhigh : (t : ℝ) < 2 ^ k := by exact_mod_cast htail'
    rw [hval]
  · exact le_add_of_nonneg_right (by positivity)
  · rw [add_div, ← add_assoc]
    refine add_lt_add_of_le_of_lt le_rfl ?_
    rw [div_lt_div_iff₀ (by positivity) (by positivity), mul_comm, one_mul]
    gcongr
  · rw [decide_eq_true_eq, left_eq_add, div_eq_zero_iff, or_iff_left (by positivity), Int.cast_eq_zero]

section
variable {p : Fp} (hp : p.IsWide)
include hp

omit hp in
/-- 128 bits of fraction stay below one. -/
theorem fraction_le_one {r : Nat} (hr : r < 2 ^ 128) : ((r : ℝ) + 1) / 2 ^ 128 ≤ 1 := by
  rw [div_le_one (by positivity)]
  exact_mod_cast hr

/-- The exact points of VEXP2. -/
theorem exp2_givesReal (fmt code : Nat) {s : Bool} {m : Nat} {e k : Int} (h : realOf s m e = k) (hlow : p.qmin ≤ k)
    (hhigh : k ≤ p.bias) : GivesReal p (p.exp2 fmt code s m e) (2 ^ k) := by
  obtain ⟨fl, r, exact, hr, hle, hlt, hexact, hform⟩ := exp2_forms p s m e
  rw [h] at hle hlt hexact
  have hr0 : (0 : ℝ) ≤ r / 2 ^ 128 := by positivity
  have hr1 := fraction_le_one hr
  obtain rfl : fl = k := by
    have h1 : fl ≤ k := by exact_mod_cast (show (fl : ℝ) ≤ k by linarith)
    have h2 : k < fl + 1 := by exact_mod_cast (show (k : ℝ) < fl + 1 by linarith)
    omega
  obtain rfl : r = 0 := by
    have : (r : ℝ) / 2 ^ 128 = 0 := by linarith
    simpa using this
  obtain ⟨c, hc⟩ := exists_gridReal_eq (p := p) (m := 1) (Nat.one_lt_two_pow p.frac.succ_ne_zero) hlow
  have hcond : ((0 : Nat) = 0 && exact && !(p.roundMag .rtz 0 false 1 fl false).inexact) = true := by
    rw [hexact.2 (by simp), (roundMag_gridReal 0 false .rtz hc).2]
    rfl
  rw [hform, if_neg (by omega), if_neg (by omega), if_pos hcond]
  have hval : ((1 : Nat) : ℝ) * 2 ^ fl = 2 ^ fl := by rw [Nat.cast_one, one_mul]
  have := givesReal_roundArith_pow hp .rne 0 false hval hlow hhigh
  rwa [realOf_false, hval] at this

end

/-! ## VLOG2 -/

theorem exactLog_two_pow (j : Nat) (e : Int) : exactLog (2 ^ j) e = some (e + j) := by
  have hpos : 2 ^ j ≠ 0 := by positivity
  simp only [exactLog, bitLen_two_pow, topExp]
  rw [if_pos (by simp)]
  congr 1
  omega

theorem exactLog_eq_some {m : Nat} {e t : Int} (h : exactLog m e = some t) : (m : ℝ) * 2 ^ e = 2 ^ t := by
  unfold exactLog at h
  split at h
  · rename_i hm
    simp only [Bool.and_eq_true, decide_eq_true_eq, bne_iff_ne] at hm
    obtain ⟨hm, hne⟩ := hm
    have hpos := bitLen_pos hne
    injection h with ht
    rw [← ht, topExp, hm, show e + (bitLen (2 ^ (bitLen m - 1)) : Int) - 1 = ((bitLen m - 1 : Nat) : Int) + e by
      rw [bitLen_two_pow]; omega, zpow_add₀ two_ne_zero, zpow_natCast]
    push_cast
    rfl
  · cases h

section
variable {p : Fp} (hp : p.IsWide)
include hp

theorem givesReal_zero : GivesReal p (0, Flags.none) 0 := by
  have := holdsReal_code hp false (c := 0) ((lt_infCode_iff hp 0).2 (by rw [gridReal_zero]; positivity))
  exact ⟨by simpa using this, rfl⟩

/-- VLOG2 of a power of two is its exponent. -/
theorem log2_of_exactLog {code : Nat} {s : Bool} {m : Nat} {e t : Int} (hcode : p.decode code = .fin s m e)
    (h : exactLog m e = some t) (fmt : Nat) :
    GivesReal p (p.log2 fmt code m e) t ∧ (t = 0 → p.log2 fmt code m e = (0, Flags.none)) := by
  have hform : p.log2 fmt code m e = p.roundDyadic .rne 0 false ⟨t, 0⟩ := by simp only [Fp.log2, h]
  have hval := exactLog_eq_some h
  have hm : m ≠ 0 := by
    rintro rfl
    have : (2 : ℝ) ^ t ≠ 0 := by positivity
    simp_all
  obtain ⟨hlow, hhigh⟩ := magnitude_of_decode hp hcode hm
  rw [hval, zpow_le_zpow_iff_right₀ one_lt_two] at hlow
  rw [hval, zpow_lt_zpow_iff_right₀ one_lt_two] at hhigh
  have hlogs := hp.logs
  have hfrac := hp.frac_le_bias
  unfold Fp.qmin at hlow
  rw [hform]
  by_cases ht : t = 0
  · subst ht
    have hzero : p.roundDyadic .rne 0 false ⟨0, 0⟩ = (0, Flags.none) := rfl
    rw [hzero]
    exact ⟨by simpa using givesReal_zero hp, fun _ => rfl⟩
  · refine ⟨?_, fun h0 => absurd h0 ht⟩
    have hbound : t.natAbs < 2 ^ p.frac := by omega
    obtain ⟨c, hc⟩ := exists_gridReal_eq (p := p) (m := t.natAbs) (e := 0) (by rw [pow_succ]; omega)
      (by unfold Fp.qmin; have := hp.frac_pos; omega)
    have hsign : realOf (decide (t < 0)) t.natAbs 0 = t := by
      rw [realOf, zpow_zero, mul_one, Nat.cast_natAbs]
      by_cases hneg : t < 0
      · simp [hneg, abs_of_neg hneg]
      · simp [hneg, abs_of_nonneg (not_lt.1 hneg)]
    rw [Fp.roundDyadic, if_neg ht]
    dsimp only
    have hc' : c < p.infCode := by
      rw [lt_infCode_iff hp, hc, zpow_zero, mul_one]
      calc (t.natAbs : ℝ) < 2 ^ p.frac := by exact_mod_cast hbound
        _ ≤ 2 ^ ((p.bias : Int) + 1) := by rw [← zpow_natCast]; exact zpow_le_zpow_right₀ one_le_two (by omega)
    have hgives := givesReal_roundArith hp .rne 0 (decide (t < 0)) hc hc'
    rwa [hsign] at hgives

/-- The exact points of VLOG2. -/
theorem log2_givesReal {code : Nat} {s : Bool} {m : Nat} {e k : Int} (hcode : p.decode code = .fin s m e)
    (h : realOf false m e = 2 ^ k) (fmt : Nat) :
    GivesReal p (p.log2 fmt code m e) k ∧ (k = 0 → p.log2 fmt code m e = (0, Flags.none)) := by
  rw [realOf_false] at h
  obtain ⟨j, rfl, rfl⟩ := eq_two_pow_of_real h
  exact log2_of_exactLog hp hcode (exactLog_two_pow j e) fmt

end

/-! ## The forms on one code -/

/-- A code that is no NaN takes its form's own rule. -/
theorem firstNan_number {p : Fp} {code : Nat} (h : (p.decode code).isNan = false) : p.firstNan [code] = none := by
  simp [Fp.firstNan, h]

section
variable {fmt code : Nat}

/-- The six forms on an infinity (03 R113). -/
theorem transcendental_inf {s : Bool} (h : (Fp.ofFmt fmt).decode code = .inf s) :
    let p := Fp.ofFmt fmt
    transcendental 0 fmt code = (p.signBit s, Flags.none) ∧
    transcendental 1 fmt code = (if s then p.invalid else (0, Flags.none)) ∧
    transcendental 2 fmt code = (if s then 0 else p.infCode, Flags.none) ∧
    transcendental 3 fmt code = (if s then p.invalid else (p.infCode, Flags.none)) ∧
    transcendental 4 fmt code = (if s then 0 else (p.roundMag .rne 0 false 1 0 false).code, Flags.none) ∧
    transcendental 5 fmt code = (p.signBit s + (p.roundMag .rne 0 false 1 0 false).code, Flags.none) := by
  have hnan := firstNan_number (p := Fp.ofFmt fmt) (code := code) (by rw [h]; rfl)
  refine ⟨?_, ?_, ?_, ?_, ?_, ?_⟩
  all_goals
    unfold transcendental
    extract_lets
    rw [hnan, h]
    rfl

/-- The six forms on a zero (03 R113). -/
theorem transcendental_zero {s : Bool} {e : Int} (h : (Fp.ofFmt fmt).decode code = .fin s 0 e) :
    let p := Fp.ofFmt fmt
    transcendental 0 fmt code = (p.signBit s + p.infCode, Flags.divzero) ∧
    transcendental 1 fmt code = (p.signBit s + p.infCode, Flags.divzero) ∧
    transcendental 3 fmt code = (p.signBit true + p.infCode, Flags.divzero) ∧
    transcendental 4 fmt code = ((p.roundMag .rne 0 false 1 (-1) false).code, Flags.none) ∧
    transcendental 5 fmt code = (code, Flags.none) := by
  have hnan := firstNan_number (p := Fp.ofFmt fmt) (code := code) (by rw [h]; rfl)
  refine ⟨?_, ?_, ?_, ?_, ?_⟩
  all_goals
    unfold transcendental
    extract_lets
    rw [hnan, h]
    exact if_pos rfl

theorem transcendental_exp2 {s : Bool} {m : Nat} {e : Int} (h : (Fp.ofFmt fmt).decode code = .fin s m e) :
    transcendental 2 fmt code = (Fp.ofFmt fmt).exp2 fmt code s m e := by
  have hnan := firstNan_number (p := Fp.ofFmt fmt) (code := code) (by rw [h]; rfl)
  unfold transcendental
  extract_lets
  rw [hnan, h]
  rfl

/-- The six forms on a finite value that is not zero. -/
theorem transcendental_fin {s : Bool} {m : Nat} {e : Int} (h : (Fp.ofFmt fmt).decode code = .fin s m e) (hm : m ≠ 0) :
    let p := Fp.ofFmt fmt
    transcendental 0 fmt code = p.recip fmt code s m e ∧
    transcendental 1 fmt code = (if s then p.invalid else p.recipSqrt fmt code m e) ∧
    transcendental 3 fmt code = (if s then p.invalid else p.log2 fmt code m e) ∧
    transcendental 4 fmt code = p.sigm fmt code s m e ∧
    transcendental 5 fmt code = p.tanh fmt code s m e := by
  have hnan := firstNan_number (p := Fp.ofFmt fmt) (code := code) (by rw [h]; rfl)
  refine ⟨?_, ?_, ?_, ?_, ?_⟩
  all_goals
    unfold transcendental
    extract_lets
    rw [hnan, h]
    exact if_neg hm

end

/-! ## Zeros and infinities -/

section
variable {p : Fp} (hp : p.IsWide)
include hp

theorem qmin_le_neg_one : p.qmin ≤ -1 := by
  have := hp.frac_pos
  have := hp.frac_le_bias
  unfold Fp.qmin
  omega

/-- One with a sign. -/
theorem givesReal_one (s : Bool) :
    GivesReal p (p.signBit s + (p.roundMag .rne 0 false 1 0 false).code, Flags.none) (if s then -1 else 1) := by
  have hq := qmin_le_neg_one hp
  have := givesReal_two_pow hp s (j := 0) (by omega) (by omega)
  rwa [zpow_zero, mul_one] at this

theorem givesReal_half : GivesReal p ((p.roundMag .rne 0 false 1 (-1) false).code, Flags.none) (1 / 2) := by
  have := givesReal_two_pow hp false (j := -1) (qmin_le_neg_one hp) (by omega)
  simpa using this

end

/-- Settles O27: the special results by the forms' own rules, the exact points by rounding a value on the grid, and the bound by
the enclosing quotient and root. -/
theorem transcendentalsTakeTheirExactPoints : Obligations.TranscendentalsTakeTheirExactPoints := by
  unfold Obligations.TranscendentalsTakeTheirExactPoints
  intro fmt code hfmt p gives
  have hp : p.IsWide := isWide_ofFmt hfmt
  refine ⟨fun s h => ?_, fun s e h => ?_, fun m e h hm => ?_, fun s m e k h => ⟨fun hk hlow hhigh => ?_, fun hs hk => ?_,
    fun hk hlow hhigh => ?_, fun hs hk => ?_⟩, fun s m e h hm => ⟨?_, fun hs => ?_⟩⟩
  · obtain ⟨h0, h1, h2, h3, h4, h5⟩ := transcendental_inf h
    refine ⟨h0, h1, h2, h3, ?_, h5 ▸ givesReal_one hp s⟩
    rw [h4]
    cases s
    · simpa using givesReal_one hp false
    · exact givesReal_zero hp
  · obtain ⟨h0, h1, h3, h4, h5⟩ := transcendental_zero h
    refine ⟨h0, h1, ?_, h3, h4 ▸ givesReal_half hp, h5⟩
    have := exp2_givesReal hp fmt code (s := s) (m := 0) (e := e) (k := 0) (by simp [realOf])
      ((qmin_le_neg_one hp).trans (by decide)) (by omega)
    rwa [transcendental_exp2 h, ← zpow_zero (2 : ℝ)]
  · obtain ⟨-, h1, h3, -⟩ := transcendental_fin h hm
    exact ⟨h1, h3⟩
  · have hm : m ≠ 0 := ne_zero_of_realOf_eq_zpow two_ne_zero hk
    obtain ⟨h0, -⟩ := transcendental_fin h hm
    exact h0 ▸ recip_givesReal hp fmt code s hk hlow hhigh
  · subst hs
    have hm : m ≠ 0 := ne_zero_of_realOf_eq_zpow four_ne_zero hk
    obtain ⟨-, h1, -⟩ := transcendental_fin h hm
    exact h1 ▸ recipSqrt_givesReal hm hp h fmt hk
  · exact transcendental_exp2 h ▸ exp2_givesReal hp fmt code hk hlow hhigh
  · subst hs
    have hm : m ≠ 0 := ne_zero_of_realOf_eq_zpow two_ne_zero hk
    obtain ⟨-, -, h3, -⟩ := transcendental_fin h hm
    change GivesReal p (transcendental 3 fmt code) k ∧ (k = 0 → transcendental 3 fmt code = _)
    exact h3 ▸ log2_givesReal hp h hk fmt
  · obtain ⟨h0, -⟩ := transcendental_fin h hm
    exact h0 ▸ recip_approximatesReal hp fmt code s hm e
  · subst hs
    obtain ⟨-, h1, -⟩ := transcendental_fin h hm
    exact h1 ▸ recipSqrt_approximatesReal hm hp h fmt

end Sys2Proof.Machine
end

section
/-!
The bounds of 2^x and the form VEXP2 (03 R112).
-/

namespace Sys2Proof.Machine

/-! ## Rounded quotients -/

theorem floor_div_close (x : Nat) {d : Nat} (hd : 0 < d) :
    ((x / d : Nat) : ℝ) ≤ (x : ℝ) / d ∧ (x : ℝ) / d ≤ (x / d : Nat) + 1 := by
  have hd' : (0 : ℝ) < d := by exact_mod_cast hd
  rw [le_div_iff₀ hd', div_le_iff₀ hd']
  constructor
  · exact_mod_cast Nat.div_mul_le_self x d
  · exact_mod_cast ((Nat.lt_mul_div_succ x hd).trans_eq (mul_comm _ _)).le

theorem ceil_div_close (x : Nat) {d : Nat} (hd : 0 < d) :
    (x : ℝ) / d ≤ ((x + d - 1) / d : Nat) ∧ (((x + d - 1) / d : Nat) : ℝ) ≤ (x : ℝ) / d + 1 := by
  have hd' : (0 : ℝ) < d := by exact_mod_cast hd
  have hlow := Nat.div_mul_le_self (x + d - 1) d
  have hhigh := (Nat.lt_mul_div_succ (x + d - 1) hd).trans_eq (mul_comm _ _)
  rw [add_one_mul] at hhigh
  rw [div_le_iff₀ hd', ← sub_le_iff_le_add, le_div_iff₀ hd', sub_one_mul, sub_le_iff_le_add]
  constructor
  · exact_mod_cast (by omega : x ≤ (x + d - 1) / d * d)
  · exact_mod_cast (by omega : (x + d - 1) / d * d ≤ x + d)

/-! ## Numbers that bracket a real -/

/-- Two integers bracket x in units of 1/S, each within `a` units of it relative to x. -/
structure Brackets (S : Nat) (a x : ℝ) (lo hi : Nat) : Prop where
  lower : lo ≤ S * x
  upper : S * x ≤ hi
  lower_near : (S - a) * x ≤ lo
  upper_near : hi ≤ (S + a) * x

section
variable {S : Nat} {a b x y : ℝ} {lo hi clo chi : Nat}

theorem Brackets.mono (h : Brackets S a x lo hi) (hab : a ≤ b) (hx : 0 ≤ x) : Brackets S b x lo hi where
  lower := h.lower
  upper := h.upper
  lower_near := (mul_le_mul_of_nonneg_right (by linarith) hx).trans h.lower_near
  upper_near := h.upper_near.trans (mul_le_mul_of_nonneg_right (by linarith) hx)

/-- Square roots of brackets four units wide are as close again. -/
theorem Brackets.sqrt (h : Brackets S 4 (x ^ 2) lo hi) (hx : 1 ≤ x) (hS : 16 ≤ S) :
    Brackets S 4 x (isqrt (lo * S)) (isqrt (hi * S) + 1) := by
  obtain ⟨hlower, hupper, hlower', hupper'⟩ := h
  simp only [isqrt_eq_sqrt]
  have hS' : (16 : ℝ) ≤ S := by exact_mod_cast hS
  have hlo : ((Nat.sqrt (lo * S) : Nat) : ℝ) ^ 2 ≤ lo * S := by exact_mod_cast Nat.sqrt_le' (lo * S)
  have hlo' : (lo * S : ℝ) < (Nat.sqrt (lo * S) + 1) ^ 2 := by exact_mod_cast Nat.lt_succ_sqrt' (lo * S)
  have hhi : ((Nat.sqrt (hi * S) : Nat) : ℝ) ^ 2 ≤ hi * S := by exact_mod_cast Nat.sqrt_le' (hi * S)
  have hhi' : (hi * S : ℝ) < (Nat.sqrt (hi * S) + 1) ^ 2 := by exact_mod_cast Nat.lt_succ_sqrt' (hi * S)
  have hx0 : (0 : ℝ) ≤ x := by linarith
  refine ⟨?_, ?_, ?_, ?_⟩
  · refine le_of_sq_le_sq (hlo.trans ?_) (by positivity)
    nlinarith
  · push_cast
    refine le_of_sq_le_sq (le_trans ?_ hhi'.le) (by positivity)
    nlinarith
  · have : (S - 3) * x ≤ Nat.sqrt (lo * S) + 1 := by
      refine le_of_sq_le_sq (le_trans ?_ hlo'.le) (by positivity)
      nlinarith [mul_le_mul_of_nonneg_right hlower' (show (0 : ℝ) ≤ S by positivity), sq_nonneg x]
    linarith
  · have : (Nat.sqrt (hi * S) : ℝ) ≤ (S + 2) * x := by
      refine le_of_sq_le_sq (hhi.trans ?_) (by positivity)
      nlinarith [mul_le_mul_of_nonneg_right hupper' (show (0 : ℝ) ≤ S by positivity), sq_nonneg x]
    push_cast
    linarith

/-- Products of brackets. -/
theorem Brackets.mul (h : Brackets S a x lo hi) (hc : Brackets S 4 y clo chi) (hx : 1 ≤ x) (hy : 1 ≤ y) (ha : 0 ≤ a)
    (haS : a ≤ S) (hS : 16 ≤ S) : Brackets S (a + 9) (x * y) (lo * clo / S) (hi * chi / S + 1) := by
  have hS' : (16 : ℝ) ≤ S := by exact_mod_cast hS
  have hSpos : (0 : ℝ) < S := by linarith
  have hx0 : (0 : ℝ) ≤ x := by linarith
  have hy0 : (0 : ℝ) ≤ y := by linarith
  have hxy : 1 ≤ x * y := one_le_mul_of_one_le_of_one_le hx hy
  obtain ⟨hlo, hlo'⟩ := floor_div_close (lo * clo) (by omega : 0 < S)
  obtain ⟨hhi, hhi'⟩ := floor_div_close (hi * chi) (by omega : 0 < S)
  rw [le_div_iff₀ hSpos, Nat.cast_mul] at hlo hhi
  rw [div_le_iff₀ hSpos, Nat.cast_mul] at hlo' hhi'
  have hprod : (lo * clo : ℝ) ≤ S * x * (S * y) := mul_le_mul h.lower hc.lower (by positivity) (by positivity)
  have hprod' : S * x * (S * y) ≤ (hi * chi : ℝ) := mul_le_mul h.upper hc.upper (by positivity) (by positivity)
  have hnear : (S - a) * x * ((S - 4) * y) ≤ (lo * clo : ℝ) :=
    mul_le_mul h.lower_near hc.lower_near (mul_nonneg (by linarith) hy0) (by positivity)
  have hnear' : (hi * chi : ℝ) ≤ (S + a) * x * ((S + 4) * y) :=
    mul_le_mul h.upper_near hc.upper_near (by positivity) (by positivity)
  refine ⟨?_, ?_, ?_, ?_⟩
  · refine le_of_mul_le_mul_right ((hlo.trans hprod).trans_eq ?_) hSpos
    ring
  · push_cast
    refine le_of_mul_le_mul_right (le_trans (le_of_eq ?_) (hprod'.trans hhi')) hSpos
    ring
  · have hstep : (S - a - 4) * (x * y) ≤ (lo * clo / S : Nat) + 1 := by
      refine le_of_mul_le_mul_right (le_trans ?_ (hnear.trans hlo')) hSpos
      nlinarith [mul_nonneg ha (show 0 ≤ x * y by linarith)]
    linarith
  · have hstep : ((hi * chi / S : Nat) : ℝ) ≤ (S + a + 8) * (x * y) := by
      refine le_of_mul_le_mul_right ((hhi.trans hnear').trans ?_) hSpos
      nlinarith [mul_le_mul_of_nonneg_right haS (show 0 ≤ x * y by linarith)]
    push_cast
    linarith

end

/-! ## The factors of 2^x -/

/-- The factor of 2^x of the bit below the i-th of a fraction of 128 bits. -/
noncomputable def bitFactor (i : Nat) : ℝ := (2 : ℝ) ^ ((2 : ℝ) ^ i / 2 ^ 129)

theorem one_le_two_rpow {z : ℝ} (hz : 0 ≤ z) : 1 ≤ (2 : ℝ) ^ z := Real.one_le_rpow one_le_two hz

theorem bitFactor_sq (i : Nat) : bitFactor i ^ 2 = bitFactor (i + 1) := by
  unfold bitFactor
  rw [← Real.rpow_natCast, ← Real.rpow_mul two_pos.le]
  congr 1
  push_cast
  ring

/-- The steps bracket the product with the factors of the low bits. -/
theorem pow2Steps_brackets (r i clo chi lo hi : Nat) {x a : ℝ} (hc : Brackets (2 ^ 160) 4 (bitFactor i) clo chi)
    (h : Brackets (2 ^ 160) a x lo hi) (hx : 1 ≤ x) (ha : 0 ≤ a) (hai : a + 9 * i ≤ 2 ^ 160) :
    Brackets (2 ^ 160) (a + 9 * i) (x * 2 ^ ((r % 2 ^ i : Nat) / 2 ^ 128 : ℝ)) (pow2Steps r i clo chi lo hi).1
      (pow2Steps r i clo chi lo hi).2 := by
  induction i generalizing clo chi lo hi x a with
  | zero => simpa [pow2Steps, Nat.mod_one] using h
  | succ i ih =>
    have hfac : 1 ≤ bitFactor i := one_le_two_rpow (by positivity)
    have hroot := Brackets.sqrt (bitFactor_sq i ▸ hc) hfac (by norm_num)
    have hsplit := Nat.mod_pow_succ (b := 2) (k := i) (x := r)
    push_cast at hai ⊢
    unfold pow2Steps
    cases hbit : r.testBit i
    · rw [Nat.testBit_eq_decide_div_mod_eq, decide_eq_false_iff_not] at hbit
      rw [show r / 2 ^ i % 2 = 0 by omega, mul_zero, add_zero] at hsplit
      rw [hsplit]
      exact (ih _ _ lo hi hroot h hx ha (by linarith)).mono (by linarith) (by positivity)
    · rw [Nat.testBit_eq_decide_div_mod_eq, decide_eq_true_eq] at hbit
      rw [hbit, mul_one] at hsplit
      have hmul := h.mul hc hx (one_le_two_rpow (by positivity)) ha (by push_cast; linarith) (by norm_num)
      have hsteps := ih _ _ _ _ hroot hmul (one_le_mul_of_one_le_of_one_le hx (one_le_two_rpow (by positivity))) (by linarith)
        (by linarith)
      have hval : x * bitFactor (i + 1) * 2 ^ ((r % 2 ^ i : Nat) / 2 ^ 128 : ℝ) =
          x * 2 ^ ((r % 2 ^ (i + 1) : Nat) / 2 ^ 128 : ℝ) := by
        rw [mul_assoc, bitFactor, ← Real.rpow_add two_pos, hsplit]
        push_cast
        congr 2
        ring
      rw [hval, show a + 9 + 9 * (i : ℝ) = a + 9 * (i + 1) by ring] at hsteps
      exact hsteps

/-- A factor below 1 + 2^-128 per unit of the 128 bits of fraction. -/
theorem two_rpow_le {n : Nat} {z : ℝ} (hn : n ≤ 2 ^ 128) (hz : z ≤ n / 2 ^ 128) : (2 : ℝ) ^ z ≤ 1 + n / 2 ^ 128 := by
  have hn' : (n : ℝ) / 2 ^ 128 ≤ 1 := by
    rw [div_le_one (by positivity)]
    exact_mod_cast hn
  calc (2 : ℝ) ^ z ≤ (1 + 1) ^ (n / 2 ^ 128 : ℝ) := by
        rw [one_add_one_eq_two]
        exact Real.rpow_le_rpow_of_exponent_le one_le_two hz
    _ ≤ 1 + n / 2 ^ 128 * 1 := rpow_one_add_le_one_add_mul_self (by norm_num) (by positivity) hn'
    _ = _ := by rw [mul_one]

/-- The square root of two starts the steps. -/
theorem sqrtTwo_brackets : Brackets (2 ^ 160) 4 (bitFactor 128) (isqrt (2 ^ 321)) (isqrt (2 ^ 321) + 1) := by
  have htwo : bitFactor 128 ^ 2 = 2 := by
    rw [bitFactor_sq, bitFactor, div_self (by positivity), Real.rpow_one]
  have hstart : Brackets (2 ^ 160) 4 (bitFactor 128 ^ 2) (2 ^ 161) (2 ^ 161) := by
    rw [htwo]
    constructor <;> norm_num
  have hprod : 2 ^ 161 * 2 ^ 160 = 2 ^ 321 := by rw [show 321 = 161 + 160 from rfl, pow_add]
  exact hprod ▸ hstart.sqrt (one_le_two_rpow (by positivity)) (by norm_num)

/-- The bounds of 2^z for every z that has the 128 bits of fraction. -/
theorem pow2Bounds_brackets {r : Nat} {z : ℝ} (hr : r < 2 ^ 128) (hlow : r / 2 ^ 128 ≤ z) (hhigh : z ≤ (r + 1) / 2 ^ 128) :
    Brackets (2 ^ 160) (2 ^ 34) (2 ^ z) (pow2Bounds r).1 (pow2Bounds r).2 := by
  have hone : Brackets (2 ^ 160) 0 1 (2 ^ 160) (2 ^ 160) := by constructor <;> norm_num
  have hsteps := pow2Steps_brackets r 128 _ _ _ _ sqrtTwo_brackets hone le_rfl le_rfl (by norm_num)
  rw [Nat.mod_eq_of_lt hr, one_mul] at hsteps
  have hpow : (2 : ℝ) ^ z = 2 ^ ((r : ℝ) / 2 ^ 128) * 2 ^ (z - r / 2 ^ 128) := by rw [← Real.rpow_add two_pos]; ring_nf
  have hrest : (2 : ℝ) ^ (z - r / 2 ^ 128) ≤ 1 + (1 : Nat) / 2 ^ 128 :=
    two_rpow_le (by norm_num) (by rw [add_div] at hhigh; push_cast; linarith)
  have hrest' : 1 ≤ (2 : ℝ) ^ (z - r / 2 ^ 128) := one_le_two_rpow (by linarith)
  unfold pow2Bounds
  generalize pow2Steps r 128 _ _ _ _ = b at *
  obtain ⟨hlower, hupper, hlower', hupper'⟩ := hsteps
  have hx : (1 : ℝ) ≤ 2 ^ ((r : ℝ) / 2 ^ 128) := one_le_two_rpow (by positivity)
  obtain ⟨hdiv, hdiv'⟩ := floor_div_close b.2 (d := 2 ^ 128) (by positivity)
  rw [hpow]
  generalize (2 : ℝ) ^ ((r : ℝ) / 2 ^ 128) = x at *
  generalize (2 : ℝ) ^ (z - r / 2 ^ 128) = t at *
  push_cast at *
  have hxt : x ≤ x * t := le_mul_of_one_le_right (by linarith) hrest'
  have hxt' : x * t ≤ x + x / 2 ^ 128 := (mul_le_mul_of_nonneg_left hrest (by linarith)).trans_eq (by ring)
  constructor
  all_goals
    push_cast
    linarith

/-! ## VEXP2 -/

/-- Enclosing numbers as close as the 53rd bit are close enough for two ulp and more. -/
theorem close_of_relative {p : Fp} (hp : p.IsWide) {n lo hi : Nat} {g : Int} (hn : 2 ≤ n) (hlo : 2 ^ 52 ≤ lo)
    (h : (hi - lo : ℝ) * 2 ^ 53 ≤ lo) :
    ∃ w : Nat, (2 ^ (p.frac + w) ≤ lo ∨ g + w ≤ p.qmin) ∧ hi ≤ lo + (n - 1) * 2 ^ w + 1 := by
  have hfrac := hp.frac_le
  have hpos : lo ≠ 0 := by rintro rfl; simp at hlo
  have hbits : 52 ≤ Nat.log2 lo := (Nat.le_log2 hpos).2 hlo
  refine ⟨Nat.log2 lo - 52, .inl ((Nat.pow_le_pow_right (by decide) (by omega)).trans (Nat.log2_self_le hpos)), ?_⟩
  have hlt : lo < 2 ^ (Nat.log2 lo - 52) * 2 ^ 53 := by
    rw [← pow_add, show Nat.log2 lo - 52 + 53 = Nat.log2 lo + 1 by omega]
    exact Nat.lt_log2_self
  have hgap : (hi : ℝ) ≤ lo + 2 ^ (Nat.log2 lo - 52) := by
    have hlt' : (lo : ℝ) < 2 ^ (Nat.log2 lo - 52) * 2 ^ 53 := by exact_mod_cast hlt
    linarith
  have hgap' : hi ≤ lo + 2 ^ (Nat.log2 lo - 52) := by exact_mod_cast hgap
  have hmul : 2 ^ (Nat.log2 lo - 52) ≤ (n - 1) * 2 ^ (Nat.log2 lo - 52) := Nat.le_mul_of_pos_left _ (by omega)
  omega

section
variable {p : Fp} (hp : p.IsWide)
include hp

/-- A value of VEXP2 beyond the range. -/
theorem exp2_overflow {x : ℝ} {fl : Int} (hle : fl ≤ x) (h : (p.bias : Int) < fl) :
    ApproximatesReal p 2 (p.infCode, Flags.overflow ||| Flags.inexact) ((2 : ℝ) ^ x) := by
  have hy : (0 : ℝ) < 2 ^ x := Real.rpow_pos_of_pos two_pos x
  have hpow : (2 : ℝ) ^ ((p.bias : Int) + 1) ≤ |2 ^ x| := by
    rw [abs_of_pos hy, ← Real.rpow_intCast]
    exact Real.rpow_le_rpow_of_exponent_le one_le_two (le_trans (by exact_mod_cast h) hle)
  have hinf := approximatesReal_beyond hp (n := 2) (fl := Flags.overflow ||| Flags.inexact) hy.ne' (sign_of_pos hy) (by decide) hpow
  rwa [signBit_false_add] at hinf

/-- A value of VEXP2 below half the smallest last place. -/
theorem exp2_underflow {x : ℝ} {fl : Int} (hlt : x < fl + 1) (h : fl < p.qmin - 1) (c : Nat) (hc : c ≤ 2) :
    ApproximatesReal p 2 (c, Flags.inexact ||| Flags.underflow) ((2 : ℝ) ^ x) := by
  have hy : (0 : ℝ) < 2 ^ x := Real.rpow_pos_of_pos two_pos x
  have hq := qmin_le_neg_one hp
  have hval : gridReal p c = c * 2 ^ p.qmin := by
    have hgrid := gridValue_places (p := p) (d := 0) (n := c) (.inl rfl)
      (hc.trans (Nat.pow_le_pow_right (n := 2) (by decide) (show 1 ≤ p.frac + 1 by omega)))
    rw [zero_mul, zero_add, pow_zero, mul_one] at hgrid
    rw [gridReal, hgrid]
  have hsmall : (2 : ℝ) ^ x ≤ 2 ^ p.qmin := by
    rw [← Real.rpow_intCast]
    refine Real.rpow_le_rpow_of_exponent_le one_le_two (hlt.le.trans ?_)
    exact_mod_cast (by omega : fl + 1 ≤ p.qmin)
  have hc' : (c : ℝ) ≤ 2 := by exact_mod_cast hc
  have hlast : (0 : ℝ) < 2 ^ p.qmin := by positivity
  have hcode : c < p.infCode := by
    rw [lt_infCode_iff hp, hval]
    calc c * (2 : ℝ) ^ p.qmin ≤ 2 ^ (1 : Int) * 2 ^ p.qmin := by rw [zpow_one]; gcongr
      _ = 2 ^ (1 + p.qmin) := by rw [zpow_add₀ two_ne_zero]
      _ < 2 ^ ((p.bias : Int) + 1) := zpow_lt_zpow_right₀ one_lt_two (by omega)
  rw [← signBit_false_add p c]
  refine approximatesReal_code hp hy.ne' (sign_of_pos hy) (by decide) hcode fun u hu => ?_
  have hulp := qmin_le_of_isUlp hu
  rw [abs_of_pos hy, hval, abs_le]
  have hmul : (0 : ℝ) ≤ c * 2 ^ p.qmin := by positivity
  have hmul' : c * (2 : ℝ) ^ p.qmin ≤ 2 * 2 ^ p.qmin := by gcongr
  push_cast
  constructor <;> linarith

/-- The bounds of VEXP2's fraction enclose its value. -/
theorem exp2_encloses {x : ℝ} {fl : Int} {r : Nat} (hr : r < 2 ^ 128) (hle : fl + r / 2 ^ 128 ≤ x)
    (hlt : x < fl + (r + 1) / 2 ^ 128) :
    Encloses p 2 ((2 : ℝ) ^ x) (pow2Bounds r).1 (min (pow2Bounds r).2 (2 ^ 161)) (fl - 160) := by
  obtain ⟨hlower, hupper, hlower', hupper'⟩ := pow2Bounds_brackets (z := x - fl) hr (by linarith) (by linarith)
  have hone : (1 : ℝ) ≤ 2 ^ (x - fl) := one_le_two_rpow (by linarith [show (0 : ℝ) ≤ r / 2 ^ 128 by positivity])
  have htwo : (2 : ℝ) ^ (x - fl) ≤ 2 := by
    have hr' := fraction_le_one hr
    calc (2 : ℝ) ^ (x - fl) ≤ 2 ^ (1 : ℝ) := Real.rpow_le_rpow_of_exponent_le one_le_two (by linarith)
      _ = 2 := Real.rpow_one 2
  have hval : |(2 : ℝ) ^ x| = 2 ^ 160 * 2 ^ (x - fl) * 2 ^ (fl - 160 : Int) := by
    rw [abs_of_pos (Real.rpow_pos_of_pos two_pos x), Real.rpow_sub two_pos, Real.rpow_intCast, zpow_sub₀ two_ne_zero]
    field_simp
  generalize (2 : ℝ) ^ (x - fl) = t at *
  push_cast at hlower hupper hlower' hupper'
  have hmin : ((min (pow2Bounds r).2 (2 ^ 161) : Nat) : ℝ) ≤ (pow2Bounds r).2 := by exact_mod_cast min_le_left _ _
  refine ⟨?_, ?_, close_of_relative hp le_rfl ?_ ?_⟩
  · rw [hval]
    gcongr
    linarith
  · rw [hval]
    gcongr
    push_cast
    exact le_min (by linarith) (by linarith)
  · have : (2 : ℝ) ^ 52 ≤ (pow2Bounds r).1 := by linarith
    exact_mod_cast this
  · linarith

/-- The bound of VEXP2. -/
theorem exp2_approximatesReal (fmt code : Nat) (s : Bool) (m : Nat) (e : Int) :
    ApproximatesReal p 2 (p.exp2 fmt code s m e) ((2 : ℝ) ^ realOf s m e) := by
  obtain ⟨fl, r, exact, hr, hle, hlt, hexact, hform⟩ := exp2_forms p s m e
  have hpos : (0 : ℝ) < 2 ^ realOf s m e := Real.rpow_pos_of_pos two_pos _
  have hr0 : (0 : ℝ) ≤ r / 2 ^ 128 := by positivity
  have hr1 := fraction_le_one hr
  rw [hform]
  split_ifs with hover hunder hpoint
  · exact exp2_overflow hp (by linarith) hover
  · exact exp2_underflow hp (by linarith) hunder _ (clampCode_mem (by decide) _).2
  · simp only [Bool.and_eq_true, decide_eq_true_eq, Bool.not_eq_true'] at hpoint
    obtain ⟨⟨rfl, hwhole⟩, hgrid⟩ := hpoint
    have hval := hexact.1 hwhole
    rw [Nat.cast_zero, zero_div, add_zero] at hval
    rw [← hval, Real.rpow_intCast] at hpos ⊢
    refine roundArith_rne_approximatesReal hp hpos.ne' (sign_of_pos hpos) ?_ (gridReal_roundMag p 0 false 1 fl .rtz hgrid)
    rw [abs_of_pos hpos, Nat.cast_one, one_mul]
  · exact within_approximatesReal (exp2_encloses hp hr hle hlt) hp (by decide) hpos.ne' (sign_of_pos hpos)

end

end Sys2Proof.Machine
end

section
/-!
The bits of log2 and the form VLOG2 (03 R112).
-/

namespace Sys2Proof.Machine

/-! ## Logarithms of close numbers -/

/-- Numbers within a factor 1 + t have logarithms within 2t. -/
theorem logb_le_logb_add {x y t : ℝ} (hx : 0 < x) (ht : 0 ≤ t) (h : y ≤ x * (1 + t)) (hy : 0 < y) :
    Real.logb 2 y ≤ Real.logb 2 x + 2 * t := by
  have hlog : Real.logb 2 (1 + t) ≤ 2 * t := by
    rw [Real.logb, div_le_iff₀ (Real.log_pos one_lt_two)]
    have h1 := Real.log_le_sub_one_of_pos (show 0 < 1 + t by linarith)
    nlinarith [Real.log_two_gt_d9]
  calc Real.logb 2 y ≤ Real.logb 2 (x * (1 + t)) := Real.logb_le_logb_of_le one_lt_two hy h
    _ = Real.logb 2 x + Real.logb 2 (1 + t) := Real.logb_mul hx.ne' (by positivity)
    _ ≤ _ := by linarith

/-- The logarithm lies above its chord from 1 to 2. -/
theorem le_logb_one_add {t : ℝ} (ht : 0 ≤ t) (ht' : t ≤ 1) : t ≤ Real.logb 2 (1 + t) := by
  rw [Real.le_logb_iff_rpow_le one_lt_two (by linarith)]
  have := rpow_one_add_le_one_add_mul_self (s := 1) (by norm_num) ht ht'
  rwa [one_add_one_eq_two, mul_one] at this

theorem logb_one_sub_le {t : ℝ} (ht : 0 ≤ t) (ht' : t < 1) : Real.logb 2 (1 - t) ≤ -t := by
  have hlog := Real.log_le_sub_one_of_pos (show 0 < 1 - t by linarith)
  rw [Real.logb, div_le_iff₀ (Real.log_pos one_lt_two)]
  nlinarith [Real.log_two_lt_d9]

/-! ## The steps -/

/-- The logarithm of a value from 1 to 2 in units of 2^-192. -/
noncomputable def fracLog (z : Nat) : ℝ := Real.logb 2 z - 192

/-- The value that a step leaves, and its bit. -/
def log2Next (up : Bool) (z : Nat) : Nat × Nat :=
  let w := if up then (z * z + 2 ^ 192 - 1) / 2 ^ 192 else z * z / 2 ^ 192
  if 2 ^ 193 ≤ w then (if up then (w + 1) / 2 else w / 2, 1) else (w, 0)

theorem log2Next_false (z : Nat) :
    log2Next false z = if 2 ^ 193 ≤ z * z / 2 ^ 192 then (z * z / 2 ^ 192 / 2, 1) else (z * z / 2 ^ 192, 0) := by
  simp only [log2Next, Bool.false_eq_true, if_false]

theorem log2Next_true (z : Nat) :
    log2Next true z = if 2 ^ 193 ≤ (z * z + 2 ^ 192 - 1) / 2 ^ 192 then (((z * z + 2 ^ 192 - 1) / 2 ^ 192 + 1) / 2, 1)
      else ((z * z + 2 ^ 192 - 1) / 2 ^ 192, 0) := by
  simp only [log2Next, if_true]

theorem log2Steps_succ (up : Bool) (i z acc : Nat) :
    log2Steps up (i + 1) z acc = log2Steps up i (log2Next up z).1 (2 * acc + (log2Next up z).2) := by
  unfold log2Next
  simp only [log2Steps]
  cases up <;> simp only [if_true, Bool.false_eq_true, if_false] <;> split <;> rfl

/-- What a step of squaring keeps: its value from 1 to 2, and twice the logarithm up to the error of its roundings. -/
structure NextLog (low high : ℝ) (z z' b : Nat) : Prop where
  ge : 2 ^ 192 ≤ z'
  le : z' ≤ 2 ^ 193
  above : 2 * fracLog z + low ≤ b + fracLog z'
  below : b + fracLog z' ≤ 2 * fracLog z + high

theorem fracLog_nonneg {z : Nat} (h : 2 ^ 192 ≤ z) : 0 ≤ fracLog z := by
  have h' : (2 : ℝ) ^ (192 : ℝ) ≤ z := by rw [show (192 : ℝ) = (192 : Nat) by norm_num, Real.rpow_natCast]; exact_mod_cast h
  have := (Real.le_logb_iff_rpow_le one_lt_two (lt_of_lt_of_le (by positivity) h')).2 h'
  unfold fracLog
  linarith

theorem fracLog_le_one {z : Nat} (h0 : z ≠ 0) (h : z ≤ 2 ^ 193) : fracLog z ≤ 1 := by
  have h' : (z : ℝ) ≤ 2 ^ (193 : ℝ) := by rw [show (193 : ℝ) = (193 : Nat) by norm_num, Real.rpow_natCast]; exact_mod_cast h
  have := (Real.logb_le_iff_le_rpow one_lt_two (by positivity)).2 h'
  unfold fracLog
  linarith

/-- The logarithm of the square. -/
theorem logb_sq_div {z : Nat} (h : z ≠ 0) : Real.logb 2 ((z : ℝ) * z / 2 ^ 192) = 2 * fracLog z + 192 := by
  have hz : (z : ℝ) ≠ 0 := by exact_mod_cast h
  rw [Real.logb_div (mul_ne_zero hz hz) (by positivity), Real.logb_mul hz hz, Real.logb_pow,
    Real.logb_self_eq_one one_lt_two, fracLog]
  push_cast
  ring

theorem logb_half {w : ℝ} (h : w ≠ 0) : Real.logb 2 (w / 2) = Real.logb 2 w - 1 := by
  rw [Real.logb_div h two_ne_zero, Real.logb_self_eq_one one_lt_two]

/-- Numbers from 2^192 up that differ by less than one have close logarithms. -/
theorem logb_close {u v : ℝ} (hu : 2 ^ 192 ≤ u) (huv : u ≤ v) (hv : v ≤ u + 1) :
    Real.logb 2 u ≤ Real.logb 2 v ∧ Real.logb 2 v ≤ Real.logb 2 u + 2 / 2 ^ 192 := by
  have hpos : 0 < u := lt_of_lt_of_le (by positivity) hu
  refine ⟨Real.logb_le_logb_of_le one_lt_two hpos huv, ?_⟩
  have := logb_le_logb_add (t := 1 / 2 ^ 192) hpos (by positivity) (by linarith) (hpos.trans_le huv)
  linarith

/-- A rounded square and a rounded half, and what they keep. -/
theorem nextLog_of_close {low high : ℝ} {z w h : Nat} (hz : z ≠ 0) (hw : 2 ^ 192 ≤ w) (hlow : low ≤ 0) (hhigh : 0 ≤ high)
    (hsquare : Real.logb 2 ((z : ℝ) * z / 2 ^ 192) + low / 2 ≤ Real.logb 2 w ∧
      Real.logb 2 w ≤ Real.logb 2 ((z : ℝ) * z / 2 ^ 192) + high / 2)
    (hhalf : 2 ^ 193 ≤ w → (2 ^ 192 ≤ h ∧ h ≤ 2 ^ 193) ∧
      Real.logb 2 ((w : ℝ) / 2) + low / 2 ≤ Real.logb 2 h ∧ Real.logb 2 h ≤ Real.logb 2 ((w : ℝ) / 2) + high / 2) :
    NextLog low high z (if 2 ^ 193 ≤ w then (h, 1) else (w, 0)).1 (if 2 ^ 193 ≤ w then (h, 1) else (w, 0)).2 := by
  rw [logb_sq_div hz] at hsquare
  obtain ⟨habove, hbelow⟩ := hsquare
  by_cases htop : 2 ^ 193 ≤ w
  · rw [if_pos htop]
    have hpos : (w : ℝ) ≠ 0 := by exact_mod_cast (by rintro rfl; simp at htop : w ≠ 0)
    rw [logb_half hpos] at hhalf
    obtain ⟨⟨hge, hle⟩, habove', hbelow'⟩ := hhalf htop
    refine ⟨hge, hle, ?_, ?_⟩ <;> simp only [fracLog, Nat.cast_one] at * <;> linarith
  · rw [if_neg htop]
    refine ⟨hw, by omega, ?_, ?_⟩ <;> simp only [fracLog, Nat.cast_zero] at * <;> linarith

section
variable {w : Nat} (hw : 2 ^ 193 ≤ w) (hw' : w ≤ 2 ^ 194)
include hw hw'

theorem half_down_close : (2 ^ 192 ≤ w / 2 ∧ w / 2 ≤ 2 ^ 193) ∧
    Real.logb 2 (w / 2 : Nat) ≤ Real.logb 2 ((w : ℝ) / 2) ∧
    Real.logb 2 ((w : ℝ) / 2) ≤ Real.logb 2 (w / 2 : Nat) + 2 / 2 ^ 192 := by
  have hh : 2 ^ 192 ≤ w / 2 := by omega
  obtain ⟨hlow, hhigh⟩ := floor_div_close w (d := 2) (by decide)
  exact ⟨⟨hh, by omega⟩, logb_close (by exact_mod_cast hh) hlow hhigh⟩

theorem half_up_close : (2 ^ 192 ≤ (w + 1) / 2 ∧ (w + 1) / 2 ≤ 2 ^ 193) ∧
    Real.logb 2 ((w : ℝ) / 2) ≤ Real.logb 2 ((w + 1) / 2 : Nat) ∧
    Real.logb 2 ((w + 1) / 2 : Nat) ≤ Real.logb 2 ((w : ℝ) / 2) + 2 / 2 ^ 192 := by
  obtain ⟨hlow, hhigh⟩ := ceil_div_close w (d := 2) (by decide)
  have hx : (2 : ℝ) ^ 192 ≤ (w : ℝ) / 2 := by
    rw [le_div_iff₀ (by positivity)]
    exact_mod_cast hw
  exact ⟨⟨by omega, by omega⟩, logb_close hx hlow hhigh⟩

end

section
variable {z : Nat} (hge : 2 ^ 192 ≤ z) (hle : z ≤ 2 ^ 193)
include hge hle

/-- A step rounded down. -/
theorem log2Next_down : NextLog (-(1 / 2 ^ 190)) 0 z (log2Next false z).1 (log2Next false z).2 := by
  have hsq := Nat.mul_le_mul hge hge
  have hsq' := Nat.mul_le_mul hle hle
  have hw : 2 ^ 192 ≤ z * z / 2 ^ 192 := by omega
  have hw' : z * z / 2 ^ 192 ≤ 2 ^ 194 := by omega
  obtain ⟨hlow, hhigh⟩ := floor_div_close (z * z) (d := 2 ^ 192) (by positivity)
  rw [log2Next_false]
  generalize z * z / 2 ^ 192 = w at hlow hhigh hw hw' ⊢
  refine nextLog_of_close (h := w / 2) (by omega) hw (by norm_num) le_rfl ?_ fun htop => ?_
  · obtain ⟨h1, h2⟩ := logb_close (by exact_mod_cast hw) hlow hhigh
    push_cast at h1 h2
    constructor <;> linarith
  · obtain ⟨hrange, h1, h2⟩ := half_down_close htop hw'
    refine ⟨hrange, ?_, ?_⟩ <;> linarith

/-- A step rounded up. -/
theorem log2Next_up : NextLog 0 (1 / 2 ^ 190) z (log2Next true z).1 (log2Next true z).2 := by
  have hsq := Nat.mul_le_mul hge hge
  have hsq' := Nat.mul_le_mul hle hle
  have hw : 2 ^ 192 ≤ (z * z + 2 ^ 192 - 1) / 2 ^ 192 := by omega
  have hw' : (z * z + 2 ^ 192 - 1) / 2 ^ 192 ≤ 2 ^ 194 := by omega
  obtain ⟨hlow, hhigh⟩ := ceil_div_close (z * z) (d := 2 ^ 192) (by positivity)
  rw [log2Next_true]
  generalize (z * z + 2 ^ 192 - 1) / 2 ^ 192 = w at hlow hhigh hw hw' ⊢
  refine nextLog_of_close (h := (w + 1) / 2) (by omega) hw le_rfl (by norm_num) ?_ fun htop => ?_
  · have hx : (2 : ℝ) ^ 192 ≤ (z * z : Nat) / (2 ^ 192 : Nat) := by
      rw [le_div_iff₀ (by positivity)]
      exact_mod_cast hsq
    obtain ⟨h1, h2⟩ := logb_close hx hlow hhigh
    push_cast at h1 h2
    constructor <;> linarith
  · obtain ⟨hrange, h1, h2⟩ := half_up_close htop hw'
    refine ⟨hrange, ?_, ?_⟩ <;> linarith

end

/-- The bits of the logarithm, up to the errors of the steps. -/
theorem log2Steps_spec {up : Bool} {low high : ℝ}
    (hnext : ∀ z, 2 ^ 192 ≤ z → z ≤ 2 ^ 193 → NextLog low high z (log2Next up z).1 (log2Next up z).2) (i z acc : Nat)
    (hge : 2 ^ 192 ≤ z) (hle : z ≤ 2 ^ 193) :
    (acc + fracLog z) * 2 ^ i + (2 ^ i - 1) * low - 1 ≤ log2Steps up i z acc ∧
      log2Steps up i z acc ≤ (acc + fracLog z) * 2 ^ i + (2 ^ i - 1) * high := by
  induction i generalizing z acc with
  | zero =>
    have hpos := fracLog_nonneg hge
    have hone := fracLog_le_one (by rintro rfl; simp at hge) hle
    simp only [log2Steps, pow_zero]
    constructor <;> linarith
  | succ i ih =>
    obtain ⟨hge', hle', habove, hbelow⟩ := hnext z hge hle
    rw [log2Steps_succ]
    obtain ⟨hlow, hhigh⟩ := ih _ (2 * acc + (log2Next up z).2) hge' hle'
    push_cast at hlow hhigh
    have hpow : (0 : ℝ) < 2 ^ i := by positivity
    rw [pow_succ]
    constructor
    · nlinarith
    · nlinarith

/-! ## VLOG2 -/

theorem exactLog_none {m : Nat} {e : Int} (hm : m ≠ 0) (h : exactLog m e = none) : 2 ^ (bitLen m - 1) < m := by
  refine lt_of_le_of_ne (two_pow_bitLen_le hm) fun heq => ?_
  rw [exactLog, if_pos (by simp [heq, hm])] at h
  cases h

theorem logb_two_zpow (k : Int) : Real.logb 2 (2 ^ k) = k := by
  rw [← Real.rpow_intCast, Real.logb_rpow two_pos (by norm_num)]

theorem logb_magnitude {m : Nat} (hm : m ≠ 0) (hbits : bitLen m ≤ 193) (e : Int) :
    Real.logb 2 (m * 2 ^ e) = topExp m e + fracLog (m * 2 ^ (193 - bitLen m)) := by
  have hm' : (m : ℝ) ≠ 0 := by exact_mod_cast hm
  rw [fracLog]
  push_cast
  rw [Real.logb_mul hm' (by positivity), Real.logb_mul hm' (by positivity), logb_two_zpow, Real.logb_pow,
    Real.logb_self_eq_one one_lt_two, topExp, Nat.cast_sub hbits]
  push_cast
  ring

section
variable {m : Nat} (hm : 2 ^ (bitLen m - 1) < m) (hbits : bitLen m ≤ 53)
include hm hbits

/-- A value that is no power of two, scaled, keeps away from 1 and 2. -/
theorem scaled_range : 2 ^ 192 + 2 ^ 140 ≤ m * 2 ^ (193 - bitLen m) ∧ m * 2 ^ (193 - bitLen m) + 2 ^ 140 ≤ 2 ^ 193 := by
  have hpos := bitLen_pos (by rintro rfl; simp at hm : m ≠ 0)
  have hlt := lt_two_pow_bitLen m
  have hunit : 2 ^ 140 ≤ 2 ^ (193 - bitLen m) := Nat.pow_le_pow_right (by decide) (by omega)
  have hlow := Nat.mul_le_mul_right (2 ^ (193 - bitLen m)) (Nat.succ_le_of_lt hm)
  have hhigh := Nat.mul_le_mul_right (2 ^ (193 - bitLen m)) (Nat.succ_le_of_lt hlt)
  rw [Nat.succ_eq_add_one, add_one_mul, ← pow_add] at hlow hhigh
  rw [show bitLen m - 1 + (193 - bitLen m) = 192 by omega] at hlow
  rw [show bitLen m + (193 - bitLen m) = 193 by omega] at hhigh
  omega

theorem fracLog_scaled :
    1 / 2 ^ 52 ≤ fracLog (m * 2 ^ (193 - bitLen m)) ∧ fracLog (m * 2 ^ (193 - bitLen m)) ≤ 1 - 1 / 2 ^ 53 := by
  obtain ⟨hlow, hhigh⟩ := scaled_range hm hbits
  generalize m * 2 ^ (193 - bitLen m) = z at *
  have hlow' : (2 : ℝ) ^ 192 + 2 ^ 140 ≤ z := by exact_mod_cast hlow
  have hhigh' : (z : ℝ) + 2 ^ 140 ≤ 2 ^ 193 := by exact_mod_cast hhigh
  have hz : (0 : ℝ) < z := by linarith
  have h192 : Real.logb 2 ((2 : ℝ) ^ 192) = 192 := by rw [Real.logb_pow, Real.logb_self_eq_one one_lt_two]; norm_num
  have h193 : Real.logb 2 ((2 : ℝ) ^ 193) = 193 := by rw [Real.logb_pow, Real.logb_self_eq_one one_lt_two]; norm_num
  unfold fracLog
  constructor
  · have hone : (1 / 2 ^ 52 : ℝ) ≤ Real.logb 2 (1 + 1 / 2 ^ 52) := le_logb_one_add (by positivity) (by norm_num)
    have hmul : Real.logb 2 (2 ^ 192 * (1 + 1 / 2 ^ 52)) ≤ Real.logb 2 z :=
      Real.logb_le_logb_of_le one_lt_two (by positivity) (by linarith)
    rw [Real.logb_mul (by positivity) (by positivity), h192] at hmul
    linarith
  · have hmul : Real.logb 2 z ≤ Real.logb 2 (2 ^ 193 * (1 - 1 / 2 ^ 53)) := Real.logb_le_logb_of_le one_lt_two hz (by linarith)
    have hlog : Real.logb 2 (1 - 1 / 2 ^ 53) ≤ -(1 / 2 ^ 53) := logb_one_sub_le (by positivity) (by norm_num)
    rw [Real.logb_mul (by positivity) (by norm_num), h193] at hmul
    linarith

/-- The bits that VLOG2 forms bracket the fraction of the logarithm within less than three units. -/
theorem log2Steps_bracket :
    let z := m * 2 ^ (193 - bitLen m)
    (log2Steps false 160 z 0 : ℝ) ≤ fracLog z * 2 ^ 160 ∧ fracLog z * 2 ^ 160 ≤ log2Steps true 160 z 0 + 1 ∧
      fracLog z * 2 ^ 160 - 2 ≤ log2Steps false 160 z 0 ∧ (log2Steps true 160 z 0 : ℝ) ≤ fracLog z * 2 ^ 160 + 1 := by
  intro z
  obtain ⟨hlow, hhigh⟩ := scaled_range hm hbits
  obtain ⟨h1, h2⟩ := log2Steps_spec (fun z => log2Next_down) 160 z 0 (by omega) (by omega)
  obtain ⟨h3, h4⟩ := log2Steps_spec (fun z => log2Next_up) 160 z 0 (by omega) (by omega)
  rw [Nat.cast_zero, zero_add] at h1 h2 h3 h4
  refine ⟨?_, ?_, ?_, ?_⟩ <;> linarith

end

section
variable {p : Fp} (hp : p.IsWide)
include hp

/-- Numbers a few units of 2^-160 apart enclose a logarithm. -/
theorem encloses_bits {y : ℝ} {lo hi : Nat} (hlow : lo ≤ |y| * 2 ^ 160) (hhigh : |y| * 2 ^ 160 ≤ hi) (hbig : (2 : ℝ) ^ 60 ≤ lo)
    (hclose : (hi : ℝ) ≤ lo + 4) : Encloses p 2 y lo hi (-160) := by
  have hunit : (2 : ℝ) ^ (-160 : Int) = (2 ^ 160)⁻¹ := by rw [zpow_neg, zpow_ofNat]
  have hpos : (0 : ℝ) < 2 ^ 160 := by positivity
  refine ⟨?_, ?_, close_of_relative hp le_rfl ?_ (by linarith)⟩
  · rwa [hunit, ← div_eq_mul_inv, div_le_iff₀ hpos]
  · rwa [hunit, ← div_eq_mul_inv, le_div_iff₀ hpos]
  · exact_mod_cast (by linarith : (2 : ℝ) ^ 52 ≤ lo)

/-- The bound of VLOG2. -/
theorem log2_approximatesReal {code : Nat} {s : Bool} {m : Nat} {e : Int} (hcode : p.decode code = .fin s m e) (hm : m ≠ 0)
    (fmt : Nat) : ApproximatesReal p 2 (p.log2 fmt code m e) (Real.logb 2 (m * 2 ^ e)) := by
  cases hexact : exactLog m e with
  | some t =>
    rw [exactLog_eq_some hexact, logb_two_zpow]
    exact .inl (log2_of_exactLog hp hcode hexact fmt).1.1
  | none =>
    have hstrict := exactLog_none hm hexact
    obtain ⟨-, hplaces, -⟩ := decode_fin hp hcode
    have hfrac := hp.frac_le
    have hbits : bitLen m ≤ 53 := by
      have := (Nat.pow_lt_pow_iff_right (a := 2) (by decide)).1 (hstrict.trans hplaces)
      omega
    obtain ⟨hlow, hhigh⟩ := fracLog_scaled hstrict hbits
    obtain ⟨h1, h2, h3, h4⟩ := log2Steps_bracket hstrict hbits
    rw [logb_magnitude hm (by omega) e]
    simp only [Fp.log2, hexact]
    generalize m * 2 ^ (193 - bitLen m) = z at *
    generalize log2Steps false 160 z 0 = lo at *
    generalize log2Steps true 160 z 0 = hi at *
    generalize topExp m e = t at *
    generalize fracLog z = x at *
    have hn : ((t.natAbs * 2 ^ 160 : Nat) : ℝ) = |(t : ℝ)| * 2 ^ 160 := by
      rw [Nat.cast_mul, Nat.cast_natAbs, Int.cast_abs, Nat.cast_pow, Nat.cast_ofNat]
    generalize t.natAbs * 2 ^ 160 = n at *
    split
    · rename_i hneg
      have ht : (t : ℝ) ≤ -1 := by exact_mod_cast (by omega : t ≤ -1)
      rw [abs_of_neg (by linarith)] at hn
      have hcast : ((n - (hi + 1) : Nat) : ℝ) = n - (hi + 1) := by
        rw [Nat.cast_sub (by exact_mod_cast (by linarith : (hi : ℝ) + 1 ≤ n)), Nat.cast_add_one]
      have hcast' : ((n - lo : Nat) : ℝ) = n - lo := Nat.cast_sub (by exact_mod_cast (by linarith : (lo : ℝ) ≤ n))
      have hy : (t : ℝ) + x < 0 := by linarith
      refine within_approximatesReal (encloses_bits hp ?_ ?_ ?_ ?_) hp (by decide) hy.ne (by simpa using hy)
      all_goals simp only [hcast, hcast', abs_of_neg hy]
      all_goals linarith
    · rename_i hpos
      have ht : (0 : ℝ) ≤ t := by exact_mod_cast not_lt.1 hpos
      rw [abs_of_nonneg ht] at hn
      have hy : 0 < (t : ℝ) + x := by linarith
      refine within_approximatesReal (encloses_bits hp ?_ ?_ ?_ ?_) hp (by decide) hy.ne' (sign_of_pos hy)
      all_goals simp only [Nat.cast_add, Nat.cast_one, abs_of_pos hy]
      all_goals linarith

end

end Sys2Proof.Machine
end

section
/-!
The bounds of e^x, and the forms VSIGM and VTANH (03 R112).
-/

namespace Sys2Proof.Machine

/-! ## log2 e to 192 bits -/

/-- The first 200 terms of the series of log 2. -/
theorem log_two_series : |(∑ i ∈ Finset.range 200, (2⁻¹ : ℝ) ^ (i + 1) / (i + 1)) - Real.log 2| ≤ 1 / 2 ^ 200 := by
  have habs : |(2⁻¹ : ℝ)| = 2⁻¹ := abs_of_pos (by norm_num)
  have hseries := Real.abs_log_sub_add_sum_range_le (show |(2⁻¹ : ℝ)| < 1 by rw [habs]; norm_num) 200
  rw [habs, show (1 - 2⁻¹ : ℝ) = 2⁻¹ by norm_num, Real.log_inv, ← sub_eq_add_neg] at hseries
  refine hseries.trans_eq ?_
  rw [pow_succ]
  field_simp

/-- The model's constant is log2 e · 2^192, rounded down. -/
theorem log2e_bounds : (log2e : ℝ) * Real.log 2 ≤ 2 ^ 192 ∧ 2 ^ 192 ≤ ((log2e : ℝ) + 1) * Real.log 2 := by
  have hseries := log_two_series
  norm_num1 at hseries
  obtain ⟨hlow, hhigh⟩ := abs_le.1 hseries
  unfold log2e
  constructor <;> norm_num1 <;> linarith

/-! ## The bounds of e^x -/

/-- Brackets of the same closeness in smaller units. -/
theorem Brackets.scale {S : Nat} {a x : ℝ} {lo hi : Nat} (h : Brackets S a x lo hi) (k : Nat) :
    Brackets S a (x * k) (lo * k) (hi * k) := by
  obtain ⟨h1, h2, h3, h4⟩ := h
  constructor <;> push_cast <;> rw [← mul_assoc] <;> gcongr

/-- The bounds of a power of two with 128 bits of fraction. -/
theorem pow2Bounds_fixed (n : Nat) :
    Brackets (2 ^ 160) (2 ^ 34) (2 ^ ((n : ℝ) / 2 ^ 128)) ((pow2Bounds (n % 2 ^ 128)).1 * 2 ^ (n / 2 ^ 128))
      ((pow2Bounds (n % 2 ^ 128)).2 * 2 ^ (n / 2 ^ 128)) := by
  have hr : n % 2 ^ 128 < 2 ^ 128 := Nat.mod_lt _ (by positivity)
  have hbounds :=
    (pow2Bounds_brackets (z := (n % 2 ^ 128 : Nat) / 2 ^ 128) hr le_rfl (by gcongr; linarith)).scale (2 ^ (n / 2 ^ 128))
  have hsplit : (n : ℝ) = 2 ^ 128 * (n / 2 ^ 128 : Nat) + (n % 2 ^ 128 : Nat) := by
    exact_mod_cast (Nat.div_add_mod n (2 ^ 128)).symm
  generalize n % 2 ^ 128 = r at *
  generalize n / 2 ^ 128 = q at *
  have hexp : (n : ℝ) / 2 ^ 128 = (r : ℝ) / 2 ^ 128 + q := by
    rw [hsplit]
    field_simp
    ring
  rw [hexp, Real.rpow_add two_pos, Real.rpow_natCast]
  exact_mod_cast hbounds

theorem exp_eq_two_rpow (v : ℝ) : Real.exp v = 2 ^ (v / Real.log 2) := by
  rw [Real.rpow_def_of_pos two_pos, mul_div_cancel₀ _ (Real.log_pos one_lt_two).ne']

/-- The exponents that the bounds of e^x are formed from, in 128 bits of fraction. -/
theorem exp_exponents {m : Nat} {e : Int} (hv : (m : ℝ) * 2 ^ e < 2 ^ 9) :
    let k := (64 - e).toNat
    let up := (e - 64).toNat
    let lo := m * log2e * 2 ^ up / 2 ^ k
    let hi := m * (log2e + 1) * 2 ^ up / 2 ^ k + 1
    let x := m * 2 ^ e / Real.log 2
    (lo : ℝ) / 2 ^ 128 ≤ x ∧ x ≤ (hi : ℝ) / 2 ^ 128 ∧ x - (lo : ℝ) / 2 ^ 128 ≤ (2 : Nat) / 2 ^ 128 ∧
      (hi : ℝ) / 2 ^ 128 - x ≤ (2 : Nat) / 2 ^ 128 := by
  intro k up lo hi x
  obtain ⟨hlow, hhigh⟩ := log2e_bounds
  have hlog := Real.log_pos (x := 2) one_lt_two
  rw [← le_div_iff₀ hlog] at hlow
  rw [← div_le_iff₀ hlog] at hhigh
  have hunit (c : Nat) : ((m * c * 2 ^ up : Nat) : ℝ) / (2 ^ k : Nat) = m * 2 ^ e * c / 2 ^ 64 := by
    have hpow : (2 : ℝ) ^ up * 2 ^ 64 = 2 ^ e * 2 ^ k := by
      rw [← zpow_natCast, ← zpow_natCast, ← zpow_natCast, ← zpow_add₀ two_ne_zero, ← zpow_add₀ two_ne_zero]
      congr 1
      omega
    rw [div_eq_div_iff (by positivity) (by positivity)]
    push_cast
    rw [mul_assoc, hpow]
    ring
  obtain ⟨h1, h2⟩ := floor_div_close (m * log2e * 2 ^ up) (d := 2 ^ k) (by positivity)
  obtain ⟨h3, h4⟩ := floor_div_close (m * (log2e + 1) * 2 ^ up) (d := 2 ^ k) (by positivity)
  rw [hunit] at h1 h2 h3 h4
  have hlo : ((m * log2e * 2 ^ up / 2 ^ k : Nat) : ℝ) = lo := rfl
  have hhi : ((m * (log2e + 1) * 2 ^ up / 2 ^ k : Nat) : ℝ) = hi - 1 := by simp [hi]
  rw [hlo] at h1 h2
  rw [hhi] at h3 h4
  have hv0 : (0 : ℝ) ≤ m * 2 ^ e := by positivity
  have hx : x * 2 ^ 192 = m * 2 ^ e * (2 ^ 192 / Real.log 2) := by simp only [x]; ring
  generalize (m : ℝ) * 2 ^ e = v at *
  have hxlow := mul_le_mul_of_nonneg_left hlow hv0
  have hxhigh := mul_le_mul_of_nonneg_left hhigh hv0
  rw [← hx] at hxlow hxhigh
  push_cast at h3 h4 ⊢
  rw [mul_add_one] at h3 h4 hxhigh
  refine ⟨?_, ?_, ?_, ?_⟩ <;> linarith

/-- The bounds of e^v. -/
theorem expBounds_brackets {m : Nat} {e : Int} (hv : (m : ℝ) * 2 ^ e < 2 ^ 9) :
    Brackets (2 ^ 160) (2 ^ 35) (Real.exp (m * 2 ^ e)) (expBounds m e).1 (expBounds m e).2 := by
  obtain ⟨h1, h2, h3, h4⟩ := exp_exponents hv
  unfold expBounds
  dsimp only
  generalize m * log2e * 2 ^ (e - 64).toNat / 2 ^ (64 - e).toNat = lo at *
  generalize m * (log2e + 1) * 2 ^ (e - 64).toNat / 2 ^ (64 - e).toNat + 1 = hi at *
  rw [exp_eq_two_rpow]
  generalize (m : ℝ) * 2 ^ e / Real.log 2 = x at *
  obtain ⟨hlo, -, hlo', -⟩ := pow2Bounds_fixed lo
  obtain ⟨-, hhi, -, hhi'⟩ := pow2Bounds_fixed hi
  have hfac1 : (2 : ℝ) ^ x = 2 ^ ((lo : ℝ) / 2 ^ 128) * 2 ^ (x - lo / 2 ^ 128) := by rw [← Real.rpow_add two_pos]; ring_nf
  have hfac2 : (2 : ℝ) ^ ((hi : ℝ) / 2 ^ 128) = 2 ^ x * 2 ^ (hi / 2 ^ 128 - x) := by rw [← Real.rpow_add two_pos]; ring_nf
  have hle1 := two_rpow_le (n := 2) (by norm_num) h3
  have hle2 := two_rpow_le (n := 2) (by norm_num) h4
  have hone1 : 1 ≤ (2 : ℝ) ^ (x - lo / 2 ^ 128) := one_le_two_rpow (by linarith)
  have hone2 : 1 ≤ (2 : ℝ) ^ (hi / 2 ^ 128 - x) := one_le_two_rpow (by linarith)
  have hpos1 : (0 : ℝ) < 2 ^ ((lo : ℝ) / 2 ^ 128) := Real.rpow_pos_of_pos two_pos _
  have hpos2 : (0 : ℝ) < 2 ^ x := Real.rpow_pos_of_pos two_pos _
  generalize (2 : ℝ) ^ (x - lo / 2 ^ 128) = t1 at *
  generalize (2 : ℝ) ^ (hi / 2 ^ 128 - x) = t2 at *
  generalize (2 : ℝ) ^ ((lo : ℝ) / 2 ^ 128) = y1 at *
  generalize (2 : ℝ) ^ ((hi : ℝ) / 2 ^ 128) = y2 at *
  generalize (2 : ℝ) ^ x = y at *
  have hy1 : y1 ≤ y := hfac1 ▸ le_mul_of_one_le_right hpos1.le hone1
  have hy1' : y ≤ y1 + y1 * ((2 : Nat) / 2 ^ 128) := by rw [hfac1, ← mul_one_add]; gcongr
  have hy2 : y ≤ y2 := hfac2 ▸ le_mul_of_one_le_right hpos2.le hone2
  have hy2' : y2 ≤ y + y * ((2 : Nat) / 2 ^ 128) := by rw [hfac2, ← mul_one_add]; gcongr
  push_cast at hlo hlo' hhi hhi' hy1' hy2'
  constructor
  all_goals
    push_cast
    linarith

end Sys2Proof.Machine
end

section
/-!
VSIGM and VTANH within their bounds of the real functions (03 R112).
-/

namespace Sys2Proof.Machine

/-! ## Enclosing quotients -/

section
variable {p : Fp} (hp : p.IsWide) {n : Nat} (hn : 2 ≤ n) {y : ℝ}
include hp hn

/-- Quotients that enclose a value within 2^-60 of it, rounded down and up. -/
theorem encloses_quotients {g : Int} {x1 d1 x2 d2 : Nat} (hd1 : 0 < d1) (hd2 : 0 < d2) (hlow : (x1 : ℝ) / d1 * 2 ^ g ≤ |y|)
    (hhigh : |y| ≤ (x2 : ℝ) / d2 * 2 ^ g) (hbig : 2 ^ 60 ≤ (x1 : ℝ) / d1)
    (hratio : (x2 : ℝ) / d2 ≤ x1 / d1 * (1 + 1 / 2 ^ 60)) :
    Encloses p n y (x1 / d1) (x2 / d2 + 1) g := by
  obtain ⟨h1, h2⟩ := floor_div_close x1 hd1
  obtain ⟨h3, h4⟩ := floor_div_close x2 hd2
  refine ⟨?_, ?_, close_of_relative hp hn ?_ ?_⟩
  · exact (mul_le_mul_of_nonneg_right h1 (by positivity)).trans hlow
  · push_cast
    exact hhigh.trans (mul_le_mul_of_nonneg_right h4 (by positivity))
  · exact_mod_cast (by linarith : (2 : ℝ) ^ 52 ≤ (x1 / d1 : Nat))
  · push_cast
    linarith

/-- A value within 2^-300 below one. -/
theorem encloses_nearOne (hlow : 1 - ((2 : ℝ) ^ 300)⁻¹ ≤ |y|) (hhigh : |y| ≤ 1) :
    Encloses p n y (2 ^ 300 - 1) (2 ^ 300) (-300) := by
  have hbig : 2 ^ 60 ≤ 2 ^ 300 := by gcongr <;> norm_num
  have hzpow : (2 : ℝ) ^ (-300 : Int) = (((2 ^ 300 : Nat) : ℝ))⁻¹ := by
    rw [zpow_neg, Nat.cast_pow, Nat.cast_ofNat, zpow_ofNat]
  have hT : ((2 : ℝ) ^ 300) = ((2 ^ 300 : Nat) : ℝ) := by rw [Nat.cast_pow, Nat.cast_ofNat]
  rw [hT] at hlow
  clear hT
  generalize 2 ^ 300 = T at *
  have hbig' : (2 : ℝ) ^ 60 ≤ T := by exact_mod_cast hbig
  have hpos : (0 : ℝ) < T := by linarith
  have hcast : ((T - 1 : Nat) : ℝ) = T - 1 := by rw [Nat.cast_sub (by omega), Nat.cast_one]
  refine ⟨?_, ?_, close_of_relative hp hn (by omega) ?_⟩
  · rwa [hzpow, hcast, sub_one_mul, mul_inv_cancel₀ hpos.ne']
  · rwa [hzpow, mul_inv_cancel₀ hpos.ne']
  · rw [hcast]
    linarith

end

/-! ## Brackets of e^x -/

section
variable {E : ℝ} {b1 b2 : Nat} (h : Brackets (2 ^ 160) (2 ^ 35) E b1 b2) (hE : 1 ≤ E)
include h hE

theorem Brackets.ratio : (b2 : ℝ) ≤ b1 * (1 + 1 / 2 ^ 120) := by
  obtain ⟨-, -, h3, h4⟩ := h
  push_cast at h3 h4
  linarith

theorem Brackets.big : (2 : ℝ) ^ 159 ≤ b1 := by
  obtain ⟨-, -, h3, -⟩ := h
  push_cast at h3
  linarith

end

/-! ## VSIGM -/

theorem two_pow_le_exp {v : ℝ} (h : 2 ^ 8 ≤ v) : (2 : ℝ) ^ 300 ≤ Real.exp v := by
  rw [exp_eq_two_rpow, ← Real.rpow_natCast]
  refine Real.rpow_le_rpow_of_exponent_le one_le_two ?_
  rw [le_div_iff₀ (Real.log_pos one_lt_two)]
  push_cast
  linarith [Real.log_two_lt_d9]

theorem exp_le_two_pow {v : ℝ} (h : v ≤ 2 ^ 8) : Real.exp v ≤ (2 : ℝ) ^ 384 := by
  rw [exp_eq_two_rpow, ← Real.rpow_natCast]
  refine Real.rpow_le_rpow_of_exponent_le one_le_two ?_
  rw [div_le_iff₀ (Real.log_pos one_lt_two)]
  push_cast
  linarith [Real.log_two_gt_d9]

theorem lt_two_pow_topExp (m : Nat) (e : Int) : (m : ℝ) * 2 ^ e < 2 ^ (topExp m e + 1) := by
  have hm : (m : ℝ) < 2 ^ bitLen m := by exact_mod_cast lt_two_pow_bitLen m
  rw [show topExp m e + 1 = (bitLen m : Int) + e by unfold topExp; omega, zpow_add₀ two_ne_zero, zpow_natCast]
  gcongr

/-- The quotient of VSIGM of a positive value grows with the bound of e^x. -/
theorem sigm_quotient_mono {S b c : ℝ} (hS : 0 < S) (hb : 0 ≤ b) (h : b ≤ c) : b * S / (b + S) ≤ c * S / (c + S) := by
  rw [div_le_div_iff₀ (by linarith) (by linarith)]
  nlinarith [mul_le_mul_of_nonneg_left h (sq_nonneg S)]

theorem sigm_quotient_eq {S E : ℝ} (hS : 0 < S) (hE : 0 ≤ E) : S * E * S / (S * E + S) = E / (1 + E) * S := by
  field_simp
  ring

/-- Quotients are close where their numerators are. -/
theorem quotient_le {x1 x2 d1 d2 t : ℝ} (hx1 : 0 ≤ x1) (ht : 0 ≤ t) (hx : x2 ≤ x1 * (1 + t)) (hd1 : 0 < d1) (hd : d1 ≤ d2) :
    x2 / d2 ≤ x1 / d1 * (1 + t) := by
  rw [div_mul_eq_mul_div]
  exact div_le_div₀ (by positivity) hx hd1 hd

section
variable {p : Fp} (hp : p.IsWide) {E : ℝ} {b1 b2 : Nat} (h : Brackets (2 ^ 160) (2 ^ 35) E b1 b2) (hE : 1 ≤ E)
include hp h hE

/-- VSIGM of a positive value, from bounds of e^x. -/
theorem sigm_encloses_pos :
    Encloses p 3 (E / (1 + E)) (b1 * 2 ^ 160 / (b1 + 2 ^ 160)) (b2 * 2 ^ 160 / (b2 + 2 ^ 160) + 1) (-160) := by
  have hbig := h.big hE
  have hratio := h.ratio hE
  obtain ⟨h1, h2, -, -⟩ := h
  have hS : (0 : ℝ) < 2 ^ 160 := by positivity
  have hy : |E / (1 + E)| = E / (1 + E) := abs_of_nonneg (by positivity)
  have hunit : (2 : ℝ) ^ (-160 : Int) = (2 ^ 160)⁻¹ := by rw [zpow_neg, zpow_ofNat]
  have hE0 : 0 ≤ E := by linarith
  rw [Nat.cast_pow, Nat.cast_ofNat] at h1 h2
  refine encloses_quotients hp (by decide) (by positivity) (by positivity) ?_ ?_ ?_ ?_
  all_goals simp only [Nat.cast_mul, Nat.cast_add, Nat.cast_pow, Nat.cast_ofNat]
  · rw [hy, hunit, ← div_eq_mul_inv, div_le_iff₀ hS, ← sigm_quotient_eq hS hE0]
    exact sigm_quotient_mono hS (by positivity) h1
  · rw [hy, hunit, ← div_eq_mul_inv, le_div_iff₀ hS, ← sigm_quotient_eq hS hE0]
    exact sigm_quotient_mono hS (by positivity) h2
  · rw [le_div_iff₀ (by positivity)]
    linarith
  · exact quotient_le (by positivity) (by positivity) (by linarith) (by positivity) (by linarith)

/-- VSIGM of a negative value, from bounds of e^|x|. -/
theorem sigm_encloses_neg (hE' : E ≤ 2 ^ 384) :
    Encloses p 3 (1 / (1 + E)) (2 ^ 680 / (b2 + 2 ^ 160)) (2 ^ 680 / (b1 + 2 ^ 160) + 1) (-520) := by
  have hbig := h.big hE
  have hratio := h.ratio hE
  obtain ⟨h1, h2, -, -⟩ := h
  have hy : |1 / (1 + E)| = 1 / (1 + E) := abs_of_nonneg (by positivity)
  have hunit : (2 : ℝ) ^ 680 * 2 ^ (-520 : Int) = 2 ^ 160 := by
    rw [← zpow_natCast, ← zpow_natCast, ← zpow_add₀ two_ne_zero]
    congr 1
  rw [Nat.cast_pow, Nat.cast_ofNat] at h1 h2
  refine encloses_quotients hp (by decide) (by positivity) (by positivity) ?_ ?_ ?_ ?_
  all_goals simp only [Nat.cast_add, Nat.cast_pow, Nat.cast_ofNat]
  · rw [hy, div_mul_eq_mul_div, hunit, div_le_div_iff₀ (by positivity) (by positivity)]
    linarith
  · rw [hy, div_mul_eq_mul_div, hunit, div_le_div_iff₀ (by positivity) (by positivity)]
    linarith
  · rw [le_div_iff₀ (by positivity)]
    have hb2 : (b2 : ℝ) + 2 ^ 160 ≤ 2 ^ 384 * 2 ^ 162 := by
      generalize (2 : ℝ) ^ 384 = C at *
      linarith
    calc (2 : ℝ) ^ 60 * (b2 + 2 ^ 160) ≤ 2 ^ 60 * (2 ^ 384 * 2 ^ 162) := by gcongr
      _ = 2 ^ 606 := by rw [← pow_add, ← pow_add]
      _ ≤ 2 ^ 680 := by gcongr <;> norm_num
  · rw [div_mul_eq_mul_div, div_le_div_iff₀ (by positivity) (by positivity), mul_assoc]
    gcongr
    linarith

end

section
variable {p : Fp} (hp : p.IsWide)
include hp

/-- VSIGM where it is within 2^-300 of one. -/
theorem sigm_encloses_nearOne {E : ℝ} (hE : 2 ^ 300 ≤ E) : Encloses p 3 (E / (1 + E)) (2 ^ 300 - 1) (2 ^ 300) (-300) := by
  have hT : (0 : ℝ) < 2 ^ 300 := by positivity
  generalize hT' : (2 : ℝ) ^ 300 = T at *
  have hE0 : 0 < E := hT.trans_le hE
  have hy : |E / (1 + E)| = E / (1 + E) := abs_of_nonneg (by positivity)
  refine encloses_nearOne hp (by decide) ?_ ?_
  · rw [hT', hy, sub_le_iff_le_add, ← one_div, div_add_div _ _ (by positivity) (by positivity), le_div_iff₀ (by positivity)]
    nlinarith
  · rw [hy, div_le_one (by positivity)]
    linarith

omit hp in
/-- VSIGM where it is below 2^-300. -/
theorem sigm_encloses_nearZero (hq : -300 ≤ p.qmin) {E : ℝ} (hE : 2 ^ 300 ≤ E) : Encloses p 3 (1 / (1 + E)) 0 1 (-300) := by
  have hT : (0 : ℝ) < 2 ^ 300 := by positivity
  refine ⟨by simp, ?_, 0, .inr (by simpa using hq), by decide⟩
  rw [Nat.cast_one, one_mul, zpow_neg, zpow_ofNat]
  generalize (2 : ℝ) ^ 300 = T at *
  have hE0 : 0 < E := hT.trans_le hE
  rw [abs_of_nonneg (by positivity), ← one_div]
  exact one_div_le_one_div_of_le hT (by linarith)

/-- The bound of VSIGM. -/
theorem sigm_approximatesReal (hq : -300 ≤ p.qmin) (fmt code : Nat) (s : Bool) {m : Nat} (hm : m ≠ 0) (e : Int) :
    ApproximatesReal p 3 (p.sigm fmt code s m e) (1 / (1 + Real.exp (-realOf s m e))) := by
  have hv : (0 : ℝ) < m * 2 ^ e := by positivity
  have hE : 1 ≤ Real.exp (m * 2 ^ e) := Real.one_le_exp hv.le
  have hpos : 1 / (1 + Real.exp (-realOf false m e)) = Real.exp (m * 2 ^ e) / (1 + Real.exp (m * 2 ^ e)) := by
    rw [realOf_false, Real.exp_neg]
    field_simp
    ring
  have hneg : 1 / (1 + Real.exp (-realOf true m e)) = 1 / (1 + Real.exp (m * 2 ^ e)) := by simp [realOf]
  unfold Fp.sigm
  dsimp only
  split
  · rename_i htop
    have hbig : (2 : ℝ) ^ 8 ≤ m * 2 ^ e := by
      rw [← zpow_natCast]
      exact (zpow_le_zpow_right₀ one_le_two htop).trans (two_pow_topExp_le hm e)
    cases s
    · rw [hpos, if_neg Bool.false_ne_true]
      exact within_approximatesReal (sigm_encloses_nearOne hp (two_pow_le_exp hbig)) hp (by decide) (by positivity)
        (sign_of_pos (by positivity))
    · rw [hneg, if_pos rfl]
      exact within_approximatesReal (sigm_encloses_nearZero hq (two_pow_le_exp hbig)) hp (by decide) (by positivity)
        (sign_of_pos (by positivity))
  · rename_i htop
    have hsmall : (m : ℝ) * 2 ^ e ≤ 2 ^ 8 := by
      rw [← zpow_natCast]
      exact (lt_two_pow_topExp m e).le.trans (zpow_le_zpow_right₀ one_le_two (by omega))
    have hbounds := expBounds_brackets (hsmall.trans_lt (by norm_num))
    cases s
    · rw [hpos, if_neg Bool.false_ne_true]
      exact within_approximatesReal (sigm_encloses_pos hp hbounds hE) hp (by decide) (by positivity) (sign_of_pos (by positivity))
    · rw [hneg, if_pos rfl]
      exact within_approximatesReal (sigm_encloses_neg hp hbounds hE (exp_le_two_pow hsmall)) hp (by decide) (by positivity)
        (sign_of_pos (by positivity))

end

/-! ## VTANH -/

theorem tanh_eq_exp (v : ℝ) : Real.tanh v = (Real.exp (2 * v) - 1) / (Real.exp (2 * v) + 1) := by
  rw [Real.tanh_eq, two_mul, Real.exp_add, Real.exp_neg]
  field_simp

/-- tanh below a small positive value, by the mean value of sinh and the bound of cosh. -/
theorem tanh_near {v : ℝ} (hv : 0 < v) : v * (1 - v ^ 2) ≤ Real.tanh v ∧ Real.tanh v ≤ v := by
  have hcosh := Real.cosh_pos v
  rw [Real.tanh_eq_sinh_div_cosh, le_div_iff₀ hcosh, div_le_iff₀ hcosh]
  constructor
  · have hexp : Real.cosh v * (1 - v ^ 2) ≤ 1 := by
      have hle : 1 - v ^ 2 ≤ Real.exp (-(v ^ 2 / 2)) := by linarith [Real.add_one_le_exp (-(v ^ 2 / 2)), sq_nonneg v]
      calc Real.cosh v * (1 - v ^ 2) ≤ Real.exp (v ^ 2 / 2) * Real.exp (-(v ^ 2 / 2)) :=
            (mul_le_mul_of_nonneg_left hle hcosh.le).trans
              (mul_le_mul_of_nonneg_right (Real.cosh_le_exp_half_sq v) (Real.exp_pos _).le)
        _ = 1 := by rw [← Real.exp_add, add_neg_cancel, Real.exp_zero]
    calc v * (1 - v ^ 2) * Real.cosh v = v * (Real.cosh v * (1 - v ^ 2)) := by ring
      _ ≤ v * 1 := by gcongr
      _ ≤ Real.sinh v := by rw [mul_one]; exact Real.self_le_sinh_iff.2 hv.le
  · obtain ⟨c, ⟨hc, hcv⟩, hslope⟩ := exists_hasDerivAt_eq_slope Real.sinh Real.cosh hv Real.continuous_sinh.continuousOn
      (fun x _ => Real.hasDerivAt_sinh x)
    rw [Real.sinh_zero, sub_zero, sub_zero, eq_div_iff hv.ne'] at hslope
    rw [← hslope, mul_comm]
    gcongr
    rw [Real.cosh_le_cosh, abs_of_pos hc, abs_of_pos hv]
    exact hcv.le

theorem tanh_realOf (s : Bool) (m : Nat) (e : Int) :
    Real.tanh (realOf s m e) = (if s then -1 else 1) * Real.tanh (m * 2 ^ e) := by
  cases s <;> simp [realOf, Real.tanh_neg]

/-- The quotient of VTANH grows with the bound of e^2x. -/
theorem tanh_quotient_mono {S b c : ℝ} (hS : 0 < S) (hb : 0 ≤ b) (h : b ≤ c) :
    (b - S) * S / (b + S) ≤ (c - S) * S / (c + S) := by
  rw [div_le_div_iff₀ (by linarith) (by linarith)]
  nlinarith [mul_le_mul_of_nonneg_left h (sq_nonneg S)]

theorem tanh_quotient_eq {S E : ℝ} (hS : 0 < S) (hE : 0 ≤ E) : (S * E - S) * S / (S * E + S) = (E - 1) / (E + 1) * S := by
  field_simp

section
variable {p : Fp} (hp : p.IsWide) {y : ℝ}
include hp

/-- VTANH from bounds of e^2x. -/
theorem tanh_encloses {E : ℝ} {b1 b2 : Nat} (h : Brackets (2 ^ 160) (2 ^ 35) E b1 b2) (hE : 1 + 1 / 2 ^ 31 ≤ E)
    (hy : |y| = (E - 1) / (E + 1)) :
    Encloses p 3 y ((b1 - 2 ^ 160) * 2 ^ 160 / (b1 + 2 ^ 160)) ((b2 - 2 ^ 160) * 2 ^ 160 / (b2 + 2 ^ 160) + 1) (-160) := by
  have hE1 : 1 ≤ E := le_trans (by norm_num) hE
  have hratio := h.ratio hE1
  obtain ⟨h1, h2, h3, -⟩ := h
  have hS : (0 : ℝ) < 2 ^ 160 := by positivity
  have hunit : (2 : ℝ) ^ (-160 : Int) = (2 ^ 160)⁻¹ := by rw [zpow_neg, zpow_ofNat]
  rw [Nat.cast_pow, Nat.cast_ofNat] at h1 h2 h3
  have hfar : (2 : ℝ) ^ 128 ≤ b1 - 2 ^ 160 := by linarith
  have hb1 : 2 ^ 160 ≤ b1 := by exact_mod_cast (by linarith : (2 : ℝ) ^ 160 ≤ b1)
  have hb2 : 2 ^ 160 ≤ b2 := by exact_mod_cast (by linarith : (2 : ℝ) ^ 160 ≤ b2)
  refine encloses_quotients hp (by decide) (by positivity) (by positivity) ?_ ?_ ?_ ?_
  all_goals simp only [Nat.cast_mul, Nat.cast_add, Nat.cast_sub hb1, Nat.cast_sub hb2, Nat.cast_pow, Nat.cast_ofNat]
  · rw [hy, hunit, ← div_eq_mul_inv, div_le_iff₀ hS, ← tanh_quotient_eq hS (by linarith)]
    exact tanh_quotient_mono hS (by positivity) h1
  · rw [hy, hunit, ← div_eq_mul_inv, le_div_iff₀ hS, ← tanh_quotient_eq hS (by linarith)]
    exact tanh_quotient_mono hS (by positivity) h2
  · rw [le_div_iff₀ (by positivity)]
    linarith
  · exact quotient_le (mul_nonneg (by linarith) hS.le) (by positivity) (by linarith) (by positivity) (by linarith)

/-- VTANH of a value so large that it is within 2^-300 of one. -/
theorem tanh_encloses_nearOne {v : ℝ} (hv : 2 ^ 8 ≤ v) (hy : |y| = Real.tanh v) :
    Encloses p 3 y (2 ^ 300 - 1) (2 ^ 300) (-300) := by
  have hT := two_pow_le_exp hv
  have hT0 : (2 : ℝ) ≤ 2 ^ 300 := le_self_pow₀ one_le_two (by decide)
  refine encloses_nearOne hp (by decide) ?_ (hy ▸ (Real.tanh_lt_one v).le)
  rw [hy, tanh_eq_exp, two_mul, Real.exp_add]
  generalize (2 : ℝ) ^ 300 = T at *
  generalize Real.exp v = x at *
  have hx : 0 < x := by linarith
  rw [sub_le_iff_le_add, ← one_div, div_add_div _ _ (by positivity) (by positivity), le_div_iff₀ (by positivity)]
  nlinarith

/-- VTANH of a value so small that it is nearly the value. -/
theorem tanh_encloses_small {m : Nat} {e : Int} (hm : m ≠ 0) (hv : (m : ℝ) * 2 ^ e ≤ 1 / 2 ^ 32) (hy : |y| = Real.tanh (m * 2 ^ e)) :
    Encloses p 3 y (m * (2 ^ 64 - 1)) (m * 2 ^ 64) (e - 64) := by
  have hv0 : (0 : ℝ) < m * 2 ^ e := by positivity
  obtain ⟨hlow, hhigh⟩ := tanh_near hv0
  have hunit (x : ℝ) : m * x * 2 ^ (e - 64 : Int) = m * 2 ^ e * (x / 2 ^ 64) := by
    rw [zpow_sub₀ two_ne_zero, zpow_ofNat]
    ring
  have hm1 : 1 ≤ m := Nat.one_le_iff_ne_zero.2 hm
  refine ⟨?_, ?_, close_of_relative hp (by decide) (by omega) ?_⟩
  · rw [hy]
    have hsq : (m * 2 ^ e : ℝ) ^ 2 ≤ (1 / 2 ^ 32) ^ 2 := by gcongr
    push_cast
    rw [hunit]
    refine le_trans ?_ hlow
    gcongr
    linarith
  · rw [hy]
    push_cast
    rw [hunit]
    linarith
  · push_cast
    have : (1 : ℝ) ≤ m := by exact_mod_cast hm1
    linarith

/-- The bound of VTANH. -/
theorem tanh_approximatesReal (fmt code : Nat) (s : Bool) {m : Nat} (hm : m ≠ 0) (e : Int) :
    ApproximatesReal p 3 (p.tanh fmt code s m e) (Real.tanh (realOf s m e)) := by
  have hv : (0 : ℝ) < m * 2 ^ e := by positivity
  have htanh : 0 < Real.tanh (m * 2 ^ e) := by
    rw [Real.tanh_eq_sinh_div_cosh]
    exact div_pos (Real.sinh_pos_iff.2 hv) (Real.cosh_pos _)
  have hy : |Real.tanh (realOf s m e)| = Real.tanh (m * 2 ^ e) := by
    rw [tanh_realOf, abs_mul, abs_of_pos htanh]
    cases s <;> simp
  have hneg : s = true ↔ Real.tanh (realOf s m e) < 0 := by
    rw [tanh_realOf]
    cases s <;> simp [htanh, htanh.le]
  have hne : Real.tanh (realOf s m e) ≠ 0 := abs_pos.1 (hy ▸ htanh)
  unfold Fp.tanh
  dsimp only
  split_ifs with hlarge hsmall
  · refine within_approximatesReal (tanh_encloses_nearOne hp ?_ hy) hp (by decide) hne hneg
    rw [← zpow_natCast]
    exact (zpow_le_zpow_right₀ one_le_two hlarge).trans (two_pow_topExp_le hm e)
  · refine within_approximatesReal (tanh_encloses_small hp hm ?_ hy) hp (by decide) hne hneg
    calc (m : ℝ) * 2 ^ e ≤ 2 ^ (topExp m e + 1) := (lt_two_pow_topExp m e).le
      _ ≤ 2 ^ (-32 : Int) := zpow_le_zpow_right₀ one_le_two (by omega)
      _ = 1 / 2 ^ 32 := by rw [zpow_neg, zpow_ofNat, one_div]
  · have htwice : (m : ℝ) * 2 ^ (e + 1) = 2 * (m * 2 ^ e) := by rw [zpow_add_one₀ two_ne_zero]; ring
    have hhigh : (m : ℝ) * 2 ^ e < 2 ^ 8 := by
      rw [← zpow_natCast]
      exact (lt_two_pow_topExp m e).trans_le (zpow_le_zpow_right₀ one_le_two (by omega))
    have hlow : 1 / 2 ^ 32 ≤ (m : ℝ) * 2 ^ e := by
      calc (1 / 2 ^ 32 : ℝ) = 2 ^ (-32 : Int) := by rw [zpow_neg, zpow_ofNat, one_div]
        _ ≤ 2 ^ topExp m e := zpow_le_zpow_right₀ one_le_two (by omega)
        _ ≤ m * 2 ^ e := two_pow_topExp_le hm e
    have hbounds := expBounds_brackets (m := m) (e := e + 1) (by rw [htwice]; linarith)
    rw [htwice] at hbounds
    have hE : 1 + 1 / 2 ^ 31 ≤ Real.exp (2 * (m * 2 ^ e)) := by linarith [Real.add_one_le_exp (2 * ((m : ℝ) * 2 ^ e))]
    exact within_approximatesReal (tanh_encloses hp hbounds hE (hy.trans (tanh_eq_exp _))) hp (by decide) hne hneg

end

/-! ## The bounds of the four forms -/

/-- Settles O28: integers enclose each function closely enough, and zero is an exact point of VSIGM and VTANH. -/
theorem transcendentalsStayWithinTheirBounds : Obligations.TranscendentalsStayWithinTheirBounds := by
  unfold Obligations.TranscendentalsStayWithinTheirBounds
  intro fmt code s m e hfmt p x h
  have hp : p.IsWide := isWide_ofFmt hfmt
  refine ⟨transcendental_exp2 h ▸ exp2_approximatesReal hp fmt code s m e, fun hs hm => ?_, fun h32 => ?_⟩
  · subst hs
    change ApproximatesReal p 2 _ (Real.logb 2 (realOf false m e))
    rw [realOf_false]
    obtain ⟨-, -, h3, -⟩ := transcendental_fin h hm
    exact h3 ▸ log2_approximatesReal hp h hm fmt
  · by_cases hm : m = 0
    · subst hm
      obtain ⟨-, -, -, h4, h5⟩ := transcendental_zero h
      have hx : x = 0 := by simp [x, realOf]
      rw [hx, neg_zero, Real.exp_zero, one_add_one_eq_two, Real.tanh_zero]
      exact ⟨.inl (h4 ▸ (givesReal_half hp).1), .inl (h5 ▸ ⟨s, 0, e, h, hx⟩)⟩
    · obtain ⟨-, -, -, h4, h5⟩ := transcendental_fin h hm
      have hq : -300 ≤ p.qmin := by subst h32; decide
      exact ⟨h4 ▸ sigm_approximatesReal hp hq fmt code s hm e, h5 ▸ tanh_approximatesReal hp fmt code s hm e⟩

end Sys2Proof.Machine
end

section
/-!
Scalar integer instructions (04 R115, R116).
-/

namespace Sys2Proof.Machine

/-! ## Operands at the start of an instruction -/

@[simp] theorem regOf_begun (s : State) (n : BitVec 6) : regOf (begun s) n = regOf s n := by
  simp [regOf, gRead, gAt]

@[simp] theorem bReadable_begun (s : State) (f : Ext) : BReadable (begun s) f ↔ BReadable s f := by
  simp [BReadable]

@[simp] theorem bData_begun (s : State) (f : Ext) : bData (begun s) f = bData s f := by
  simp [bData]

/-! ## Checks before an effect -/

/-- A failing check traps; where it passes, the computation goes on. -/
theorem act_trapIf_bind {α : Type} (b : Bool) (c : Nat) (i : DWord) (k : Unit → Act α) (s : State) :
    (trapIf b c i >>= k) s = if b = true then .error (.trap c i) else k ⟨⟩ s := by
  cases b <;> rfl

/-! ## The integer shapes -/

theorem aluRR_completes {f : Ext} {s : State} (op : DWord → DWord → DWord) (ha : Readable s f.a f.ta) (hb : BReadable s f)
    (hd : Writable s f.d) : aluRR op f s = .ok (⟨⟩, setData f.d (op (regData s f.a) (bData s f)) s) := by
  unfold aluRR
  rw [act_bind_ok (readData_readable ha), act_bind_ok (readB_readable hb), writeData_writable _ hd]

theorem divRR_eq {f : Ext} {s : State} (op : DWord → DWord → DWord) (ha : Readable s f.a f.ta) (hb : BReadable s f)
    (hd : Writable s f.d) : divRR op f s =
      if bData s f = 0#64 then .error (.trap 0x16 0#64) else .ok (⟨⟩, setData f.d (op (regData s f.a) (bData s f)) s) := by
  unfold divRR
  rw [act_bind_ok (readData_readable ha), act_bind_ok (readB_readable hb), act_trapIf_bind, writeData_writable _ hd]
  simp only [beq_iff_eq]

theorem aluRI_completes {f : Ext} {s : State} (op : DWord → DWord → DWord) (ha : Readable s f.a f.ta)
    (hd : Writable s f.d) : aluRI op f s = .ok (⟨⟩, setData f.d (op (regData s f.a) (imm6 f)) s) := by
  unfold aluRI
  rw [act_bind_ok (readData_readable ha), writeData_writable _ hd]

theorem aluR_completes {f : Ext} {s : State} (op : DWord → DWord) (ha : Readable s f.a f.ta) (hd : Writable s f.d) :
    aluR op f s = .ok (⟨⟩, setData f.d (op (regData s f.a)) s) := by
  unfold aluR
  rw [act_bind_ok (readData_readable ha), writeData_writable _ hd]

section

variable {i : Instr} {op : BitVec 6} {fn : BitVec 4} {f : Ext}

/-- A form that computes `k` of A and B completes with every `g` that agrees with `k`. -/
theorem twoSource_of_aluRR {g k : DWord → DWord → DWord} (hf : i.fields = some (op, fn, f))
    (he : ∀ s, exec i s = instr op fn f (aluRR k f) s) (hg : ∀ a b, k a b = g a b := by intros; rfl) : TwoSource i f g := by
  intro s hr ha hb hd
  refine exec_completes hf (he s) hr ?_
  rw [aluRR_completes k (by simpa using ha) (by simpa using hb) (by simpa using hd), regData_begun, bData_begun, hg]

theorem oneSource_of_aluR {g k : DWord → DWord} (hf : i.fields = some (op, fn, f))
    (he : ∀ s, exec i s = instr op fn f (aluR k f) s) (hg : ∀ a, k a = g a := by intros; rfl) : OneSource i f g := by
  intro s hr ha hd
  refine exec_completes hf (he s) hr ?_
  rw [aluR_completes k (by simpa using ha) (by simpa using hd), regData_begun, hg]

theorem oneSource_of_aluRI {g : DWord → DWord} {k : DWord → DWord → DWord} (hf : i.fields = some (op, fn, f))
    (he : ∀ s, exec i s = instr op fn f (aluRI k f) s) (hg : ∀ a, k a (imm6 f) = g a := by intros; rfl) :
    OneSource i f g := by
  intro s hr ha hd
  refine exec_completes hf (he s) hr ?_
  rw [aluRI_completes k (by simpa using ha) (by simpa using hd), regData_begun, hg]

theorem divides_of_divRR {g k : DWord → DWord → DWord} (hf : i.fields = some (op, fn, f))
    (he : ∀ s, exec i s = instr op fn f (divRR k f) s) (hg : ∀ a b, k a b = g a b) : Divides i f g := by
  intro s hr ha hb hd
  have hbody := divRR_eq (s := begun s) k (by simpa using ha) (by simpa using hb) (by simpa using hd)
  rw [regData_begun, bData_begun, hg] at hbody
  constructor
  · intro hne
    exact exec_completes hf (he s) hr (by rw [hbody, if_neg hne])
  · intro h0
    exact exec_traps hf (he s) hr (by rw [hbody, if_pos h0])

end

/-! ## The operations (04 R115) -/

/-- Bits [127:64] of a number modulo 2^128. -/
theorem extractHigh_ofInt (z : Int) : (BitVec.ofInt 128 z).extractLsb' 64 64 = BitVec.ofInt 64 (z / 2 ^ 64) := by
  apply BitVec.eq_of_toNat_eq
  rw [BitVec.extractLsb'_toNat, BitVec.toNat_ofInt, BitVec.toNat_ofInt, Nat.shiftRight_eq_div_pow]
  omega

theorem mulHigh_eq (a b : DWord) : mulHigh a b = productHigh a.toInt b.toInt := by
  have h : a.signExtend 128 * b.signExtend 128 = BitVec.ofInt 128 (a.toInt * b.toInt) := (BitVec.ofInt_mul _ _).symm
  rw [mulHigh, h, extractHigh_ofInt, productHigh]

theorem mulHighN_eq (a b : DWord) : mulHighN a b = productHigh a.toNat b.toNat := by
  have h : a.setWidth 128 * b.setWidth 128 = BitVec.ofInt 128 ((a.toNat : Int) * b.toNat) := by
    rw [BitVec.ofInt_mul]
    simp [BitVec.ofInt_natCast]
  rw [mulHighN, h, extractHigh_ofInt, productHigh]

theorem rotl_eq (a b : DWord) : rotl a b = a <<< (b.toNat % 64) ||| a >>> (64 - b.toNat % 64) := by
  simp [rotl, shiftCount, BitVec.rotateLeft, BitVec.rotateLeftAux]

theorem rotr_eq (a b : DWord) : rotr a b = a >>> (b.toNat % 64) ||| a <<< (64 - b.toNat % 64) := by
  simp [rotr, shiftCount, BitVec.rotateRight, BitVec.rotateRightAux]

/-- The low six bits of a sign-extended I6 are I6 itself. -/
theorem imm6_mod (f : Ext) : (imm6 f).toNat % 64 = f.b.toNat := by
  unfold imm6
  have h := f.b.isLt
  rw [BitVec.toNat_signExtend, BitVec.toNat_setWidth]
  split <;> omega

/-- A shift by I6 shifts by its six bits. -/
@[simp] theorem shiftCount_imm6 (f : Ext) : shiftCount (imm6 f) = f.b.toNat := imm6_mod f

theorem shl_imm6 (f : Ext) (a : DWord) : shl a (imm6 f) = a <<< f.b.toNat := by simp [shl]

theorem shr_imm6 (f : Ext) (a : DWord) : shr a (imm6 f) = a >>> f.b.toNat := by simp [shr]

theorem shra_imm6 (f : Ext) (a : DWord) : shra a (imm6 f) = a.sshiftRight f.b.toNat := by simp [shra]

theorem rotl_imm6 (f : Ext) (a : DWord) : rotl a (imm6 f) = a <<< f.b.toNat ||| a >>> (64 - f.b.toNat) := by
  rw [rotl_eq, imm6_mod]

theorem rotr_imm6 (f : Ext) (a : DWord) : rotr a (imm6 f) = a >>> f.b.toNat ||| a <<< (64 - f.b.toNat) := by
  rw [rotr_eq, imm6_mod]

theorem sdiv_eq (a b : DWord) : a.sdiv b = BitVec.ofInt 64 (a.toInt.tdiv b.toInt) := by
  apply BitVec.eq_of_toInt_eq
  rw [BitVec.toInt_sdiv, BitVec.toInt_ofInt]

theorem srem_eq (a b : DWord) : a.srem b = BitVec.ofInt 64 (a.toInt - b.toInt * a.toInt.tdiv b.toInt) := by
  rw [← Int.tmod_def, ← BitVec.toInt_srem, BitVec.ofInt_toInt]

theorem udiv_eq (a b : DWord) : a / b = BitVec.ofNat 64 (a.toNat / b.toNat) := by
  rw [← BitVec.toNat_udiv, BitVec.ofNat_toNat, BitVec.setWidth_eq]

theorem umod_eq (a b : DWord) : a % b = BitVec.ofNat 64 (a.toNat - b.toNat * (a.toNat / b.toNat)) := by
  rw [← Nat.mod_eq_sub_mul_div, ← BitVec.toNat_umod, BitVec.ofNat_toNat, BitVec.setWidth_eq]

/-! ## The integer forms -/

theorem integerArithmeticWritesOperationPart : IntegerArithmeticWritesOperationPart :=
  ⟨fun _ => twoSource_of_aluRR rfl fun _ => rfl, fun _ => twoSource_of_aluRR rfl fun _ => rfl,
    fun _ => twoSource_of_aluRR rfl fun _ => rfl, fun _ => twoSource_of_aluRR rfl fun _ => rfl,
    fun _ => twoSource_of_aluRR rfl fun _ => rfl, fun _ => twoSource_of_aluRR rfl fun _ => rfl,
    fun _ => twoSource_of_aluRR rfl (fun _ => rfl) mulHigh_eq, fun _ => twoSource_of_aluRR rfl (fun _ => rfl) mulHigh_eq,
    fun _ => twoSource_of_aluRR rfl (fun _ => rfl) mulHighN_eq, fun _ => twoSource_of_aluRR rfl (fun _ => rfl) mulHighN_eq,
    fun _ => twoSource_of_aluRR rfl fun _ => rfl, fun _ => twoSource_of_aluRR rfl fun _ => rfl,
    fun _ => twoSource_of_aluRR rfl fun _ => rfl, fun _ => twoSource_of_aluRR rfl fun _ => rfl,
    fun _ => twoSource_of_aluRR rfl fun _ => rfl, fun _ => twoSource_of_aluRR rfl fun _ => rfl,
    fun _ => twoSource_of_aluRR rfl fun _ => rfl, fun _ => twoSource_of_aluRR rfl fun _ => rfl,
    fun _ => oneSource_of_aluRI rfl fun _ => rfl, fun _ => oneSource_of_aluRI rfl fun _ => rfl,
    fun _ => twoSource_of_aluRR rfl fun _ => rfl, fun _ => twoSource_of_aluRR rfl fun _ => rfl,
    fun _ => twoSource_of_aluRR rfl fun _ => rfl, fun _ => twoSource_of_aluRR rfl fun _ => rfl,
    fun _ => twoSource_of_aluRR rfl fun _ => rfl, fun _ => twoSource_of_aluRR rfl fun _ => rfl,
    fun _ => twoSource_of_aluRR rfl fun _ => rfl, fun _ => twoSource_of_aluRR rfl fun _ => rfl⟩

theorem shiftsTakeTheCountModulo64Part : ShiftsTakeTheCountModulo64Part :=
  ⟨fun _ => twoSource_of_aluRR rfl fun _ => rfl, fun _ => twoSource_of_aluRR rfl fun _ => rfl,
    fun _ => twoSource_of_aluRR rfl fun _ => rfl, fun _ => twoSource_of_aluRR rfl fun _ => rfl,
    fun _ => twoSource_of_aluRR rfl fun _ => rfl, fun _ => twoSource_of_aluRR rfl fun _ => rfl,
    fun _ => twoSource_of_aluRR rfl (fun _ => rfl) rotl_eq, fun _ => twoSource_of_aluRR rfl (fun _ => rfl) rotl_eq,
    fun _ => twoSource_of_aluRR rfl (fun _ => rfl) rotr_eq, fun _ => twoSource_of_aluRR rfl (fun _ => rfl) rotr_eq,
    fun _ => oneSource_of_aluRI rfl (fun _ => rfl) (shl_imm6 _),
    fun _ => oneSource_of_aluRI rfl (fun _ => rfl) (shl_imm6 _),
    fun _ => oneSource_of_aluRI rfl (fun _ => rfl) (shr_imm6 _),
    fun _ => oneSource_of_aluRI rfl (fun _ => rfl) (shr_imm6 _),
    fun _ => oneSource_of_aluRI rfl (fun _ => rfl) (shra_imm6 _),
    fun _ => oneSource_of_aluRI rfl (fun _ => rfl) (shra_imm6 _),
    fun _ => oneSource_of_aluRI rfl (fun _ => rfl) (rotl_imm6 _),
    fun _ => oneSource_of_aluRI rfl (fun _ => rfl) (rotl_imm6 _),
    fun _ => oneSource_of_aluRI rfl (fun _ => rfl) (rotr_imm6 _),
    fun _ => oneSource_of_aluRI rfl (fun _ => rfl) (rotr_imm6 _)⟩

theorem divisionRoundsTowardZeroPart : DivisionRoundsTowardZeroPart :=
  ⟨fun _ => divides_of_divRR rfl (fun _ => rfl) sdiv_eq, fun _ => divides_of_divRR rfl (fun _ => rfl) sdiv_eq,
    fun _ => divides_of_divRR rfl (fun _ => rfl) udiv_eq, fun _ => divides_of_divRR rfl (fun _ => rfl) udiv_eq,
    fun _ => divides_of_divRR rfl (fun _ => rfl) srem_eq, fun _ => divides_of_divRR rfl (fun _ => rfl) srem_eq,
    fun _ => divides_of_divRR rfl (fun _ => rfl) umod_eq, fun _ => divides_of_divRR rfl (fun _ => rfl) umod_eq⟩

/-- Settles O1: each form is one of four shapes, and its operation is the one of the table. -/
theorem integerFormsWriteOperation : Obligations.IntegerFormsWriteOperation := by
  unfold Obligations.IntegerFormsWriteOperation
  exact ⟨integerArithmeticWritesOperationPart, shiftsTakeTheCountModulo64Part, divisionRoundsTowardZeroPart⟩

end Sys2Proof.Machine
end

section
/-!
Compares, moves, predicate instructions and full/empty states (04 R117 to R119, R137, R138).
-/

namespace Sys2Proof.Machine

@[simp] theorem pReadable_begun (s : State) (n : BitVec 6) : PReadable (begun s) n ↔ PReadable s n := sound_begun _ s

@[simp] theorem predOf_begun (s : State) (n : BitVec 6) : predOf (begun s) n = predOf s n := by
  simp [predOf, pRead]

@[simp] theorem bCap_begun (s : State) (f : Ext) : bCap (begun s) f = bCap s f := by
  simp [bCap]

/-- A predicate register that came back poisoned traps when it is read (13 R362). -/
theorem readP_unsound {n : BitVec 6} {s : State} (h : ¬ PReadable s n) : readP n s = .error (.trap 0x12 0#64) := by
  have hbad : holdsBad (predItems n.toNat) s.cur = true := by simpa [PReadable, Sound] using h
  unfold readP
  rw [act_bind_error (e := .trap 0x12 0#64) (by simp [hbad])]

section

variable {i : Instr} {op : BitVec 6} {fn : BitVec 4} {f : Ext}

/-! ## Compares -/

theorem bne_eq_decide (a b : DWord) : (a != b) = decide (a ≠ b) := by
  rw [bne, beq_eq_decide, decide_not]

theorem compares_of_cmpBody {cc k : DWord → DWord → Bool} (hf : i.fields = some (op, fn, f))
    (he : ∀ s, exec i s = instr op fn f (cmpBody k f) s) (hk : ∀ a b, k a b = cc a b := by intros; rfl) :
    Compares i f cc := by
  intro s hr ha hb
  refine exec_completes hf (he s) hr ?_
  unfold cmpBody
  rw [act_bind_ok (readData_readable (by simpa using ha)), act_bind_ok (readB_readable (by simpa using hb)), act_writeP,
    regData_begun, bData_begun, hk, allOnes]

/-! ## Predicate instructions -/

theorem twoPredicates_of_predRR {g : Word → Word → Word} (hf : i.fields = some (op, fn, f))
    (he : ∀ s, exec i s = instr op fn f (predRR g f) s) : TwoPredicates i f g := by
  intro s hr
  constructor
  · intro ha hb
    refine exec_completes hf (he s) hr ?_
    unfold predRR
    rw [act_bind_ok (readP_sound ((pReadable_begun s _).2 ha)), act_bind_ok (readP_sound ((pReadable_begun s _).2 hb)),
      act_writeP, predOf_begun, predOf_begun]
  · intro hbad
    refine exec_traps hf (he s) hr ?_
    unfold predRR
    by_cases ha : PReadable s f.a
    · have hb : ¬ PReadable (begun s) f.b := by simpa using fun hb => hbad ⟨ha, hb⟩
      rw [act_bind_ok (readP_sound ((pReadable_begun s _).2 ha)), act_bind_error (readP_unsound hb)]
    · rw [act_bind_error (readP_unsound (by simpa using ha))]

theorem onePredicate_of_predR {g : Word → Word} (hf : i.fields = some (op, fn, f))
    (he : ∀ s, exec i s = instr op fn f (predR g f) s) : OnePredicate i f g := by
  intro s hr
  constructor
  · intro ha
    refine exec_completes hf (he s) hr ?_
    unfold predR
    rw [act_bind_ok (readP_sound ((pReadable_begun s _).2 ha)), act_writeP, predOf_begun]
  · intro ha
    refine exec_traps hf (he s) hr ?_
    unfold predR
    rw [act_bind_error (readP_unsound (by simpa using ha))]

/-! ## Moves -/

theorem mov_completes {s : State} (hf : i.fields = some (op, fn, f)) (he : exec i s = instr op fn f (movBody f) s)
    (hr : Runs i s) (ha : Readable s f.a f.ta) (hd : Writable s f.d) :
    exec i s = .next (past f (setReg f.d (regCap s f.a) (begun s))) := by
  refine exec_completes hf he hr ?_
  unfold movBody
  rw [act_bind_ok (readG_readable (by simpa using ha)), writeG_writable _ (by simpa using hd), regCap_begun]

theorem sel_completes {s : State} (hf : i.fields = some (op, fn, f)) (he : exec i s = instr op fn f (selBody f) s)
    (hr : Runs i s) (ha : Readable s f.a f.ta) (hb : BReadable s f) (hc : PReadable s f.c) (hd : Writable s f.d) :
    exec i s = .next (past f (setReg f.d (if (predOf s f.c).getLsbD 0 then regCap s f.a else bCap s f) (begun s))) := by
  refine exec_completes hf he hr ?_
  unfold selBody
  rw [act_bind_ok (readG_readable (by simpa using ha)), act_bind_ok (readBCap_readable (by simpa using hb)),
    act_bind_ok (readP_sound ((pReadable_begun s _).2 hc)), writeG_writable _ (by simpa using hd), regCap_begun, bCap_begun,
    predOf_begun]

theorem li_completes {s : State} (hf : i.fields = some (op, fn, f)) (he : exec i s = instr op fn f (liBody f) s)
    (hr : Runs i s) (hd : Writable s f.d) :
    exec i s = .next (past f (setData f.d (if f.hasLit then f.lit else immediate6 f) (begun s))) :=
  exec_completes hf he hr (writeData_writable _ (by simpa using hd))

theorem pget_completes {s : State} (hf : i.fields = some (op, fn, f)) (he : exec i s = instr op fn f (pgetBody f) s)
    (hr : Runs i s) (ha : PReadable s f.a) (hd : Writable s f.d) :
    exec i s = .next (past f (setData f.d ((predOf s f.a).setWidth 64) (begun s))) := by
  refine exec_completes hf he hr ?_
  unfold pgetBody
  rw [act_bind_ok (readP_sound ((pReadable_begun s _).2 ha)), writeData_writable _ (by simpa using hd), predOf_begun]

theorem pset_completes {s : State} (hf : i.fields = some (op, fn, f)) (he : exec i s = instr op fn f (psetReg f) s)
    (hr : Runs i s) (ha : Readable s f.a f.ta) :
    exec i s = .next (past f (setPred f.d ((regData s f.a).extractLsb' 0 32) (begun s))) := by
  refine exec_completes hf he hr ?_
  unfold psetReg
  rw [act_bind_ok (readData_readable (by simpa using ha)), act_writeP, regData_begun]

/-! ## Full/empty states -/

theorem emptiesG_of_femptyGBody (hf : i.fields = some (op, fn, f)) (he : ∀ s, exec i s = instr op fn f (femptyGBody f) s) :
    EmptiesG i f := by
  intro s hr hd
  refine exec_completes hf (he s) hr ?_
  unfold femptyGBody
  by_cases h0 : f.d = 0#6
  · simp [h0]
  · have hst : s.cur.g[f.d.toNat].st ≠ .pending := hd.resolve_left h0
    simp [h0, act_bind, gAt, hst]

theorem emptiesV_of_femptyVBody (hf : i.fields = some (op, fn, f)) (he : ∀ s, exec i s = instr op fn f (femptyVBody f) s) :
    EmptiesV i f := by
  intro s hr hst
  refine exec_completes hf (he s) hr ?_
  unfold femptyVBody
  simp [act_bind, hst]

theorem holdsValue_iff (st : RegState) : holdsValue st = true ↔ st = .full ∨ st = .poisoned := by
  cases st <;> simp [holdsValue]

theorem testsG_of_ftestGBody (hf : i.fields = some (op, fn, f)) (he : ∀ s, exec i s = instr op fn f (ftestGBody f) s) :
    TestsG i f := by
  intro s hr
  refine exec_completes hf (he s) hr ?_
  have h : gRead (begun s).cur f.a = regOf s f.a := regOf_begun s f.a
  simp only [ftestGBody, act_bind, act_get, h, act_writeP, allOnes, holdsValue_iff]

@[simp] theorem channelReady_begun (s : State) (port : Nat) : channelReady (begun s) port = channelReady s port := by
  unfold channelReady findBand
  simp

theorem testsV_of_ftestVBody (hf : i.fields = some (op, fn, f)) (he : ∀ s, exec i s = instr op fn f (ftestVBody f) s) :
    TestsV i f := by
  intro s hr
  refine ⟨_, exec_completes hf (he s) hr (act_writeP _ _ _), fun h => ?_, fun h => ?_⟩
  · simp [allOnes, h, holdsValue_iff]
  · simp [allOnes, Nat.not_lt.2 h]

end

/-! ## The forms -/

/-- A base word carries no literal. -/
theorem base_hasLit (f : Base) : f.ext.hasLit = false := by simp [Ext.hasLit, Base.ext]

theorem movesCopyValueAndTagPart : MovesCopyValueAndTagPart :=
  ⟨fun f _ => mov_completes (f := f.ext) rfl rfl, fun _ _ => mov_completes rfl rfl, fun _ _ => sel_completes rfl rfl,
    fun f _ hr hd => (li_completes (f := f.ext) rfl rfl hr hd).trans (by rw [base_hasLit, if_neg Bool.false_ne_true]; rfl),
    fun _ _ => li_completes rfl rfl,
    fun f _ => pget_completes (f := f.ext) rfl rfl, fun _ _ => pget_completes rfl rfl⟩

theorem predicateFormsActOnAllBitsPart : PredicateFormsActOnAllBitsPart :=
  ⟨fun _ => twoPredicates_of_predRR rfl fun _ => rfl, fun _ => twoPredicates_of_predRR rfl fun _ => rfl,
    fun _ => twoPredicates_of_predRR rfl fun _ => rfl, fun _ => twoPredicates_of_predRR rfl fun _ => rfl,
    fun _ => twoPredicates_of_predRR rfl fun _ => rfl, fun _ => twoPredicates_of_predRR rfl fun _ => rfl,
    fun _ => onePredicate_of_predR rfl fun _ => rfl, fun _ => onePredicate_of_predR rfl fun _ => rfl,
    fun _ => onePredicate_of_predR rfl fun _ => rfl, fun _ => onePredicate_of_predR rfl fun _ => rfl,
    fun f _ => pset_completes (f := f.ext) rfl rfl, fun _ _ hr => exec_completes rfl rfl hr (act_writeP _ _ _)⟩

theorem fullEmptyFormsPart : FullEmptyFormsPart :=
  ⟨fun _ => emptiesG_of_femptyGBody rfl fun _ => rfl, fun _ => emptiesG_of_femptyGBody rfl fun _ => rfl,
    fun _ => emptiesV_of_femptyVBody rfl fun _ => rfl, fun _ => emptiesV_of_femptyVBody rfl fun _ => rfl,
    fun _ => testsG_of_ftestGBody rfl fun _ => rfl, fun _ => testsG_of_ftestGBody rfl fun _ => rfl,
    fun _ => testsV_of_ftestVBody rfl fun _ => rfl, fun _ => testsV_of_ftestVBody rfl fun _ => rfl⟩

/-- Settles O3: the model's conditions are the orders of signed and of unsigned values. -/
theorem comparesWriteAPredicate : Obligations.ComparesWriteAPredicate := by
  unfold Obligations.ComparesWriteAPredicate
  exact ⟨fun _ => compares_of_cmpBody rfl (fun _ => rfl) beq_eq_decide,
    fun _ => compares_of_cmpBody rfl (fun _ => rfl) beq_eq_decide,
    fun _ => compares_of_cmpBody rfl (fun _ => rfl) bne_eq_decide,
    fun _ => compares_of_cmpBody rfl (fun _ => rfl) bne_eq_decide,
    fun _ => compares_of_cmpBody rfl fun _ => rfl, fun _ => compares_of_cmpBody rfl fun _ => rfl,
    fun _ => compares_of_cmpBody rfl fun _ => rfl, fun _ => compares_of_cmpBody rfl fun _ => rfl,
    fun _ => compares_of_cmpBody rfl fun _ => rfl, fun _ => compares_of_cmpBody rfl fun _ => rfl,
    fun _ => compares_of_cmpBody rfl fun _ => rfl, fun _ => compares_of_cmpBody rfl fun _ => rfl,
    fun _ => compares_of_cmpBody rfl fun _ => rfl, fun _ => compares_of_cmpBody rfl fun _ => rfl,
    fun _ => compares_of_cmpBody rfl fun _ => rfl, fun _ => compares_of_cmpBody rfl fun _ => rfl,
    fun _ => compares_of_cmpBody rfl fun _ => rfl, fun _ => compares_of_cmpBody rfl fun _ => rfl,
    fun _ => compares_of_cmpBody rfl fun _ => rfl, fun _ => compares_of_cmpBody rfl fun _ => rfl⟩

/-- Settles O11: moves, predicate forms and full/empty forms each complete by the rule of their shape. -/
theorem movesAndPredicateFormsComplete : Obligations.MovesAndPredicateFormsComplete := by
  unfold Obligations.MovesAndPredicateFormsComplete
  exact ⟨movesCopyValueAndTagPart, predicateFormsActOnAllBitsPart, fullEmptyFormsPart⟩

end Sys2Proof.Machine
end

section
/-!
Control flow (04 R130 to R132).
-/

namespace Sys2Proof.Machine

/-! ## How a form that sets the pc ends -/

section

variable {i : Instr} {op : BitVec 6} {fn : BitVec 4} {f : Ext} {body : Act Unit} {s : State}

/-- Where the body of a form that jumps completes, its state is the instruction's. -/
theorem exec_jumps {t : State} (hf : i.fields = some (op, fn, f)) (he : exec i s = jumpInstr op fn f body s) (hr : Runs i s)
    (hb : body (begun s) = .ok (⟨⟩, t)) : exec i s = .next t := by
  obtain ⟨ha, hen⟩ := (runs_iff hf s).1 hr
  exact he.trans (jumpInstr_runs ha hen hb)

theorem exec_jump_traps {cause : Nat} {info : DWord} (hf : i.fields = some (op, fn, f))
    (he : exec i s = jumpInstr op fn f body s) (hr : Runs i s) (hb : body (begun s) = .error (.trap cause info)) :
    exec i s = .next (afterTrap cause info s) := by
  obtain ⟨ha, hen⟩ := (runs_iff hf s).1 hr
  exact he.trans (instrWith_ends ha hen hb)

end

/-! ## Where the pc goes -/

@[simp] theorem branchTarget_begun (s : State) (f : Ext) : branchTarget (begun s) f = branchTarget s f := by
  simp [branchTarget]

@[simp] theorem afterWords_begun (s : State) (f : Ext) : afterWords (begun s) f = afterWords s f := by
  simp [afterWords]

@[simp] theorem branchTarget_setData (n : BitVec 6) (x : DWord) (s : State) (f : Ext) :
    branchTarget (setData n x s) f = branchTarget s f := by
  simp [branchTarget, setData]

@[simp] theorem afterWords_setData (n : BitVec 6) (x : DWord) (s : State) (f : Ext) :
    afterWords (setData n x s) f = afterWords s f := by
  simp [afterWords, setData]

theorem branchTo_eq (f : Ext) (s : State) : branchTo f s = .ok (⟨⟩, atPc (branchTarget s f) s) := rfl

theorem advance_eq (f : Ext) (s : State) : advance f s = .ok (⟨⟩, atPc (afterWords s f) s) := rfl

/-! ## Branches -/

/-- BRP branches by the test that SUB names (02 R71). -/
theorem brpTest_iff {sub : BitVec 8} (h : sub.toNat ≤ 2) (p : Word) : brpTest sub.toNat p = true ↔
    (sub = 0#8 ∧ p ≠ 0#32) ∨ (sub = 1#8 ∧ p = 0xFFFFFFFF#32) ∨ (sub = 2#8 ∧ p = 0#32) := by
  obtain rfl | rfl | rfl : sub = 0#8 ∨ sub = 1#8 ∨ sub = 2#8 := by bv_omega
  all_goals simp [brpTest]

theorem brp_branches {f : Ext} {s : State} (hr : Runs (.brp f) s) (hsub : f.sub.toNat ≤ 2) (hc : PReadable s f.c) :
    exec (.brp f) s = .next (atPc
      (if (f.sub = 0#8 ∧ predOf s f.c ≠ 0#32) ∨ (f.sub = 1#8 ∧ predOf s f.c = 0xFFFFFFFF#32) ∨
          (f.sub = 2#8 ∧ predOf s f.c = 0#32)
       then branchTarget s f else afterWords s f) (begun s)) := by
  refine exec_jumps (body := brpBody f) rfl rfl hr ?_
  unfold brpBody
  rw [act_bind_ok (readP_sound ((pReadable_begun s _).2 hc)), predOf_begun, act_ite, branchTo_eq, advance_eq,
    branchTarget_begun, afterWords_begun]
  simp only [← brpTest_iff hsub]
  split <;> rfl

theorem brp_poisoned {f : Ext} {s : State} (hr : Runs (.brp f) s) (hc : ¬ PReadable s f.c) :
    exec (.brp f) s = .next (afterTrap 0x12 0#64 s) := by
  refine exec_jump_traps (body := brpBody f) rfl rfl hr ?_
  unfold brpBody
  rw [act_bind_error (readP_unsound (by simpa using hc))]

theorem call_links {f : Ext} {s : State} (hr : Runs (.call f) s) (hd : Writable s f.d) :
    exec (.call f) s = .next (atPc (branchTarget s f) (setData f.d (afterWords s f) (begun s))) := by
  refine exec_jumps (body := callBody f) rfl rfl hr ?_
  have hlink : nextPc (begun s).cur f = afterWords s f := afterWords_begun s f
  unfold callBody
  rw [act_bind_ok (act_get _), hlink, act_bind_ok (writeData_writable _ (by simpa using hd)), branchTo_eq,
    branchTarget_setData, branchTarget_begun]

section

variable {i : Instr} {op : BitVec 6} {fn : BitVec 4} {f : Ext}

theorem returns_of_retBody (hf : i.fields = some (op, fn, f)) (he : ∀ s, exec i s = jumpInstr op fn f (retBody f) s) :
    Returns i f := by
  intro s hr ha
  have hbody : retBody f (begun s) =
      if (regData s f.a).extractLsb' 0 2 = 0#2 then .ok (⟨⟩, atPc (regData s f.a) (begun s))
      else .error (.trap 0x08 (regData s f.a)) := by
    unfold retBody
    rw [act_bind_ok (readData_readable (by simpa using ha)), regData_begun, act_trapIf_bind]
    by_cases h : (regData s f.a).extractLsb' 0 2 = 0#2 <;> simp [h, atPc]
  constructor
  · intro h
    exact exec_jumps hf (he s) hr (by rw [hbody, if_pos h])
  · intro h
    exact exec_jump_traps hf (he s) hr (by rw [hbody, if_neg h])

theorem jumpsThrough_of_jmpcBody (hf : i.fields = some (op, fn, f)) (he : ∀ s, exec i s = jumpInstr op fn f (jmpcBody f) s) :
    JumpsThrough i f := by
  intro s hr ha
  have hbody : jmpcBody f (begun s) =
      if (regCap s f.a).tag = false then .error (.trap 0x04 (regData s f.a))
      else if 1 < capType (regCap s f.a).val then .error (.trap 0x07 (regData s f.a))
      else .ok (⟨⟩, { begun s with cur := { (begun s).cur with
        code := capWithType (regCap s f.a).val 0, pc := regData s f.a } }) := by
    unfold jmpcBody
    rw [act_bind_ok (readG_readable (by simpa using ha)), regCap_begun, act_trapIf_bind, act_trapIf_bind, act_modCur]
    simp only [Bool.not_eq_true', decide_eq_true_eq]
    rfl
  refine ⟨fun ht ho => ?_, fun ht => ?_, fun ht ho => ?_⟩
  · exact exec_jumps hf (he s) hr (by rw [hbody, if_neg (by simp [ht]), if_neg (Nat.not_lt.2 ho)])
  · exact exec_jump_traps hf (he s) hr (by rw [hbody, if_pos ht])
  · exact exec_jump_traps hf (he s) hr (by rw [hbody, if_neg (by simp [ht]), if_pos ho])

end

/-! ## The forms -/

theorem branchesSetThePcPart : BranchesSetThePcPart :=
  ⟨fun f s hr => exec_jumps rfl rfl hr (by rw [branchTo_eq, branchTarget_begun]), fun _ _ => brp_branches,
    fun _ _ => brp_poisoned, fun _ _ => call_links, fun _ => returns_of_retBody rfl fun _ => rfl,
    fun _ => returns_of_retBody rfl fun _ => rfl⟩

theorem jmpcInstallsACodeCapabilityPart : JmpcInstallsACodeCapabilityPart :=
  ⟨fun _ => jumpsThrough_of_jmpcBody rfl fun _ => rfl, fun _ => jumpsThrough_of_jmpcBody rfl fun _ => rfl⟩

theorem loopCountsDownPart : LoopCountsDownPart := by
  intro f s hr ha hw
  have hread : readData f.a f.ta (begun s) = .ok (regData s f.a, begun s) := by
    rw [readData_readable (by simpa using ha), regData_begun]
  constructor
  · intro h0
    refine exec_jumps (body := loopBody f) rfl rfl hr ?_
    unfold loopBody
    rw [act_bind_ok hread, if_pos h0, advance_eq, afterWords_begun]
  · intro hne
    refine exec_jumps (body := loopBody f) rfl rfl hr ?_
    unfold loopBody
    rw [act_bind_ok hread, if_neg hne, act_bind_ok (writeData_writable _ (by simpa using hw)), act_ite, advance_eq, branchTo_eq,
      branchTarget_setData, afterWords_setData, branchTarget_begun, afterWords_begun]
    split <;> rfl

/-- Settles O9: each form's body sets the pc to the target, or to the address after the last word. -/
theorem branchesSetThePc : Obligations.BranchesSetThePc := by
  unfold Obligations.BranchesSetThePc
  exact ⟨branchesSetThePcPart, jmpcInstallsACodeCapabilityPart, loopCountsDownPart⟩

end Sys2Proof.Machine
end

section
/-!
END of an actor firing (04 R133).
-/

namespace Sys2Proof.Machine

/-! ## Instances of bands -/

/-- A band and one of its instances, as a state holds them. -/
def HoldsInstance (s : State) (e gang inst : Nat) (b : Band) (i : Instance) : Prop :=
  findBand s e = some b ∧ findInstance b gang inst = some i

theorem findBand_map {s : State} {g : Band → Band} (hg : ∀ b, (g b).entry = b.entry) (e : Nat) :
    findBand { s with bands := s.bands.map g } e = (findBand s e).map g := by
  simp [findBand, List.find?_map, hg]

theorem findInstance_map {b : Band} {g : Instance → Instance} (hg : ∀ i, (g i).gang = i.gang ∧ (g i).index = i.index)
    (gang inst : Nat) :
    findInstance { b with instances := b.instances.map g } gang inst = (findInstance b gang inst).map g := by
  simp [findInstance, List.find?_map, hg]

/-- A change of one Instance reaches it alone, and keeps the band's clock. -/
theorem HoldsInstance.modInstance {s : State} {e gang inst : Nat} {b : Band} {i : Instance}
    (h : HoldsInstance s e gang inst b i) {f : Instance → Instance} (hf : ∀ i, (f i).gang = i.gang ∧ (f i).index = i.index)
    (band g n : Nat) : ∃ b', HoldsInstance (modInstance band g n f s) e gang inst b'
        (if b.entry = band ∧ i.gang = g ∧ i.index = n then f i else i) ∧ b'.endClock = b.endClock := by
  obtain ⟨hb, hi⟩ := h
  have hband : findBand (Machine.modInstance band g n f s) e = some (if b.entry = band then
      { b with instances := b.instances.map (fun i => if i.gang = g ∧ i.index = n then f i else i) } else b) := by
    have := findBand_map (s := s) (g := fun b => if b.entry = band then
      { b with instances := b.instances.map (fun i => if i.gang = g ∧ i.index = n then f i else i) } else b)
      (fun b => by split <;> rfl) e
    rwa [hb] at this
  refine ⟨_, ⟨hband, ?_⟩, by split <;> rfl⟩
  by_cases he : b.entry = band
  · rw [if_pos he, findInstance_map (fun i => by split <;> simp [hf]), hi]
    simp [he]
  · simp [he, hi]

/-- The Instance that a band is found with has the name it is found by. -/
theorem HoldsInstance.named {s : State} {e gang inst : Nat} {b : Band} {i : Instance} (h : HoldsInstance s e gang inst b i) :
    b.entry = e ∧ i.gang = gang ∧ i.index = inst := by
  have hb := List.find?_some h.1
  have hi := List.find?_some h.2
  simpa using And.intro hb hi

/-! ## The steps of END -/

/-- What END leaves in a band and an Instance of it: a clock, IDLE, a number of firings, and what is left in its FIFOs. -/
def ClosedAs (clock : List Nat) (count : Nat) (fifos : List (List Sent)) (b : Band) (i : Instance) : Prop :=
  b.endClock = clock ∧ i.state = .idle ∧ i.count = count ∧ i.fifos = fifos

/-- A state whose bands alone differ from those of `s`, with one Instance closed. -/
def ClosesIn (s : State) (e gang inst : Nat) (clock : List Nat) (count : Nat) (fifos : List (List Sent)) (t : State) : Prop :=
  t = { s with bands := t.bands } ∧ ∃ b i, HoldsInstance t e gang inst b i ∧ ClosedAs clock count fifos b i

/-- The slots that END gives back are no part of what it leaves closed. -/
theorem ClosesIn.release {s t : State} {e gang inst count : Nat} {clock : List Nat} {fifos : List (List Sent)}
    (h : ClosesIn s e gang inst clock count fifos t) (band g n : Nat) (reserved : Instance → List Nat) :
    ClosesIn s e gang inst clock count fifos (modInstance band g n (fun d => { d with reserved := reserved d }) t) := by
  obtain ⟨hs, b, i, hi, hclock, hclosed⟩ := h
  obtain ⟨b', hi', hclock'⟩ := hi.modInstance (f := fun d => { d with reserved := reserved d }) (fun _ => ⟨rfl, rfl⟩)
    band g n
  refine ⟨?_, b', _, hi', hclock'.trans hclock, ?_⟩
  · rw [hs]
    rfl
  · split <;> exact hclosed

/-- Steps 4 and 5 of END (04 R133). -/
theorem closeInstance_closes {s : State} {b₀ b : Band} {i : Instance} {t : Thread}
    (h : HoldsInstance s b₀.entry t.fid.gang t.fid.inst b i) :
    ClosesIn s b₀.entry t.fid.gang t.fid.inst b.endClock (i.count + 1)
      ((List.range 4).map (fun k => (i.fifos.getD k []).drop (inRate b₀ k - t.popped.getD k 0))) (closeInstance b₀ t s) := by
  obtain ⟨b', hi', hclock⟩ := h.modInstance (f := fun i => { i with
      state := .idle
      count := i.count + 1
      fifos := (List.range 4).map (fun k => (i.fifos.getD k []).drop (inRate b₀ k - t.popped.getD k 0)) })
    (fun _ => ⟨rfl, rfl⟩) b₀.entry t.fid.gang t.fid.inst
  rw [if_pos h.named] at hi'
  unfold closeInstance
  dsimp only
  split
  · exact ⟨rfl, b', _, hi', hclock, rfl, rfl, rfl⟩
  · refine foldl_keeps _ (ClosesIn s _ _ _ _ _ _) (fun u j hu => ?_) _ ⟨rfl, b', _, hi', hclock, rfl, rfl, rfl⟩
    split
    · split
      · exact hu.release _ _ _ _
      · exact hu
    · exact hu

theorem settleStores_none {b : Band} {s : State} (h : s.cur.remoteStores = []) : settleStores b s = .ok (⟨⟩, s) := by
  simp [settleStores, act_bind, h, modBand]

/-- The state in which END closes its Instance: the thread is free, and the band follows what the firing has seen. -/
def leftBy (b : Band) (s : State) : State :=
  { s with
    cur := { Thread.idle with pos := s.cur.pos }
    bands := s.bands.map (fun x =>
      if x.entry = b.entry then { x with endClock := clockMerge x.endClock (s.mem.clockAt (eyeOf s.cur)) } else x) }

theorem findBand_leftBy {s : State} {b : Band} {e : Nat} (h : findBand s e = some b) :
    findBand (leftBy b s) e = some { b with endClock := clockMerge b.endClock (s.mem.clockAt (eyeOf s.cur)) } := by
  refine (findBand_map (s := { s with cur := { Thread.idle with pos := s.cur.pos } }) (fun x => by split <;> rfl) e).trans ?_
  rw [show findBand { s with cur := { Thread.idle with pos := s.cur.pos } } e = some b from h, Option.map_some, if_pos rfl]

/-- END of an actor firing with nothing outstanding. -/
theorem closeFiring_firing {s : State} {b : Band} (hduty : s.cur.duty = .firing) (hb : findBand s s.cur.fid.band = some b)
    (hp : anyPending s.cur = false) (hn : s.cur.rcalln = 0) (hrec : s.cur.rcallRecord = none)
    (hst : s.cur.remoteStores = []) (ht : s.cur.trapped = false) :
    closeFiring s = .ok (⟨⟩, closeInstance b s.cur (leftBy b s)) := by
  have hband : getBand s = .ok (b, s) := by simp [getBand, act_bind, bandOf, hduty, hb]
  have hwait : waitIf (anyPending s.cur || s.cur.rcalln != 0) s = .ok (⟨⟩, s) := by simp [hp, hn]
  unfold closeFiring
  rw [act_bind_ok (act_get s), act_bind_ok hband, act_bind_ok hwait]
  simp only [hrec, hduty, ht]
  rw [act_bind_ok (settleStores_none hst)]
  rfl

theorem begun_duty_firing {s : State} (h : s.cur.duty = .firing) : (begun s).cur.duty = .firing := by
  simp [begun, beginInstr, countExecuted, h]

/-- The instruction closes the firing in the state that the common frame hands it. -/
theorem endFiring_closes {f : Base} {s : State} {b : Band} (hr : Runs (.endFiring f) s) (hduty : s.cur.duty = .firing)
    (hb : findBand s s.cur.fid.band = some b) (hp : anyPending s.cur = false) (hn : s.cur.rcalln = 0)
    (hrec : s.cur.rcallRecord = none) (hst : s.cur.remoteStores = []) (ht : s.cur.trapped = false) :
    exec (.endFiring f) s = .next (closeInstance b (begun s).cur (leftBy b (begun s))) := by
  refine exec_jumps (body := endDuty) rfl rfl hr ?_
  have hend : endDuty (begun s) = closeFiring (begun s) := by simp [endDuty, act_bind, begun_duty_firing hduty]
  rw [hend]
  exact closeFiring_firing (begun_duty_firing hduty) (by simpa [findBand] using hb) (by simpa [anyPending] using hp)
    (by simpa using hn) (by simpa using hrec) (by simpa using hst) (by simpa using ht)

/-- Settles O12: the firing's band is that of its thread, and giving back reserved slots leaves its Instance closed. -/
theorem endClosesTheFiring : Obligations.EndClosesTheFiring := by
  unfold Obligations.EndClosesTheFiring
  intro f s b i hr hduty hb hi hp hn hrec hst ht
  have hentry : b.entry = (begun s).cur.fid.band := by simpa using List.find?_some hb
  have heye : eyeOf (begun s).cur = eyeOf s.cur := by simp [eyeOf, agentId, hduty, begun_duty_firing hduty]
  have hleft := findBand_leftBy (s := begun s) (b := b) (e := b.entry) (by rw [hentry]; simpa [findBand] using hb)
  obtain ⟨hsame, b', i', hheld, hclock, hstate, hcount, hfifos⟩ :=
    closeInstance_closes (s := leftBy b (begun s)) (b₀ := b) (t := (begun s).cur) (i := i)
      ⟨hleft, by simpa [findInstance] using hi⟩
  refine ⟨_, endFiring_closes hr hduty hb hp hn hrec hst ht, ?_, ?_, ?_, ?_, ?_, ?_, b', i', hheld.1, ?_, ?_, hstate, hcount, ?_⟩
  · rw [hsame]; simp [leftBy]
  · rw [hsame]; rfl
  · rw [hsame]; rfl
  · rw [hsame]; rfl
  · rw [hsame]; rfl
  · rw [hsame]; rfl
  · simpa using hheld.2
  · rw [hclock, heye, begun_mem]
  · intro k hk
    simp [hfifos, hk]

end Sys2Proof.Machine
end

section
/-!
Bit counts, reversals, extensions and field operations (04 R117).
-/

namespace Sys2Proof.Machine

/-! ## Counts -/

theorem clz64_good (a : DWord) : ClzGood a (clz64 a) := by
  have hle : bitLen a.toNat ≤ 64 := by
    by_contra h
    have hne : a.toNat ≠ 0 := fun h0 => h (by simp [h0, bitLen])
    have := two_pow_bitLen_le hne
    have := Nat.pow_le_pow_right two_pos (show 64 ≤ bitLen a.toNat - 1 by omega)
    have := a.isLt
    omega
  have hn : (clz64 a).toNat = 64 - bitLen a.toNat := by simp [clz64, w64]; omega
  unfold ClzGood CountsZeros
  rw [hn]
  refine ⟨Nat.sub_le _ _, fun j hj => ?_, fun h => ?_, fun h => by simp [h, bitLen]⟩
  · refine Nat.testBit_lt_two_pow (lt_of_lt_of_le (lt_two_pow_bitLen a.toNat) ?_)
    exact Nat.pow_le_pow_right two_pos (by omega)
  · have hne : a.toNat ≠ 0 := fun h0 => by simp [h0, bitLen] at h
    have hlog : 63 - (64 - bitLen a.toNat) = a.toNat.log2 := by
      have : bitLen a.toNat = a.toNat.log2 + 1 := by simp [bitLen, hne]
      omega
    exact (congrArg a.getLsbD hlog).trans (Nat.testBit_log2 hne)

/-- The bits from 64 − n up to the first one bit are zero. -/
theorem trailing_counts (a : DWord) {n : Nat} (hn : n ≤ 64) : trailing a n ≤ n ∧
    (∀ j, j < trailing a n → a.getLsbD (64 - n + j) = false) ∧
    (trailing a n < n → a.getLsbD (64 - n + trailing a n) = true) := by
  induction n with
  | zero => simp [trailing]
  | succ k ih =>
    obtain ⟨hle, hzero, hone⟩ := ih (by omega)
    by_cases hbit : a.getLsbD (64 - (k + 1)) = true
    · rw [trailing, if_pos hbit]
      exact ⟨Nat.zero_le _, fun j hj => absurd hj (Nat.not_lt_zero j), fun _ => hbit⟩
    · rw [trailing, if_neg hbit]
      refine ⟨by omega, fun j hj => ?_, fun h => ?_⟩
      · cases j with
        | zero => simpa using hbit
        | succ j => rw [← hzero j (by omega)]; congr 1; omega
      · rw [← hone (by omega)]; congr 1; omega

theorem ctz64_good (a : DWord) : CtzGood a (ctz64 a) := by
  obtain ⟨hle, hzero, hone⟩ := trailing_counts a le_rfl
  have hn : (ctz64 a).toNat = trailing a 64 := by simp [ctz64, w64]; omega
  simp only [Nat.sub_self, Nat.zero_add] at hzero hone
  unfold CtzGood CountsZeros
  rw [hn]
  refine ⟨hle, hzero, hone, fun h => ?_⟩
  subst h
  by_contra hne
  simpa using hone (by omega)

theorem ones_eq (a : DWord) (n : Nat) : ones a n = ((List.range n).filter (fun j => a.getLsbD j)).length := by
  induction n with
  | zero => rfl
  | succ k ih =>
    rw [ones, ih, List.range_succ, List.filter_append, List.length_append]
    cases h : a.getLsbD k <;> simp [h]

theorem popc64_good (a : DWord) : PopcGood a (popc64 a) := by
  have hle : ones a 64 ≤ 64 := by
    rw [ones_eq]
    exact (List.length_filter_le _ _).trans_eq List.length_range
  unfold PopcGood
  rw [← ones_eq]
  simp [popc64, w64]
  omega

/-! ## Reversals -/

theorem reverseBits_dvd (a : DWord) (n : Nat) : 2 ^ (64 - n) ∣ reverseBits a n := by
  induction n with
  | zero => simp [reverseBits]
  | succ k ih =>
    refine Nat.dvd_add ((Nat.pow_dvd_pow 2 (by omega)).trans ih) ?_
    split
    · exact Nat.pow_dvd_pow 2 (by omega)
    · exact dvd_zero _

/-- Bit 63 − k goes to bit k, for the bits met so far. -/
theorem reverseBits_testBit (a : DWord) {n : Nat} (hn : n ≤ 64) {i : Nat} (hi : i < 64) :
    (reverseBits a n).testBit i = (decide (64 - n ≤ i) && a.getLsbD (63 - i)) := by
  induction n with
  | zero => simp [reverseBits, hi]
  | succ k ih =>
    obtain ⟨q, hq⟩ := reverseBits_dvd a k
    have hbit : (if a.getLsbD k then 2 ^ (63 - k) else 0) < 2 ^ (64 - k) := by
      split
      · exact Nat.pow_lt_pow_right one_lt_two (by omega)
      · exact Nat.two_pow_pos _
    specialize ih (by omega)
    rw [hq, Nat.testBit_two_pow_mul] at ih
    rw [reverseBits, hq, Nat.testBit_two_pow_mul_add _ hbit]
    by_cases hlt : i < 64 - k
    · rw [if_pos hlt, apply_ite (Nat.testBit · i), Nat.testBit_two_pow, Nat.zero_testBit]
      by_cases heq : 63 - k = i
      · rw [decide_eq_true (show 64 - (k + 1) ≤ i by omega), show 63 - i = k by omega]
        simp [heq]
      · rw [decide_eq_false (show ¬ 64 - (k + 1) ≤ i by omega)]
        simp [heq]
    · rw [if_neg hlt]
      rw [decide_eq_true (show 64 - (k + 1) ≤ i by omega)]
      simpa [Nat.not_lt.1 hlt] using ih

theorem brev64_good (a : DWord) : BrevGood a (brev64 a) := by
  intro i hi
  rw [brev64, w64, BitVec.getLsbD_ofNat, reverseBits_testBit a le_rfl hi]
  simp [hi]

theorem bytesNat_byte (bs : List Byte) (i : Nat) : bytesNat bs / 256 ^ i % 256 = (bs.getD i 0#8).toNat := by
  induction bs generalizing i with
  | nil => simp [bytesNat]
  | cons b rest ih =>
    have hb := b.isLt
    cases i with
    | zero => simpa [bytesNat] using hb
    | succ i =>
      rw [List.getD_cons_succ, ← ih, bytesNat, Nat.pow_succ', ← Nat.div_div_eq_div_mul]
      congr 2
      omega

theorem natBytes_byte {n i : Nat} (h : i < n) (x : Nat) : (natBytes n x).getD i 0#8 = BitVec.ofNat 8 (x / 256 ^ i) := by
  induction n generalizing x i with
  | zero => exact absurd h (Nat.not_lt_zero i)
  | succ n ih =>
    cases i with
    | zero => simp [natBytes]
    | succ i => rw [natBytes, List.getD_cons_succ, ih (by omega), Nat.pow_succ', Nat.div_div_eq_div_mul]

theorem bswap64_good (a : DWord) : BswapGood a (bswap64 a) := by
  intro i hi
  have hlt : bytesNat (natBytes 8 a.toNat).reverse < 2 ^ 64 := by
    simpa [natBytes_length] using bytesNat_lt (natBytes 8 a.toNat).reverse
  have hpow (k : Nat) : 2 ^ (8 * k) = 256 ^ k := Nat.pow_mul 2 8 k
  apply BitVec.eq_of_toNat_eq
  rw [BitVec.extractLsb'_toNat, BitVec.extractLsb'_toNat, Nat.shiftRight_eq_div_pow, Nat.shiftRight_eq_div_pow, hpow, hpow,
    bswap64, w64, BitVec.toNat_ofNat, Nat.mod_eq_of_lt hlt]
  refine (bytesNat_byte _ i).trans ?_
  rw [List.getD_reverse _ (by simpa [natBytes_length] using hi), natBytes_length, natBytes_byte (by omega), BitVec.toNat_ofNat]

/-! ## Extensions -/

theorem fieldWidth_imm6 (f : Ext) : fieldWidth (imm6 f).toNat = Sys2Proof.widthOf f.b.toNat := by
  rw [fieldWidth, imm6_mod, Sys2Proof.widthOf, Nat.mod_eq_of_lt f.b.isLt]

theorem widthOf_pos (n : Nat) : 0 < Sys2Proof.widthOf n := by
  unfold Sys2Proof.widthOf
  split <;> omega

/-- A field is negative exactly when its highest bit is set. -/
theorem sext_eq (a : DWord) {w : Nat} (hw : 0 < w) : sext a w = signField a w := by
  obtain ⟨k, rfl⟩ := Nat.exists_eq_succ_of_ne_zero hw.ne'
  have hbit : a.getLsbD k = decide (2 ^ k ≤ a.toNat % 2 ^ (k + 1)) := by
    have htop : a.toNat % 2 ^ (k + 1) / 2 ^ k = a.toNat / 2 ^ k % 2 := by
      rw [Nat.pow_succ, Nat.mod_mul_right_div_self]
    have hle : 2 ^ k ≤ a.toNat % 2 ^ (k + 1) ↔ 0 < a.toNat % 2 ^ (k + 1) / 2 ^ k := by
      simp [Nat.div_pos_iff]
    rw [BitVec.getLsbD, Nat.testBit_eq_decide_div_mod_eq, decide_eq_decide, hle, htop]
    omega
  simp only [sext, signField, toSigned, Nat.succ_eq_add_one, Nat.add_sub_cancel, hbit, decide_eq_true_eq]
  by_cases h : a.toNat % 2 ^ (k + 1) < 2 ^ k
  · rw [if_pos h, if_neg (Nat.not_le.2 h)]
  · rw [if_neg h, if_pos (Nat.not_lt.1 h)]

theorem getLsbD_zext (a : DWord) (w : Nat) {j : Nat} (hj : j < 64) :
    (zext a w).getLsbD j = (decide (j < w) && a.getLsbD j) := by
  rw [zext, w64, BitVec.getLsbD_ofNat, Nat.testBit_mod_two_pow]
  simp [hj, BitVec.getLsbD]

theorem bitExtract_good (imm : Word) (a : DWord) : BfxGood imm a (bitExtract a imm) := by
  intro j hj
  rw [bitExtract, getLsbD_zext _ _ hj, BitVec.getLsbD_ushiftRight, Nat.add_comm]
  rfl

theorem getLsbD_bitInsert (a b : DWord) (imm : Word) {j : Nat} (hj : j < 64) :
    (bitInsert a b imm).getLsbD j = bfiBit imm a b j := by
  have hmask (k w : Nat) (hk : k < 64) : (w64 (2 ^ w - 1)).getLsbD k = decide (k < w) := by
    rw [w64, BitVec.getLsbD_ofNat, Nat.testBit_two_pow_sub_one]
    simp [hk]
  unfold bitInsert bfiBit
  simp only [BitVec.getLsbD_or, BitVec.getLsbD_and, BitVec.getLsbD_not, BitVec.getLsbD_shiftLeft, hj]
  have hwidth : fieldWidth (imm.extractLsb' 8 6).toNat = Sys2Proof.widthOf (imm.extractLsb' 8 6).toNat := rfl
  rw [hmask _ _ (by omega), hwidth]
  generalize (imm.extractLsb' 0 6).toNat = pos
  generalize Sys2Proof.widthOf (imm.extractLsb' 8 6).toNat = w
  by_cases hlow : j < pos
  · simp [hlow, Nat.not_le.2 hlow]
  · by_cases hhigh : j - pos < w
    · simp [hlow, hhigh, show pos ≤ j ∧ j < pos + w by omega]
    · simp [hlow, hhigh, show ¬ (pos ≤ j ∧ j < pos + w) by omega]

/-! ## The forms -/

theorem oneSourceGood_of_aluR {i : Instr} {op : BitVec 6} {fn : BitVec 4} {f : Ext} {k : DWord → DWord}
    {good : DWord → DWord → Prop} (hf : i.fields = some (op, fn, f)) (he : ∀ s, exec i s = instr op fn f (aluR k f) s)
    (hk : ∀ a, good a (k a)) : OneSourceGood i f good :=
  fun s hr ha hd => ⟨_, hk _, oneSource_of_aluR hf he (fun _ => rfl) s hr ha hd⟩

/-- Settles O2: each count, reversal or field is proved bit by bit of the model's function. -/
theorem bitFieldFormsCompute : Obligations.BitFieldFormsCompute := by
  unfold Obligations.BitFieldFormsCompute
  have hsext (f : Ext) (a : DWord) : sext a (fieldWidth (imm6 f).toNat) = signField a (Sys2Proof.widthOf f.b.toNat) := by
    rw [fieldWidth_imm6, sext_eq _ (widthOf_pos _)]
  have hzext (f : Ext) (a : DWord) :
      zext a (fieldWidth (imm6 f).toNat) = BitVec.ofNat 64 (a.toNat % 2 ^ Sys2Proof.widthOf f.b.toNat) := by
    rw [fieldWidth_imm6, zext, w64]
  refine ⟨fun _ => oneSourceGood_of_aluR rfl (fun _ => rfl) clz64_good,
    fun _ => oneSourceGood_of_aluR rfl (fun _ => rfl) clz64_good,
    fun _ => oneSourceGood_of_aluR rfl (fun _ => rfl) ctz64_good,
    fun _ => oneSourceGood_of_aluR rfl (fun _ => rfl) ctz64_good,
    fun _ => oneSourceGood_of_aluR rfl (fun _ => rfl) popc64_good,
    fun _ => oneSourceGood_of_aluR rfl (fun _ => rfl) popc64_good,
    fun _ => oneSourceGood_of_aluR rfl (fun _ => rfl) brev64_good,
    fun _ => oneSourceGood_of_aluR rfl (fun _ => rfl) brev64_good,
    fun _ => oneSourceGood_of_aluR rfl (fun _ => rfl) bswap64_good,
    fun _ => oneSourceGood_of_aluR rfl (fun _ => rfl) bswap64_good,
    fun f => oneSource_of_aluRI rfl (fun _ => rfl) (hsext f.ext), fun f => oneSource_of_aluRI rfl (fun _ => rfl) (hsext f),
    fun f => oneSource_of_aluRI rfl (fun _ => rfl) (hzext f.ext), fun f => oneSource_of_aluRI rfl (fun _ => rfl) (hzext f),
    fun f => oneSourceGood_of_aluR rfl (fun _ => rfl) (bitExtract_good f.imm), fun f s hr ha hb hd => ?_⟩
  exact ⟨_, fun _ => getLsbD_bitInsert _ _ _,
    twoSource_of_aluRR (k := fun a b => bitInsert a b f.imm) rfl (fun _ => rfl) (fun _ _ => rfl) s hr ha hb hd⟩

end Sys2Proof.Machine
end

section
/-!
Capabilities (01 R38 to R42, 04 R124 to R129).
-/

namespace Sys2Proof.Machine

/-- A capability of an OTYPE other than 3 and 4 has the bounds that its fields encode (01 R41, 07 R217). -/
theorem boundsOf_eq_capBounds (s : State) {c : QWord} (h3 : capType c ≠ 3) (h4 : capType c ≠ 4) :
    boundsOf s c = capBounds c := by
  simp [boundsOf, boundsIn, h3, h4]

/-! ## Moving the cursor (04 R125) -/

section

variable {i : Instr} {op : BitVec 6} {fn : BitVec 4} {f : Ext}

theorem movesCursor_of_cursorBody {g : DWord → DWord → DWord} (hf : i.fields = some (op, fn, f))
    (he : ∀ s, exec i s = instr op fn f (cursorBody g f) s) : MovesCursor i f g := by
  intro s hr ha hb hd
  have hbody : cursorBody g f (begun s) =
      if ((regCap s f.a).tag && capSealed (regCap s f.a).val) = true then .error (.trap 0x07 (regData s f.a))
      else .ok (⟨⟩, setReg f.d (moveCursor (regCap s f.a) (g (regData s f.a) (bData s f))) (begun s)) := by
    unfold cursorBody needsUnsealed
    rw [act_bind_ok (readG_readable (by simpa using ha)), act_bind_ok (readB_readable (by simpa using hb)), act_trapIf_bind,
      writeG_writable _ (by simpa using hd), regCap_begun, bData_begun]
    rfl
  constructor
  · intro hopen
    have hcheck : ¬ ((regCap s f.a).tag && capSealed (regCap s f.a).val) = true := by
      rcases hopen with h | h <;> simp [h, capSealed]
    refine exec_completes hf (he s) hr ?_
    rw [hbody, if_neg hcheck]
    simp only [moveCursor, Bool.and_eq_true]
    rfl
  · rintro ⟨htag, htype⟩
    exact exec_traps hf (he s) hr (by rw [hbody, if_pos (by simp [htag, htype, capSealed])])

end

/-! ## The representable window (01 R41) -/

/-- A field of a field. -/
theorem extractLsb'_field {w k n t : Nat} (c : BitVec w) (u : Nat) (h : u + n ≤ k) :
    (c.extractLsb' t k).extractLsb' u n = c.extractLsb' (t + u) n := by
  apply BitVec.eq_of_getLsbD_eq
  intro j hj
  simp [hj, show u + j < k by omega, Nat.add_assoc]

/-- The fields above the cursor stay as they are. -/
theorem extractLsb'_capWithCursor {n : Nat} (c : QWord) (x : DWord) {t : Nat} (ht : 64 ≤ t) (hn : t + n ≤ 128) :
    (capWithCursor c x).extractLsb' t n = c.extractLsb' t n := by
  rw [capWithCursor, BitVec.extractLsb'_append_eq_of_le ht, extractLsb'_field _ _ (by omega), Nat.add_sub_cancel' ht]

theorem capExp_capWithCursor (c : QWord) (x : DWord) : capExp (capWithCursor c x) = capExp c :=
  congrArg BitVec.toNat (extractLsb'_capWithCursor c x (by omega) (by omega))

theorem capBaseM_capWithCursor (c : QWord) (x : DWord) : capBaseM (capWithCursor c x) = capBaseM c :=
  congrArg BitVec.toNat (extractLsb'_capWithCursor c x (by omega) (by omega))

theorem capTopM_capWithCursor (c : QWord) (x : DWord) : capTopM (capWithCursor c x) = capTopM c :=
  congrArg BitVec.toNat (extractLsb'_capWithCursor c x (by omega) (by omega))

theorem capAddr_capWithCursor (c : QWord) (x : DWord) : capAddr (capWithCursor c x) = x.toNat := by
  rw [capAddr, capCursor, capWithCursor, BitVec.extractLsb'_append_eq_of_add_le (by omega), BitVec.extractLsb'_eq_self]

/-- The base that a cursor decodes to: a multiple of 2^e whose units are `m` modulo 2^18. -/
def decodedBase (e m cursor : Nat) : Nat :=
  ((((cursor / 2 ^ e : Nat) : Int) - ((((cursor / 2 ^ e % 2 ^ 18 : Nat) : Int) - m + 0x8000) % 0x40000 - 0x8000)) *
    ((2 ^ e : Nat) : Int) % ((2 ^ 64 : Nat) : Int)).toNat

theorem capBounds_eq (c : QWord) : capBounds c =
    (decodedBase (capExp c) (capBaseM c) (capAddr c),
      decodedBase (capExp c) (capBaseM c) (capAddr c) + (capTopM c + 0x40000 - capBaseM c) % 0x40000 * 2 ^ capExp c) := rfl

/-- Multiples of 2^e modulo 2^64 are units modulo 2^(64−e). -/
theorem units_emod {e : Nat} (he : e ≤ 46) (z : Int) :
    z * ((2 ^ e : Nat) : Int) % ((2 ^ 64 : Nat) : Int) = z % 2 ^ (64 - e) * 2 ^ e := by
  have hsplit : ((2 ^ 64 : Nat) : Int) = 2 ^ e * 2 ^ (64 - e) := by
    rw [← pow_add, Nat.add_sub_cancel' (by omega)]
    norm_num
  rw [hsplit, mul_comm z, Nat.cast_pow, Nat.cast_ofNat, Int.mul_emod_mul_of_pos _ _ (by positivity), mul_comm]

/-- A cursor that lies within the window of a base decodes to that base. -/
theorem decodedBase_of_offset {e m cursor b : Nat} {o : Int} (he : e ≤ 46) (hb : b < 2 ^ (64 - e))
    (hm : (b : Int) ≡ m [ZMOD 2 ^ 18]) (hx : ((cursor / 2 ^ e : Nat) : Int) ≡ b + o [ZMOD 2 ^ (64 - e)])
    (hlo : -0x8000 ≤ o) (hhi : o < 0x38000) : decodedBase e m cursor = b * 2 ^ e := by
  have hdvd : (2 ^ 18 : Int) ∣ 2 ^ (64 - e) := pow_dvd_pow 2 (by omega)
  have hoff : (((cursor / 2 ^ e % 2 ^ 18 : Nat) : Int) - m + 0x8000) % 0x40000 - 0x8000 = o := by
    have hx' : ((cursor / 2 ^ e : Nat) : Int) ≡ b + o [ZMOD 2 ^ 18] := hx.of_dvd hdvd
    unfold Int.ModEq at hx' hm
    omega
  have hbase : (((cursor / 2 ^ e : Nat) : Int) - o) % 2 ^ (64 - e) = b := by
    have hcongr : ((cursor / 2 ^ e : Nat) : Int) - o ≡ b [ZMOD 2 ^ (64 - e)] := by
      simpa using hx.sub_right o
    rw [hcongr, Int.emod_eq_of_lt (Int.natCast_nonneg b) (by exact_mod_cast hb)]
  rw [decodedBase, hoff, units_emod he, hbase]
  norm_cast

/-- The base of a cursor, in units. -/
theorem decodedBase_units {e m cursor : Nat} (he : e ≤ 46) :
    ∃ b : Nat, b < 2 ^ (64 - e) ∧ (b : Int) ≡ m [ZMOD 2 ^ 18] ∧ decodedBase e m cursor = b * 2 ^ e := by
  have hdvd : (2 ^ 18 : Int) ∣ 2 ^ (64 - e) := pow_dvd_pow 2 (by omega)
  obtain ⟨b, hb⟩ : ∃ b : Nat, (b : Int) = (((cursor / 2 ^ e : Nat) : Int) -
      ((((cursor / 2 ^ e % 2 ^ 18 : Nat) : Int) - m + 0x8000) % 0x40000 - 0x8000)) % 2 ^ (64 - e) :=
    ⟨_, Int.toNat_of_nonneg (Int.emod_nonneg _ (by positivity))⟩
  refine ⟨b, ?_, ?_, ?_⟩
  · have := Int.emod_lt_of_pos (((cursor / 2 ^ e : Nat) : Int) -
      ((((cursor / 2 ^ e % 2 ^ 18 : Nat) : Int) - m + 0x8000) % 0x40000 - 0x8000)) (show (0 : Int) < 2 ^ (64 - e) by positivity)
    rw [← hb] at this
    exact_mod_cast this
  · rw [hb, Int.ModEq, Int.emod_emod_of_dvd _ hdvd]
    omega
  · rw [decodedBase, units_emod he, ← hb]
    norm_cast

/-- Sums modulo 2^64 of multiples of 2^e and other addresses agree in their units. -/
theorem units_of_window {e b n x k : Nat} (he : e ≤ 46) (h : (b * 2 ^ e + n) % 2 ^ 64 = (x + k * 2 ^ e) % 2 ^ 64) :
    (b + n / 2 ^ e) % 2 ^ (64 - e) = (x / 2 ^ e + k) % 2 ^ (64 - e) := by
  have hsplit : 2 ^ 64 = 2 ^ e * 2 ^ (64 - e) := by rw [← pow_add, Nat.add_sub_cancel' (by omega)]
  have hunits := congrArg (· / 2 ^ e) h
  simpa only [hsplit, Nat.mod_mul_right_div_self, Nat.add_mul_div_right _ _ (Nat.two_pow_pos e), Nat.mul_comm b,
    Nat.mul_add_div (Nat.two_pow_pos e)] using hunits

theorem cursorsInTheWindowDecodeTheSameBoundsPart : CursorsInTheWindowDecodeTheSameBoundsPart := by
  intro c x he ⟨n, hn, hwindow⟩
  obtain ⟨b, hb, hm, hbase⟩ := decodedBase_units (m := capBaseM c) (cursor := capAddr c) he
  rw [capBounds_eq, hbase, show capExp c + 15 = 15 + capExp c by omega, pow_add] at hwindow
  have hunits : ((x.toNat / 2 ^ capExp c + 2 ^ 15 : Nat) : Int) ≡ ((b + n / 2 ^ capExp c : Nat) : Int)
      [ZMOD 2 ^ (64 - capExp c)] :=
    mod_cast (units_of_window he hwindow).symm
  have hn' : n / 2 ^ capExp c < 2 ^ 18 := by
    rw [Nat.div_lt_iff_lt_mul (Nat.two_pow_pos _), ← pow_add, Nat.add_comm]
    exact hn
  generalize n / 2 ^ capExp c = u at hunits hn'
  have hsame : decodedBase (capExp c) (capBaseM c) x.toNat = b * 2 ^ capExp c := by
    refine decodedBase_of_offset (o := (u : Int) - 0x8000) he hb hm ?_ (by omega) (by omega)
    simpa [add_sub_assoc] using hunits.sub_right 0x8000
  rw [capBounds_eq, capExp_capWithCursor, capBaseM_capWithCursor, capTopM_capWithCursor, capAddr_capWithCursor, hsame,
    capBounds_eq, hbase]

/-- Settles O4: a move keeps what the window test says, and a cursor in the window names the base that its units lie above. -/
theorem cursorMovesKeepTheTagInTheWindow : Obligations.CursorMovesKeepTheTagInTheWindow := by
  unfold Obligations.CursorMovesKeepTheTagInTheWindow
  exact ⟨⟨fun _ => movesCursor_of_cursorBody rfl fun _ => rfl, fun _ => movesCursor_of_cursorBody rfl fun _ => rfl,
    fun _ => movesCursor_of_cursorBody rfl fun _ => rfl, fun _ => movesCursor_of_cursorBody rfl fun _ => rfl⟩,
    cursorsInTheWindowDecodeTheSameBoundsPart⟩

end Sys2Proof.Machine
end

section
/-!
Bounds, permissions, seals, fields and tests of capabilities (04 R124, R126 to R129).
-/

namespace Sys2Proof.Machine

/-! ## Rounded bounds (01 R42, 04 R126) -/

theorem ceilLog2_le_iff (n k : Nat) : ceilLog2 n ≤ k ↔ n ≤ 2 ^ k := by
  have hpow := Nat.one_le_two_pow (n := k)
  unfold ceilLog2
  split
  · omega
  · have hlog := Nat.log2_lt (n := n - 1) (k := k) (by omega)
    omega

/-- CBOUND's exponent and bounds are the ones of R126. -/
theorem roundBounds_of_cboundResult {base len e lo hi : Nat} (h : CboundResult base len e lo hi) :
    roundBounds base len = (e, lo, hi) := by
  obtain ⟨e0, hup, hdown, hstep, hfits, rfl, rfl⟩ := h
  have he0 : ceilLog2 len - 17 = e0 := by
    have h1 := (ceilLog2_le_iff len (e0 + 17)).2 hup
    by_cases hpos : 0 < e0
    · have h2 := mt (ceilLog2_le_iff len (e0 + 16)).1 (Nat.not_le.2 (hdown hpos))
      omega
    · omega
  unfold roundBounds
  dsimp only
  rw [he0]
  by_cases hone : e = e0
  · rw [if_neg (Nat.not_le.2 (hfits.1 hone)), hone]
  · rw [if_pos (Nat.not_lt.1 (mt hfits.2 hone)), hstep.resolve_left hone]

section

variable {i : Instr} {op : BitVec 6} {fn : BitVec 4} {f : Ext}

theorem needsTag_tagged {c : TCap} (h : c.tag = true) (s : State) : needsTag c s = .ok (⟨⟩, s) := by
  simp [needsTag, h]

theorem needsUnsealed_unsealed {c : TCap} (h : capType c.val = 0) (s : State) : needsUnsealed c s = .ok (⟨⟩, s) := by
  simp [needsUnsealed, capSealed, h]

/-- The bounds of CBOUND do not fit A. -/
def boundsRefused (a : QWord) (len e lo hi : Nat) : Bool :=
  decide (46 < e) || decide (2 ^ 64 < capAddr a + len) || decide (lo < (capBounds a).1) || decide ((capBounds a).2 < hi)

/-- The bounds of CBOUNDX are not those that were asked for. -/
def boundsRounded (exact : Bool) (a : QWord) (len lo hi : Nat) : Bool :=
  exact && (lo != capAddr a || hi != capAddr a + len)

theorem boundsRefused_eq_false_iff (a : QWord) (len e lo hi : Nat) :
    boundsRefused a len e lo hi = false ↔ BoundsFit a len e lo hi := by
  simp [boundsRefused, BoundsFit, and_assoc]

theorem boundsRounded_eq_false_iff (exact : Bool) (a : QWord) (len lo hi : Nat) :
    boundsRounded exact a len lo hi = false ↔ (exact = true → lo = capAddr a ∧ hi = capAddr a + len) := by
  cases exact <;> simp [boundsRounded]

/-- CBOUND and CBOUNDX of an unsealed capability. -/
theorem cboundBody_eq {exact : Bool} {s : State} {e lo hi : Nat} (ha : Readable s f.a f.ta) (hb : BReadable s f)
    (hd : Writable s f.d) (htag : (regCap s f.a).tag = true) (htype : capType (regCap s f.a).val = 0)
    (hres : CboundResult (regData s f.a).toNat (bData s f).toNat e lo hi) : cboundBody exact f s =
      if boundsRefused (regCap s f.a).val (bData s f).toNat e lo hi = true then .error (.trap 0x05 (regData s f.a))
      else if boundsRounded exact (regCap s f.a).val (bData s f).toNat lo hi = true then .error (.trap 0x05 (regData s f.a))
      else .ok (⟨⟩, setReg f.d ⟨capWithBounds (regCap s f.a).val e lo hi, true⟩ s) := by
  have hround : roundBounds (capAddr (regCap s f.a).val) (bData s f).toNat = (e, lo, hi) := roundBounds_of_cboundResult hres
  unfold cboundBody
  rw [act_bind_ok (readG_readable ha), act_bind_ok (readB_readable hb), act_bind_ok (needsTag_tagged htag _),
    act_bind_ok (needsUnsealed_unsealed htype _), hround, act_trapIf_bind, act_trapIf_bind, writeG_writable _ hd]
  rfl

theorem narrowsBounds_of_cboundBody {exact : Bool} (hf : i.fields = some (op, fn, f))
    (he : ∀ s, exec i s = instr op fn f (cboundBody exact f) s) : NarrowsBounds i f exact := by
  intro s e lo hi hr ha hb hd htag htype hres
  have hbody := cboundBody_eq (exact := exact) (s := begun s) (by simpa using ha) (by simpa using hb) (by simpa using hd)
    (by rwa [regCap_begun]) (by rwa [regCap_begun]) (by rwa [regData_begun, bData_begun])
  rw [regCap_begun, regData_begun, bData_begun] at hbody
  have hfit := boundsRefused_eq_false_iff (regCap s f.a).val (bData s f).toNat e lo hi
  have hexact := boundsRounded_eq_false_iff exact (regCap s f.a).val (bData s f).toNat lo hi
  constructor
  · intro h1 h2
    refine exec_completes hf (he s) hr ?_
    rw [hbody, hfit.2 h1, hexact.2 h2]
    rfl
  · intro hbad
    refine exec_traps hf (he s) hr ?_
    rw [hbody]
    split
    · rfl
    · rename_i h1
      rw [if_pos (Bool.of_not_eq_false fun h2 => hbad ⟨hfit.1 (Bool.eq_false_of_not_eq_true h1), hexact.1 h2⟩)]

theorem andsPermissions_of_candpBody (hf : i.fields = some (op, fn, f)) (he : ∀ s, exec i s = instr op fn f (candpBody f) s) :
    AndsPermissions i f := by
  intro s hr ha hb hd htag htype
  refine exec_completes hf (he s) hr ?_
  unfold candpBody
  rw [act_bind_ok (readG_readable (by simpa using ha)), act_bind_ok (readB_readable (by simpa using hb)), regCap_begun,
    bData_begun, act_bind_ok (needsTag_tagged htag _), act_bind_ok (needsUnsealed_unsealed htype _),
    writeG_writable _ (by simpa using hd)]
  rfl

/-- The types that CSEAL may give. -/
theorem sealable_type {t : Nat} (h : t ∈ [1, 2, 6, 7, 8, 9, 10, 11, 12, 13, 14, 15]) :
    t ≠ 0 ∧ t ≠ 3 ∧ t ≠ 4 ∧ t ≠ 5 ∧ t ≤ 15 := by
  simp only [List.mem_cons, List.not_mem_nil, or_false] at h
  omega

theorem seals_of_csealBody (hf : i.fields = some (op, fn, f)) (he : ∀ s, exec i s = instr op fn f (csealBody f) s) :
    Seals i f := by
  intro s t hr ha hb hd hatag hatype hbtag hbtype ht hmem hlo hhi hperm
  have hderef : DerefPasses (regCap s f.b) t 1 [permSEAL] := ⟨hbtag, hbtype, hlo, hhi, by simpa using hperm⟩
  have hallowed : (t == 0 || decide (15 < t) || t == 3 || t == 4 || t == 5) = false := by
    obtain ⟨h0, h3, h4, h5, h15⟩ := sealable_type hmem
    simp [h0, h3, h4, h5, Nat.not_lt.2 h15]
  refine exec_completes hf (he s) hr ?_
  unfold csealBody
  rw [act_bind_ok (readG_readable (by simpa using ha)), act_bind_ok (readG_readable (by simpa using hb)), regCap_begun,
    regCap_begun, act_bind_ok (needsTag_tagged hatag _), act_bind_ok (needsUnsealed_unsealed hatype _),
    show capAddr (regCap s f.b).val = t from ht.symm,
    act_bind_ok (deref_passes hderef _), act_trapIf_bind, hallowed, writeG_writable _ (by simpa using hd)]
  rfl

theorem unseals_of_cunsealBody (hf : i.fields = some (op, fn, f)) (he : ∀ s, exec i s = instr op fn f (cunsealBody f) s) :
    Unseals i f := by
  intro s t hr ha hb hd hatag hatype hmem hbtag hbtype ht hlo hhi hperm
  have hderef : DerefPasses (regCap s f.b) t 1 [permUNSEAL] := ⟨hbtag, hbtype, hlo, hhi, by simpa using hperm⟩
  obtain ⟨h0, h3, h4, h5, -⟩ := sealable_type hmem
  have hallowed : (t == 3 || t == 4 || t == 5) = false := by simp [h3, h4, h5]
  refine exec_completes hf (he s) hr ?_
  unfold cunsealBody
  rw [act_bind_ok (readG_readable (by simpa using ha)), act_bind_ok (readG_readable (by simpa using hb)), regCap_begun,
    regCap_begun, act_bind_ok (needsTag_tagged hatag _), act_trapIf_bind, capSealed, hatype,
    show capAddr (regCap s f.b).val = t from ht]
  dsimp only
  rw [act_trapIf_bind, act_bind_ok (deref_passes hderef _), act_trapIf_bind, hallowed, writeG_writable _ (by simpa using hd)]
  simp [h0]
  rfl

/-! ## Fields and relations -/

theorem capField_eq (s : State) {c : TCap} {code : Nat} (h3 : capType c.val ≠ 3) (h4 : capType c.val ≠ 4) (hc : code < 8) :
    capField s c code = cgetField c code := by
  unfold capField cgetField
  rw [boundsOf_eq_capBounds s h3 h4]
  interval_cases code <;> simp [h3, h4, w64]
  cases c.tag <;> rfl

theorem getsField_of_cgetBody (hf : i.fields = some (op, fn, f)) (he : ∀ s, exec i s = instr op fn f (cgetBody f) s) :
    GetsField i f := by
  intro s hr ha hd
  refine ⟨capField (begun s) (regCap s f.a) f.b.toNat, exec_completes hf (he s) hr ?_, fun h3 h4 => capField_eq _ h3 h4⟩
  unfold cgetBody
  rw [act_bind_ok (readG_readable (by simpa using ha)), regCap_begun, act_bind_ok (act_get _),
    writeData_writable _ (by simpa using hd)]

theorem oneSource_of_cclearBody (hf : i.fields = some (op, fn, f)) (he : ∀ s, exec i s = instr op fn f (cclearBody f) s) :
    OneSource i f (fun a => a) := by
  intro s hr ha hd
  refine exec_completes hf (he s) hr ?_
  unfold cclearBody
  rw [act_bind_ok (readG_readable (by simpa using ha)), regCap_begun, writeData_writable _ (by simpa using hd)]
  rfl

theorem csub_completes {s : State} (hf : i.fields = some (op, fn, f)) (he : exec i s = instr op fn f (csubBody f) s)
    (hr : Runs i s) (ha : Readable s f.a f.ta) (hb : Readable s f.b f.tb) (hd : Writable s f.d) :
    exec i s = .next (past f (setData f.d (regData s f.a - regData s f.b) (begun s))) := by
  refine exec_completes hf he hr ?_
  unfold csubBody
  rw [act_bind_ok (readData_readable (by simpa using ha)), act_bind_ok (readData_readable (by simpa using hb)), regData_begun,
    regData_begun, writeData_writable _ (by simpa using hd)]

/-- The number whose low four bits are those of a predicate. -/
def lowBits (p : Nat → Bool) : Nat := (p 0).toNat + 2 * (p 1).toNat + 4 * (p 2).toNat + 8 * (p 3).toNat

theorem testBit_lowBits (p : Nat → Bool) (j : Nat) : (lowBits p).testBit j = (decide (j < 4) && p j) := by
  unfold lowBits
  by_cases hj : j < 4
  · interval_cases j <;> cases p 0 <;> cases p 1 <;> cases p 2 <;> cases p 3 <;> rfl
  · have hb (b : Bool) : b.toNat ≤ 1 := Bool.toNat_le b
    rw [decide_eq_false hj, Bool.false_and]
    refine Nat.testBit_lt_two_pow (lt_of_lt_of_le ?_ (Nat.pow_le_pow_right two_pos (Nat.not_lt.1 hj)))
    have := hb (p 0); have := hb (p 1); have := hb (p 2); have := hb (p 3)
    omega

theorem lowBits_eq_15_iff (p : Nat → Bool) : lowBits p = 15 ↔ ∀ n, n < 4 → p n = true := by
  constructor
  · intro h n hn
    have hbit := testBit_lowBits p n
    rw [h, decide_eq_true hn, Bool.true_and] at hbit
    rw [← hbit]
    interval_cases n <;> rfl
  · intro h
    simp [lowBits, h 0, h 1, h 2, h 3]

/-- CTEST has four relations. -/
theorem ctestBit_above (a b : TCap) {n : Nat} (h : 4 ≤ n) : ctestBit a b n = false := by
  obtain ⟨k, rfl⟩ := Nat.exists_eq_add_of_le' h
  rfl

theorem capRelations_eq (s : State) {a b : TCap} (ha3 : capType a.val ≠ 3) (ha4 : capType a.val ≠ 4)
    (hb3 : capType b.val ≠ 3) (hb4 : capType b.val ≠ 4) : capRelations s a b =
      if lowBits (ctestBit a b) = 15 then 0xFFFFFFFF#32 else BitVec.ofNat 32 (lowBits (ctestBit a b)) := by
  unfold capRelations
  rw [boundsOf_eq_capBounds s ha3 ha4, boundsOf_eq_capBounds s hb3 hb4]
  have hscale (k : Nat) (p : Prop) [Decidable p] : (if p then k else 0) = k * (decide p).toNat := by
    by_cases h : p <;> simp [h]
  have hopen : (if capSealed a.val then 0 else 8) = 8 * (ctestBit a b 3).toNat := by
    by_cases h : capType a.val = 0 <;> simp [capSealed, ctestBit, h]
  dsimp only
  rw [hopen, hscale 1, hscale 2, hscale 4, ← Bool.decide_and]
  simp only [Bool.decide_eq_true, Nat.one_mul]
  rfl

theorem testsRelations_of_ctestBody (hf : i.fields = some (op, fn, f)) (he : ∀ s, exec i s = instr op fn f (ctestBody f) s) :
    TestsRelations i f := by
  intro s hr ha hb
  refine ⟨capRelations (begun s) (regCap s f.a) (regCap s f.b), exec_completes hf (he s) hr ?_, fun htypes => ?_⟩
  · unfold ctestBody
    rw [act_bind_ok (readG_readable (by simpa using ha)), act_bind_ok (readG_readable (by simpa using hb)), regCap_begun,
      regCap_begun, act_bind_ok (act_get _), act_writeP]
  · obtain ⟨ha3, ha4⟩ := htypes f.a (by simp)
    obtain ⟨hb3, hb4⟩ := htypes f.b (by simp)
    rw [capRelations_eq _ ha3 ha4 hb3 hb4]
    constructor
    · exact fun hall => if_pos ((lowBits_eq_15_iff _).2 hall)
    · rintro ⟨n, hn, hfalse⟩ j hj
      have hsome : lowBits (ctestBit (regCap s f.a) (regCap s f.b)) ≠ 15 := fun hall =>
        Bool.noConfusion (((lowBits_eq_15_iff _).1 hall n hn).symm.trans hfalse)
      rw [if_neg hsome, BitVec.getLsbD_ofNat, testBit_lowBits, decide_eq_true hj, Bool.true_and]
      by_cases hlow : j < 4
      · rw [decide_eq_true hlow, Bool.true_and]
      · rw [decide_eq_false hlow, Bool.false_and, ctestBit_above _ _ (Nat.not_lt.1 hlow)]

end

/-- Settles O5: the model's rounding is the one of R126, and its two tests are those of the statement. -/
theorem boundsFormsNarrow : Obligations.BoundsFormsNarrow := by
  unfold Obligations.BoundsFormsNarrow
  exact ⟨fun _ => narrowsBounds_of_cboundBody rfl fun _ => rfl, fun _ => narrowsBounds_of_cboundBody rfl fun _ => rfl,
    fun _ => narrowsBounds_of_cboundBody rfl fun _ => rfl, fun _ => narrowsBounds_of_cboundBody rfl fun _ => rfl⟩

/-- Settles O6: each form's checks pass under its conditions, and what it writes is the table's result. -/
theorem capabilityFormsComplete : Obligations.CapabilityFormsComplete := by
  unfold Obligations.CapabilityFormsComplete
  exact ⟨fun _ => andsPermissions_of_candpBody rfl fun _ => rfl, fun _ => andsPermissions_of_candpBody rfl fun _ => rfl,
    fun _ => seals_of_csealBody rfl fun _ => rfl, fun _ => seals_of_csealBody rfl fun _ => rfl,
    fun _ => unseals_of_cunsealBody rfl fun _ => rfl, fun _ => unseals_of_cunsealBody rfl fun _ => rfl,
    fun _ => getsField_of_cgetBody rfl fun _ => rfl, fun _ => getsField_of_cgetBody rfl fun _ => rfl,
    fun _ => oneSource_of_cclearBody rfl fun _ => rfl, fun _ => oneSource_of_cclearBody rfl fun _ => rfl,
    fun _ => testsRelations_of_ctestBody rfl fun _ => rfl, fun _ => testsRelations_of_ctestBody rfl fun _ => rfl,
    fun f _ => csub_completes (f := f.ext) rfl rfl, fun _ _ => csub_completes rfl rfl⟩

end Sys2Proof.Machine
end

section
/-!
Scalar floating point (04 R120 to R123).
-/

namespace Sys2Proof.Machine

/-! ## Codes, draws and flags -/

@[simp] theorem codeIn_begun (s : State) (f : Ext) (n : BitVec 6) : codeIn (begun s) f n = codeIn s f n := by
  simp [codeIn]

@[simp] theorem drawOf_begun (rm : BitVec 3) (s : State) : drawOf rm (begun s) = drawOf rm s := by
  simp [drawOf, drawsOf]

theorem readCode_readable {f : Ext} {s : State} {n : BitVec 6} {tb : Bool} (h : Readable s n tb) :
    readCode f n tb s = .ok (codeIn s f n, s) := by
  unfold readCode
  rw [act_bind_ok (readData_readable h)]
  rfl

theorem takeDraw_sound {rm : BitVec 3} {s : State} (h : rm = 5#3 → Sound [badSto] s) :
    takeDraw rm s = .ok (drawOf rm s, afterDraws rm 1 s) := by
  unfold takeDraw
  rw [act_bind_ok (takeDraws_sound 1 h)]
  rfl

theorem orFlags_eq (fs : Flags) (s : State) : orFlags fs s = .ok (⟨⟩, setFlags fs s) := rfl

theorem writable_setFlags {fs : Flags} {s : State} {n : BitVec 6} : Writable (setFlags fs s) n ↔ Writable s n := Iff.rfl

theorem writable_afterDraws {rm : BitVec 3} {k : Nat} {s : State} {n : BitVec 6} :
    Writable (afterDraws rm k s) n ↔ Writable s n := Iff.rfl

/-- A rounded result goes to D with its flags, the draw already taken. -/
theorem writeRounded_afterDraws {f : Ext} {s : State} (r : Nat × Flags) (h : Writable s f.d) :
    writeRounded f.d r (afterDraws f.rm 1 s) = .ok (⟨⟩, roundedInto f r s) := by
  unfold writeRounded
  rw [act_bind_ok (orFlags_eq _ _), writeData_writable _ (writable_setFlags.2 (writable_afterDraws.2 h))]
  rfl

section

variable {i : Instr} {op : BitVec 6} {fn : BitVec 4} {f : Ext} {s : State}

/-- An admitted form finds a good generator where it draws (03 R96, 13 R362). -/
theorem sto_sound_begun (hf : i.fields = some (op, fn, f)) (hr : Runs i s) : f.rm = 5#3 → Sound [badSto] (begun s) := by
  obtain ⟨⟨-, -, -, -, hsto⟩, -⟩ := (runs_iff hf s).1 hr
  exact fun h => (sound_begun _ s).2 (hsto h)

/-! ## Arithmetic -/

theorem rounds_of_fpRR {g : Fp → Rm → Nat → Nat → Nat → Nat × Flags} (hf : i.fields = some (op, fn, f))
    (he : ∀ s, exec i s = instr op fn f (fpRR g f) s) : RoundsTwo i f g := by
  intro s hr ha hb hd
  refine exec_completes hf (he s) hr ?_
  unfold fpRR
  rw [act_bind_ok (readCode_readable (by simpa using ha)), act_bind_ok (readCode_readable (by simpa using hb)),
    act_bind_ok (takeDraw_sound (sto_sound_begun hf hr)), writeRounded_afterDraws _ (by simpa using hd), codeIn_begun,
    codeIn_begun, drawOf_begun]
  rfl

theorem ffma_completes (hf : i.fields = some (op, fn, f)) (he : exec i s = instr op fn f (ffmaBody f) s) (hr : Runs i s)
    (ha : Readable s f.a f.ta) (hb : Readable s f.b f.tb) (hc : Readable s f.c f.tc) (hd : Writable s f.d) :
    exec i s = .next (past f (roundedInto f ((Fp.ofFmt f.fmt.toNat).fma (Rm.ofCode f.rm.toNat) (drawOf f.rm s) false false
      (codeIn s f f.a) (codeIn s f f.b) (codeIn s f f.c)) (begun s))) := by
  refine exec_completes hf he hr ?_
  unfold ffmaBody
  rw [act_bind_ok (readCode_readable (by simpa using ha)), act_bind_ok (readCode_readable (by simpa using hb)),
    act_bind_ok (readCode_readable (by simpa using hc)), act_bind_ok (takeDraw_sound (sto_sound_begun hf hr)),
    writeRounded_afterDraws _ (by simpa using hd), codeIn_begun, codeIn_begun, codeIn_begun, drawOf_begun]
  rfl

theorem fpR_completes {g : Fp → Rm → Nat → Nat → Nat × Flags} (hf : i.fields = some (op, fn, f))
    (he : exec i s = instr op fn f (fpR g f) s) (hr : Runs i s) (ha : Readable s f.a f.ta) (hd : Writable s f.d) :
    exec i s = .next (past f (roundedInto f
      (g (Fp.ofFmt f.fmt.toNat) (Rm.ofCode f.rm.toNat) (drawOf f.rm s) (codeIn s f f.a)) (begun s))) := by
  refine exec_completes hf he hr ?_
  unfold fpR
  rw [act_bind_ok (readCode_readable (by simpa using ha)), act_bind_ok (takeDraw_sound (sto_sound_begun hf hr)),
    writeRounded_afterDraws _ (by simpa using hd), codeIn_begun, drawOf_begun]
  rfl

/-! ## FMIN and FMAX -/

theorem firstNan_pair (p : Fp) (a b : Nat) : p.firstNan [a, b] =
    if (p.decode a).isNan then some (a, if p.signalling a then Flags.invalid else Flags.none)
    else if (p.decode b).isNan then some (b, if p.signalling b then Flags.invalid else Flags.none) else none := by
  unfold Fp.firstNan
  cases ha : (p.decode a).isNan <;> cases hb : (p.decode b).isNan <;> simp [ha, hb]

theorem minMax_good (p : Fp) (max : Bool) (a b : Nat) : MinMaxGood p max a b (p.minMax max a b) := by
  unfold MinMaxGood Fp.minMax
  rw [firstNan_pair]
  refine ⟨fun ha => by simp [ha], fun ha hb => by simp [ha, hb], fun ha hb => ?_⟩
  simp only [ha, hb, Bool.false_eq_true, if_false]
  refine ⟨trivial, ?_, fun h => ?_, fun h => ?_, fun h hna hnb => ?_, fun h hna hnb => ?_⟩
  · split <;> simp
  · cases max <;> simp [Fp.less, h]
  · cases max <;> simp [Fp.less, h]
  · cases max <;> simp [Fp.less, h, hna, hnb]
  · cases max <;> simp [Fp.less, h, hna]

theorem picksOne_of_fpRR {max : Bool} (hf : i.fields = some (op, fn, f))
    (he : ∀ s, exec i s = instr op fn f (fpRR (fun p _ _ a b => p.minMax max a b) f) s) : PicksOne i f max :=
  fun s hr ha hb hd => ⟨_, minMax_good _ max _ _, rounds_of_fpRR hf he s hr ha hb hd⟩

/-! ## FCMP, FCVT and FCLASS -/

/-- Only NE holds of a NaN, and the ordered relations signal it. -/
theorem relation_eq (p : Fp) (cc a b : Nat) : p.relation cc a b = fcmpRelation p cc a b := by
  unfold Fp.relation fcmpRelation
  cases hnan : (p.decode a).isNan || (p.decode b).isNan
  · have heq (o : Ordering) : (p.cmp a b == o) = decide (p.cmp a b = o) := by cases p.cmp a b <;> cases o <;> rfl
    rcases cc with _ | _ | _ | _ | _ | _ <;> simp [bne, heq]
  · simp only [if_true, Bool.not_true, Bool.false_and, Bool.true_or, Bool.true_and, Bool.not_and, Bool.not_not]
    rw [← Bool.or_assoc]
    rcases cc with _ | _ | _ | _ | _ | _ <;> rfl

theorem fcmp_completes (hf : i.fields = some (op, fn, f)) (he : exec i s = instr op fn f (fcmpBody f) s) (hr : Runs i s)
    (ha : Readable s f.a f.ta) (hb : Readable s f.b f.tb) :
    exec i s = .next (past f
      (let r := fcmpRelation (Fp.ofFmt f.fmt.toNat) f.sub.toNat (codeIn s f f.a) (codeIn s f f.b)
       setPred f.d (if r.1 then 0xFFFFFFFF#32 else 0#32) (setFlags r.2 (begun s)))) := by
  refine exec_completes hf he hr ?_
  unfold fcmpBody
  rw [act_bind_ok (readCode_readable (by simpa using ha)), act_bind_ok (readCode_readable (by simpa using hb)), codeIn_begun,
    codeIn_begun, relation_eq, act_bind_ok (orFlags_eq _ _), act_writeP]
  rfl

theorem fcvt_completes (hf : i.fields = some (op, fn, f)) (he : exec i s = instr op fn f (fcvtBody f) s) (hr : Runs i s)
    (ha : Readable s f.a f.ta) (hd : Writable s f.d) :
    let src := (f.sub.extractLsb' 0 4).toNat
    let dst := f.fmt.toNat
    let code := (regData s f.a).toNat % 2 ^ fmtBits src
    match convert src dst (Rm.ofCode f.rm.toNat) false (drawOf f.rm s) code with
    | some r => exec i s = .next (past f (setData f.d (extendCode dst r.1) (setFlags r.2 (afterDraws f.rm 1 (begun s)))))
    | none => exec i s = .next (afterTrap 0x0C
        (BitVec.ofNat 64 ((if (numValue src code).isNan then 2 ^ 28 else 0) + dst * 2 ^ 24 + src * 2 ^ 16)) s) := by
  intro src dst code
  have hbody : fcvtBody f (begun s) = (match convert src dst (Rm.ofCode f.rm.toNat) false (drawOf f.rm s) code with
      | some r => do
        orFlags r.2
        writeData f.d (extendCode dst r.1)
      | none => trap 0x0C (rangeInfo (numValue src code).isNan dst src 0) : Act Unit) (afterDraws f.rm 1 (begun s)) := by
    unfold fcvtBody
    dsimp only
    rw [act_bind_ok (readData_readable (by simpa using ha)), act_bind_ok (takeDraw_sound (sto_sound_begun hf hr)),
      regData_begun, drawOf_begun]
    rfl
  split
  · rename_i r hconv
    refine exec_completes hf he hr ?_
    rw [hbody, hconv]
    dsimp only
    rw [act_bind_ok (orFlags_eq _ _),
      writeData_writable _ (writable_setFlags.2 (writable_afterDraws.2 ((writable_begun s _).2 hd)))]
  · rename_i hconv
    refine exec_traps hf he hr ?_
    rw [hbody, hconv]
    rfl

theorem fclass_completes (hf : i.fields = some (op, fn, f)) (he : exec i s = instr op fn f (fclassBody f) s) (hr : Runs i s)
    (ha : Readable s f.a f.ta) (hd : Writable s f.d) :
    exec i s = .next (past f (setData f.d
      (BitVec.ofNat 64 (2 ^ (Fp.ofFmt f.fmt.toNat).classBit (codeIn s f f.a))) (begun s))) := by
  refine exec_completes hf he hr ?_
  unfold fclassBody
  rw [act_bind_ok (readCode_readable (by simpa using ha)), codeIn_begun, writeData_writable _ (by simpa using hd)]
  rfl

end

/-- Settles O7: each form reads its codes, takes its draw and writes the result of its operation with the flags. -/
theorem scalarFloatFormsComplete : Obligations.ScalarFloatFormsComplete := by
  unfold Obligations.ScalarFloatFormsComplete
  exact ⟨fun _ => rounds_of_fpRR rfl fun _ => rfl, fun _ => rounds_of_fpRR rfl fun _ => rfl,
    fun _ => rounds_of_fpRR rfl fun _ => rfl, fun _ => rounds_of_fpRR rfl fun _ => rfl,
    fun _ _ => ffma_completes rfl rfl, fun _ _ => fpR_completes rfl rfl,
    fun _ => picksOne_of_fpRR rfl fun _ => rfl, fun _ => picksOne_of_fpRR rfl fun _ => rfl,
    fun _ _ => fcmp_completes rfl rfl, fun _ _ => fcvt_completes rfl rfl, fun _ _ => fclass_completes rfl rfl⟩

end Sys2Proof.Machine
end

section
/-!
Vector compares, selection, permutation, sorting and moves (06 R181, R182, R189, R190).
-/

namespace Sys2Proof.Machine

/-! ## Forms that end by writing D -/

/-- Only the results of governed elements reach D. -/
theorem elementsAre_congr {u : State} {f : Ext} {w : Nat} {x : VWord} {r r' : Nat → Option Nat}
    (h : ∀ j, j < elementCount u w → governs u f w j = true → r j = r' j) (hx : ElementsAre u f w x r) :
    ElementsAre u f w x r' := by
  intro j hj
  rw [hx j hj]
  split
  · rw [h j hj ‹_›]
  · rfl

theorem dState_congr {u : State} {f : Ext} {w : Nat} {st : RegState} {r r' : Nat → Option Nat}
    (h : ∀ j, j < elementCount u w → governs u f w j = true → r j = r' j) (hst : DState u f w r st) : DState u f w r' st := by
  have hwritten : ∀ j, j < elementCount u w →
      ((governs u f w j = true ∧ (r j).isSome = true) ↔ (governs u f w j = true ∧ (r' j).isSome = true)) :=
    fun j hj => and_congr_right (fun hg => by rw [h j hj hg])
  have hkept : (∃ j, j < elementCount u w ∧ ¬ (governs u f w j = true ∧ (r j).isSome = true)) ↔
      ∃ j, j < elementCount u w ∧ ¬ (governs u f w j = true ∧ (r' j).isSome = true) :=
    exists_congr (fun j => and_congr_right (fun hj => not_congr (hwritten j hj)))
  unfold DState at *
  rwa [← hkept]

theorem vectorIs_congr {i : Instr} {f : Ext} {s u : State} {w : Nat} {fl : Flags} {r r' : Nat → Option Nat}
    (h : ∀ j, j < elementCount u w → governs u f w j = true → r j = r' j) (hv : VectorIs i f s u w r fl) :
    VectorIs i f s u w r' fl := by
  obtain ⟨x, st, hx, hst, he⟩ := hv
  exact ⟨x, st, elementsAre_congr h hx, dState_congr h hst, he⟩

/-- The results listed agree with a function on the governed elements, modulo 2^w. -/
def GovernedAgree (u : State) (f : Ext) (w : Nat) (xs : List (Option Nat)) (r : Nat → Option Nat) : Prop :=
  xs.length = elementCount u w ∧ ∀ j, j < elementCount u w → governs u f w j = true →
    (xs.getD j none).map (· % 2 ^ w) = (r j).map (· % 2 ^ w)

/-- A list of an element for each number below the count. -/
theorem governedAgree_range {u : State} {f : Ext} {w n : Nat} {r : Nat → Option Nat} (hn : n = elementCount u w) :
    GovernedAgree u f w ((List.range n).map r) r := by
  refine ⟨by simpa using hn, fun j hj _ => ?_⟩
  simp [List.getD_eq_getElem?_getD, hn, hj]

theorem setFlags_none (s : State) : setFlags Flags.none s = s := by
  simp [setFlags, Flags.none]

/-- A form whose body ends by writing elements to D, its flags set, completes. -/
theorem vectorIs_of {i : Instr} {op : BitVec 6} {fn : BitVec 4} {f : Ext} {body : Act Unit} {s u : State} {w : Nat} {fl : Flags}
    {xs : List (Option Nat)} {r : Nat → Option Nat} (hf : i.fields = some (op, fn, f)) (he : exec i s = instr op fn f body s)
    (hr : Runs i s) (hd : VWritable u f.d) (hb : body (begun s) = writeElements f w xs (setFlags fl u))
    (hx : GovernedAgree u f w xs r) : VectorIs i f s u w r fl := by
  obtain ⟨hn, hxs⟩ := hx
  have hagree : Agree (elementCount u w) w xs (fun j => if governs u f w j then r j else xs.getD j none) := by
    refine ⟨hn, fun j hj => ?_⟩
    by_cases hg : governs u f w j = true
    · simpa [hg] using hxs j hj hg
    · simp [hg]
  have hw := writeElements_writable (u := setFlags fl u) w xs hd
  refine vectorIs_congr (fun j _ hg => ?_)
    ⟨_, _, elementsAre_blend hagree, dState_written hagree, exec_completes hf he hr (hb.trans hw)⟩
  exact if_pos hg

/-- A form without flags. -/
theorem vectorMoves_of {i : Instr} {op : BitVec 6} {fn : BitVec 4} {f : Ext} {body : Act Unit} {s u : State}
    {r : Nat → Option Nat} (hf : i.fields = some (op, fn, f)) (he : exec i s = instr op fn f body s) (hr : Runs i s)
    (hd : VWritable u f.d)
    (hb : body (begun s) = writeElements f (vw f) ((List.range (elementCount u (vw f))).map r) u) : VectorMoves i f s u r :=
  vectorIs_of hf he hr hd (hb.trans (by rw [setFlags_none])) (governedAgree_range rfl)

/-! ## Sources -/

@[simp] theorem vWritable_begun (s : State) (n : BitVec 6) : VWritable (begun s) n ↔ VWritable s n := by
  simp [VWritable]

@[simp] theorem elementCount_begun (s : State) (w : Nat) : elementCount (begun s) w = elementCount s w := by
  simp [elementCount]

@[simp] theorem governing_begun (s : State) (f : Ext) : governing (begun s).cur f = governing s.cur f := by
  simp [governing, pRead]

theorem pReadable_congr {s t : State} (h : t.cur.bad = s.cur.bad) (n : BitVec 6) : PReadable t n ↔ PReadable s n := by
  simp [PReadable, Sound, holdsBad, h]

/-- A selector that may be read when the instruction begins may be read after its vector sources. -/
theorem readP_after {s u : State} {n : BitVec 6} (hbad : u.cur.bad = s.cur.bad) (h : PReadable s n) :
    readP n u = .ok (predOf u n, u) :=
  readP_sound ((pReadable_congr hbad n).2 h)

theorem readV_bad_begun {s u : State} {n : BitVec 6} {tb : Bool} {a : VWord} (h : readV n tb (begun s) = .ok (a, u)) :
    u.cur.bad = s.cur.bad := by
  rw [readV_bad h, begun_cur_bad]

/-! ## Predicate results (06 R181) -/

theorem fmtBits_cases (fmt : Nat) :
    fmtBits fmt = 4 ∨ fmtBits fmt = 8 ∨ fmtBits fmt = 16 ∨ fmtBits fmt = 32 ∨ fmtBits fmt = 64 := by
  unfold fmtBits
  split <;> simp

/-- The widths of elements that a predicate result has bits for. -/
def BitWidth (w : Nat) : Prop := w = 8 ∨ w = 16 ∨ w = 32 ∨ w = 64

theorem bitWidth_of_range {f : Ext} (h8 : 8 ≤ vw f) : BitWidth (vw f) := by
  have := fmtBits_cases f.fmt.toNat
  unfold BitWidth vw at *
  omega

theorem testBit_packNat_bits (b : Nat → Bool) {n k : Nat} (hk : k < n) :
    (packNat 1 ((List.range n).map (fun i => if b i then 1 else 0))).testBit k = b k := by
  have h := packNat_element 1 ((List.range n).map (fun i => if b i then 1 else 0)) k
  rw [Nat.one_mul, pow_one] at h
  rw [Nat.testBit_eq_decide_div_mod_eq, h]
  cases hb : b k <;> simp [List.getD_eq_getElem?_getD, hk, hb]

theorem mem_groupOf {w n k j : Nat} : j ∈ groupOf w n k ↔ j < n ∧ (if w = 64 then j = k / 2 else j / (32 / w) = k) := by
  unfold groupOf
  rw [List.mem_filter, List.mem_range]
  split <;> simp

/-- The bit that governs the elements behind bit k of a predicate result. -/
def groupBit (w k : Nat) : Nat := if w = 64 then 2 * (k / 2) else k

theorem predBit_group {p : Word} {w n k j : Nat} (hw : BitWidth w) (hj : j ∈ groupOf w n k) :
    predBit p w j = p.getLsbD (groupBit w k) := by
  obtain ⟨-, hg⟩ := mem_groupOf.1 hj
  unfold predBit groupBit
  rcases hw with rfl | rfl | rfl | rfl <;> simp at hg ⊢ <;> rw [hg]

theorem groupOf_ne_nil {u : State} {w k : Nat} (hw : BitWidth w) :
    groupOf w (elementCount u w) k ≠ [] ↔ k < (if u.cur.pos.lupin then 8 else 32) := by
  rw [List.ne_nil_iff_exists_cons]
  constructor
  · rintro ⟨j, js, hj⟩
    have := mem_groupOf.1 (hj ▸ List.mem_cons_self .. : j ∈ groupOf w (elementCount u w) k)
    unfold elementCount at this
    rcases hw with rfl | rfl | rfl | rfl <;> split at this <;> simp at this ⊢ <;> simp [*] <;> omega
  · intro hk
    have hmem : (if w = 64 then k / 2 else k * (32 / w)) ∈ groupOf w (elementCount u w) k := by
      rw [mem_groupOf]
      unfold elementCount
      rcases hw with rfl | rfl | rfl | rfl <;> split at hk <;> simp [*] <;> omega
    exact List.exists_cons_of_ne_nil (List.ne_nil_of_mem hmem)

/-- Each bit of a predicate result: the conjunction over the elements behind it where it is governed, the old bit elsewhere. -/
theorem getLsbD_groupResult {u : State} {f : Ext} {w : Nat} {rs : List Bool} (old : Word) (hw : BitWidth w)
    (hn : rs.length = elementCount u w) {k : Nat} (hk : k < 32) :
    (groupResult old (governing u.cur f) w rs).getLsbD k =
      if bitGoverned u f w k then (groupOf w (elementCount u w) k).all (fun i => rs.getD i false) else old.getLsbD k := by
  unfold groupResult
  rw [BitVec.getLsbD_ofNat, testBit_packNat_bits _ hk, hn]
  have hne := groupOf_ne_nil (u := u) (k := k) hw
  have hbit := fun j hj => predBit_group (p := governing u.cur f) (n := elementCount u w) (k := k) (j := j) hw hj
  unfold bitGoverned
  cases hjs : groupOf w (elementCount u w) k with
  | nil => rw [hjs] at hne; simp [hk, ← hne]
  | cons j js =>
    have hlow : k < (if u.cur.pos.lupin then 8 else 32) := hne.1 (by simp [hjs])
    have hgov := hbit j (by simp [hjs])
    simp only [hk, decide_true, Bool.true_and, hgov, hlow, groupBit]

/-- A predicate result depends on the old value where a bit is not governed. -/
theorem groupResult_keeps {u : State} {f : Ext} {w : Nat} {rs : List Bool} (hw : BitWidth w) (hn : rs.length = elementCount u w) :
    groupResult 0#32 (governing u.cur f) w rs ≠ groupResult 0xFFFFFFFF#32 (governing u.cur f) w rs ↔
      (List.range 32).all (bitGoverned u f w) = false := by
  rw [← Bool.not_eq_true, List.all_eq_true, not_iff_not]
  constructor
  · intro heq k hk
    have h := congrArg (fun x : Word => x.getLsbD k) heq
    simp only [List.mem_range] at hk
    simp only [getLsbD_groupResult _ hw hn hk] at h
    by_contra hg
    have hones : (0xFFFFFFFF#32).getLsbD k = true := by
      rw [show (0xFFFFFFFF#32 : Word) = BitVec.allOnes 32 from rfl, BitVec.getLsbD_allOnes]; simpa using hk
    rw [if_neg hg, if_neg hg, hones] at h
    simp at h
  · intro hall
    refine BitVec.eq_of_getLsbD_eq (fun k hk => ?_)
    have hg := hall k (List.mem_range.2 hk)
    rw [getLsbD_groupResult _ hw hn hk, getLsbD_groupResult _ hw hn hk, if_pos hg, if_pos hg]

theorem writeGroups_eq {u : State} {f : Ext} {w : Nat} {rs : List Bool} (hw : BitWidth w) (hn : rs.length = elementCount u w) :
    writeGroups f w rs u = .ok (⟨⟩, setBits f w (groupResult (predOf u f.d) (governing u.cur f) w rs) u) := by
  unfold writeGroups setBits
  simp only [act_bind, act_get, act_writeP, act_ite, groupResult_keeps hw hn]
  cases (List.range 32).all (bitGoverned u f w) <;> rfl

theorem bitsAre_groupResult {u : State} {f : Ext} {w : Nat} {rel : Nat → Bool} (hw : BitWidth w) :
    BitsAre u f w (groupResult (predOf u f.d) (governing u.cur f) w ((List.range (elementCount u w)).map rel)) rel := by
  intro k hk
  rw [getLsbD_groupResult _ hw (by simp) hk]
  congr 1
  rw [Bool.eq_iff_iff, List.all_eq_true, decide_eq_true_iff]
  have hget (j : Nat) (hj : j < elementCount u w) : ((List.range (elementCount u w)).map rel).getD j false = rel j := by
    simp [List.getD_eq_getElem?_getD, hj]
  constructor
  · intro h j hj hg
    rw [← hget j hj]
    exact h j (mem_groupOf.2 ⟨hj, hg⟩)
  · intro h j hj
    obtain ⟨hlt, hg⟩ := mem_groupOf.1 hj
    rw [hget j hlt]
    exact h j hlt hg

theorem intRelation_iff (cc w a b : Nat) : intRelation cc w a b = true ↔ vcmpRelation cc w a b := by
  unfold intRelation vcmpRelation
  split <;> simp

section
variable {i : Instr} {op : BitVec 6} {fn : BitVec 4} {f : Ext} {s t u : State} {a b : VWord}

theorem vcmp_completes (hf : i.fields = some (op, fn, f)) (he : exec i s = instr op fn f (vcmpBody f) s) (hr : Runs i s)
    (ha : readV f.a f.ta (begun s) = .ok (a, t)) (hb : readV f.b f.tb t = .ok (b, u)) (h8 : 8 ≤ vw f) :
    ∃ x rel, (∀ j, rel j = true ↔ vcmpRelation f.sub.toNat (vw f) (element a (vw f) j) (element b (vw f) j)) ∧
      BitsAre u f (vw f) x rel ∧ exec i s = .next (past f (setBits f (vw f) x u)) := by
  have hw := bitWidth_of_range h8
  refine ⟨_, fun j => intRelation f.sub.toNat (vw f) (element a (vw f) j) (element b (vw f) j), fun j => intRelation_iff _ _ _ _,
    bitsAre_groupResult hw, exec_completes hf he hr ?_⟩
  unfold vcmpBody
  rw [act_bind_ok ha, act_bind_ok hb, act_bind_ok (act_get _), vCount_eq]
  exact writeGroups_eq hw (by simp [widthOf])

theorem vfcmp_completes (hf : i.fields = some (op, fn, f)) (he : exec i s = instr op fn f (vfcmpBody f) s) (hr : Runs i s)
    (ha : readV f.a f.ta (begun s) = .ok (a, t)) (hb : readV f.b f.tb t = .ok (b, u)) (h4 : f.fmt.toNat < 4) :
    let rel (j : Nat) := fcmpRelation (Fp.ofFmt f.fmt.toNat) f.sub.toNat (element a (vw f) j) (element b (vw f) j)
    ∃ (x : Word) (fl : Flags), BitsAre u f (vw f) x (fun j => (rel j).1) ∧
      (∀ k, fl.getLsbD k = true ↔ ∃ j, j < elementCount u (vw f) ∧ governs u f (vw f) j = true ∧ (rel j).2.getLsbD k = true) ∧
      exec i s = .next (past f (setBits f (vw f) x (setFlags fl u))) := by
  intro rel
  have hw : BitWidth (vw f) := bitWidth_of_range (by
    unfold vw fmtBits
    split <;> omega)
  let rs := (List.range (elementCount u (vw f))).map rel
  have hget (j : Nat) (hj : j < elementCount u (vw f)) :
      ((rs.map (fun r => (0, r.2))).getD j (0, Flags.none)).2 = (rel j).2 := by
    simp [rs, List.getD_eq_getElem?_getD, hj]
  refine ⟨_, activeFlags (governing u.cur f) (vw f) (rs.map (fun r => (0, r.2))), bitsAre_groupResult hw, fun k => ?_,
    exec_completes hf he hr ?_⟩
  · rw [getLsbD_activeFlags]
    refine exists_congr (fun j => ?_)
    rw [List.length_map, List.length_map, List.length_range]
    exact and_congr_right (fun hj => by rw [hget j hj]; rfl)
  · unfold vfcmpBody
    rw [act_bind_ok ha, act_bind_ok hb, act_bind_ok (act_get _)]
    simp only [vCount_eq, relation_eq]
    rw [act_bind_ok (orFlags_eq _ _), List.map_map]
    have hn : ((List.range (elementCount u (vw f))).map (fun j => (rel j).1)).length =
        elementCount (setFlags (activeFlags (governing u.cur f) (vw f) (rs.map (fun r => (0, r.2)))) u) (vw f) := by
      rw [List.length_map, List.length_range]
      rfl
    exact writeGroups_eq hw hn

end

/-! ## Sorting (06 R190) -/

/-- Pairs of a key and an index in rank order: by key, then by index. -/
def RankedBefore (x y : Nat × Nat) : Prop := x.1 < y.1 ∨ x.1 = y.1 ∧ x.2 < y.2

theorem insertKey_perm (x : Nat × Nat) (ys : List (Nat × Nat)) : (insertKey x ys).Perm (x :: ys) := by
  induction ys with
  | nil => exact .refl _
  | cons y ys ih =>
    unfold insertKey
    split
    · exact .refl _
    · exact (ih.cons y).trans (List.Perm.swap x y ys)

/-- A pair of a larger index than those present goes behind the equal keys. -/
theorem insertKey_ranked {x : Nat × Nat} {ys : List (Nat × Nat)} (hy : ys.Pairwise RankedBefore) (hx : ∀ y ∈ ys, y.2 < x.2) :
    (insertKey x ys).Pairwise RankedBefore := by
  induction ys with
  | nil => exact List.pairwise_singleton _ _
  | cons y ys ih =>
    obtain ⟨hhead, htail⟩ := List.pairwise_cons.1 hy
    unfold insertKey
    split
    · rename_i hlt
      refine List.pairwise_cons.2 ⟨fun z hz => ?_, hy⟩
      rcases List.mem_cons.1 hz with rfl | hz
      · exact .inl hlt
      · have := hhead z hz
        unfold RankedBefore at *
        omega
    · rename_i hge
      refine List.pairwise_cons.2 ⟨fun z hz => ?_, ih htail (fun z hz => hx z (List.mem_cons_of_mem _ hz))⟩
      rcases List.mem_cons.1 ((insertKey_perm x ys).mem_iff.1 hz) with rfl | hz
      · have := hx y (List.mem_cons_self ..)
        unfold RankedBefore
        omega
      · exact hhead z hz

/-- The pairs of the keys of the indices below a number. -/
def keyPairs (key : Nat → Nat) (n : Nat) : List (Nat × Nat) := (List.range n).map (fun i => (key i, i))

theorem keyPairs_succ (key : Nat → Nat) (n : Nat) : keyPairs key (n + 1) = keyPairs key n ++ [(key n, n)] := by
  simp [keyPairs, List.range_succ]

theorem inserted_ranked (key : Nat → Nat) (n : Nat) :
    ((keyPairs key n).foldl (fun xs x => insertKey x xs) []).Perm (keyPairs key n) ∧
      ((keyPairs key n).foldl (fun xs x => insertKey x xs) []).Pairwise RankedBefore := by
  induction n with
  | zero => exact ⟨.refl _, List.Pairwise.nil⟩
  | succ n ih =>
    obtain ⟨hperm, hranked⟩ := ih
    rw [keyPairs_succ, List.foldl_append, List.foldl_cons, List.foldl_nil]
    refine ⟨(insertKey_perm _ _).trans ((hperm.cons _).trans (List.perm_append_singleton _ _).symm),
      insertKey_ranked hranked (fun y hy => ?_)⟩
    obtain ⟨i, hi, rfl⟩ := List.mem_map.1 (hperm.mem_iff.1 hy)
    exact List.mem_range.1 hi

theorem mapIdx_map_range (key : Nat → Nat) (n : Nat) :
    ((List.range n).map key).mapIdx (fun i k => (k, i)) = keyPairs key n := by
  refine List.ext_getElem (by simp [keyPairs]) (fun i h1 h2 => ?_)
  simp [keyPairs]

/-- The rank order of keys is a permutation of the indices, by key and then by index. -/
theorem rankOrder_sorts (key : Nat → Nat) (n : Nat) :
    (rankOrder ((List.range n).map key)).Perm (List.range n) ∧
      (rankOrder ((List.range n).map key)).Pairwise (fun i j => key i < key j ∨ key i = key j ∧ i < j) := by
  obtain ⟨hperm, hranked⟩ := inserted_ranked key n
  unfold rankOrder
  rw [mapIdx_map_range]
  refine ⟨(hperm.map _).trans (.of_eq (by rw [keyPairs, List.map_map]; exact List.map_id _)),
    List.pairwise_map.2 (hranked.imp_of_mem fun hx hy hxy => ?_)⟩
  obtain ⟨i, -, rfl⟩ := List.mem_map.1 (hperm.mem_iff.1 hx)
  obtain ⟨j, -, rfl⟩ := List.mem_map.1 (hperm.mem_iff.1 hy)
  exact hxy

theorem map_some_eq_range (p : List Nat) : p.map some = (List.range p.length).map (fun j => p[j]?) := by
  refine List.ext_getElem (by simp) (fun j h1 h2 => ?_)
  simp

theorem sortKey_lt {fmt code : Nat} (h : code < 2 ^ fmtBits fmt) : sortKey fmt code < 2 ^ fmtBits fmt := by
  have hpos : 0 < fmtBits fmt := by have := fmtBits_cases fmt; omega
  have hhalf : 2 ^ fmtBits fmt = 2 * 2 ^ (fmtBits fmt - 1) := by rw [← Nat.pow_succ']; congr 1; omega
  unfold sortKey
  dsimp only
  split
  · split
    · omega
    · rename_i hbit
      rw [Nat.testBit_eq_decide_div_mod_eq, decide_eq_true_iff] at hbit
      have hlt : code / 2 ^ (fmtBits fmt - 1) < 2 := Nat.div_lt_of_lt_mul (by omega)
      have hlow : code / 2 ^ (fmtBits fmt - 1) = 0 := by
        generalize code / 2 ^ (fmtBits fmt - 1) = q at *
        omega
      have := (Nat.div_eq_zero_iff_lt (Nat.two_pow_pos _)).1 hlow
      omega
  · split
    · exact Nat.mod_lt _ (Nat.two_pow_pos _)
    · exact h

theorem element_lt (x : VWord) (w j : Nat) : element x w j < 2 ^ w := Nat.mod_lt _ (Nat.two_pow_pos w)

/-- VSORT's key of element j: complemented for the descending order. -/
def orderKey (f : Ext) (a : VWord) (j : Nat) : Nat :=
  if f.imm.getLsbD 0 then 2 ^ vw f - 1 - sortKey f.fmt.toNat (element a (vw f) j) else sortKey f.fmt.toNat (element a (vw f) j)

theorem sortsBefore_of_orderKey {f : Ext} {a : VWord} {i j : Nat}
    (h : orderKey f a i < orderKey f a j ∨ orderKey f a i = orderKey f a j ∧ i < j) : sortsBefore f a i j := by
  have hi : sortKey f.fmt.toNat (element a (vw f) i) < 2 ^ vw f := sortKey_lt (element_lt a (vw f) i)
  have hj : sortKey f.fmt.toNat (element a (vw f) j) < 2 ^ vw f := sortKey_lt (element_lt a (vw f) j)
  unfold orderKey at h
  unfold sortsBefore
  dsimp only
  split
  · simp only [*, if_true] at h
    omega
  · simp only [*] at h
    exact h

/-! ## The forms -/

section
variable {i : Instr} {op : BitVec 6} {fn : BitVec 4} {f : Ext} {s t u : State} {a b : VWord}
  (hf : i.fields = some (op, fn, f)) (hr : Runs i s)
include hf hr

theorem vsel_completes (he : exec i s = instr op fn f (vselBody f) s) (ha : readV f.a f.ta (begun s) = .ok (a, t))
    (hb : readV f.b f.tb t = .ok (b, u)) (hd : VWritable u f.d) (hc : PReadable s f.c) :
    VectorMoves i f s u
      (fun j => some (if predBit (predOf u f.c) (vw f) j then element a (vw f) j else element b (vw f) j)) := by
  refine vectorMoves_of hf he hr hd ?_
  unfold vselBody
  rw [act_bind_ok ha, act_bind_ok hb, act_bind_ok (readP_after ((readV_bad hb).trans (readV_bad_begun ha)) hc),
    act_bind_ok (act_get _), vCount_eq]
  rfl

theorem vperm_completes (he : exec i s = instr op fn f (vpermBody f) s) (ha : readV f.a f.ta (begun s) = .ok (a, t))
    (hb : readV f.b f.tb t = .ok (b, u)) (hd : VWritable u f.d) :
    VectorMoves i f s u (fun j => some (element a (vw f) (element b (vw f) j % elementCount u (vw f)))) := by
  refine vectorMoves_of hf he hr hd ?_
  unfold vpermBody
  rw [act_bind_ok ha, act_bind_ok hb, act_bind_ok (act_get _), vCount_eq]
  rfl

theorem vbcast_completes (he : exec i s = instr op fn f (vbcastBody f) s) (ha : Readable s f.a f.ta) (hd : VWritable s f.d) :
    VectorMoves i f s (begun s) (fun _ => some ((regData s f.a).toNat % 2 ^ vw f)) := by
  refine vectorMoves_of hf he hr (by simpa using hd) ?_
  unfold vbcastBody
  rw [act_bind_ok (readData_readable ((readable_begun _ _ _).2 ha)), act_bind_ok (act_get _), vCount_eq, regData_begun,
    List.map_const', List.length_range]
  rfl

theorem vslide_completes (he : exec i s = instr op fn f (vslideBody f) s) (ha : readV f.a f.ta (begun s) = .ok (a, t))
    (hb : readV f.b f.tb t = .ok (b, u)) (hd : VWritable u f.d) :
    VectorMoves i f s u (fun j =>
      let k := j + f.imm.toNat
      some (if k < elementCount u (vw f) then element a (vw f) k else element b (vw f) (k - elementCount u (vw f)))) := by
  refine vectorMoves_of hf he hr hd ?_
  unfold vslideBody
  rw [act_bind_ok ha, act_bind_ok hb, act_bind_ok (act_get _), vCount_eq]
  rfl

theorem vcomp_completes (he : exec i s = instr op fn f (vcompBody f) s) (ha : readV f.a f.ta (begun s) = .ok (a, u))
    (hd : VWritable u f.d) (hc : PReadable s f.c) :
    VectorMoves i f s u (fun j => some
      ((((List.range (elementCount u (vw f))).filter (predBit (predOf u f.c) (vw f))).map (element a (vw f))).getD j 0)) := by
  refine vectorMoves_of hf he hr hd ?_
  unfold vcompBody
  rw [act_bind_ok ha, act_bind_ok (readP_after (readV_bad_begun ha) hc), act_bind_ok (act_get _), vCount_eq]
  rfl

theorem vexpd_completes (he : exec i s = instr op fn f (vexpdBody f) s) (ha : readV f.a f.ta (begun s) = .ok (a, u))
    (hd : VWritable u f.d) (hc : PReadable s f.c) :
    VectorMoves i f s u (fun j => some (if predBit (predOf u f.c) (vw f) j then
      element a (vw f) (selectedCount (predOf u f.c) (vw f) j) else 0)) := by
  refine vectorMoves_of hf he hr hd ?_
  unfold vexpdBody
  rw [act_bind_ok ha, act_bind_ok (readP_after (readV_bad_begun ha) hc), act_bind_ok (act_get _), vCount_eq]
  rfl

theorem vsort_completes (he : exec i s = instr op fn f (vsortBody f) s) (ha : readV f.a f.ta (begun s) = .ok (a, u))
    (hd : VWritable u f.d) :
    ∃ p : List Nat, p.Perm (List.range (elementCount u (vw f))) ∧ p.Pairwise (sortsBefore f a) ∧
      VectorMoves i f s u (fun j => p[j]?) := by
  obtain ⟨hperm, hsorted⟩ := rankOrder_sorts (orderKey f a) (elementCount u (vw f))
  refine ⟨_, hperm, hsorted.imp sortsBefore_of_orderKey, vectorMoves_of hf he hr hd ?_⟩
  have hlen : (rankOrder ((List.range (elementCount u (vw f))).map (orderKey f a))).length = elementCount u (vw f) := by
    rw [hperm.length_eq, List.length_range]
  unfold vsortBody
  rw [act_bind_ok ha, act_bind_ok (act_get _), vCount_eq]
  simp only [elementsOf, List.map_map]
  change writeElements f (vw f) ((rankOrder ((List.range (elementCount u (vw f))).map (orderKey f a))).map some) u = _
  rw [map_some_eq_range, hlen]

theorem viota_completes (he : exec i s = instr op fn f (viotaBody f) s) (hd : VWritable s f.d) (hc : PReadable s f.c) :
    VectorMoves i f s (begun s) (fun j => some (selectedCount (predOf s f.c) (vw f) j)) := by
  refine vectorMoves_of hf he hr (by simpa using hd) ?_
  unfold viotaBody
  rw [act_bind_ok (readP_sound ((pReadable_begun s _).2 hc)), act_bind_ok (act_get _), vCount_eq, predOf_begun]
  rfl

theorem vpopc_completes (he : exec i s = instr op fn f (vpopcBody f) s) (hd : Writable s f.d) (hc : PReadable s f.c) :
    exec i s = .next (past f (setData f.d (BitVec.ofNat 64
      (selectedCount (predOf s f.c &&& governing s.cur f) (vw f) (elementCount s (vw f)))) (begun s))) := by
  refine exec_completes hf he hr ?_
  unfold vpopcBody
  rw [act_bind_ok (readP_sound ((pReadable_begun s _).2 hc)), act_bind_ok (act_get _), vCount_eq, predOf_begun,
    writeData_writable _ (by simpa using hd), governing_begun, elementCount_begun]
  rfl

theorem vmovg_completes (he : exec i s = instr op fn f (vmovgBody f) s) (ha : readV f.a f.ta (begun s) = .ok (a, u))
    (hd : Writable u f.d) :
    exec i s = .next (past f (setData f.d (extendCode f.fmt.toNat (element a (vw f) f.imm.toNat)) u)) := by
  refine exec_completes hf he hr ?_
  unfold vmovgBody
  rw [act_bind_ok ha, writeData_writable _ hd]
  rfl

theorem vmovv_completes (he : exec i s = instr op fn f (vmovvBody f) s) (ha : Readable s f.a f.ta) (hd : VWritable s f.d) :
    VectorMoves i f s (begun s) (fun j => if j = f.imm.toNat then some ((regData s f.a).toNat % 2 ^ vw f) else none) := by
  refine vectorMoves_of hf he hr (by simpa using hd) ?_
  unfold vmovvBody
  rw [act_bind_ok (readData_readable ((readable_begun _ _ _).2 ha)), act_bind_ok (act_get _), vCount_eq, regData_begun]
  rfl

end

/-- Settles O29: a compare writes the conjunction of each bit's elements; VSORT's insertions keep the pairs of key and index in
rank order; every other form writes its elements as listed. -/
theorem vectorComparesAndMovesComplete : Obligations.VectorComparesAndMovesComplete := by
  unfold Obligations.VectorComparesAndMovesComplete
  exact ⟨fun _ _ _ _ _ _ hr ha hb h8 _ => vcmp_completes rfl rfl hr ha hb h8,
    fun _ _ _ _ _ _ hr ha hb h4 => vfcmp_completes rfl rfl hr ha hb h4,
    fun _ _ _ _ _ _ hr => vsel_completes rfl hr rfl, fun _ _ _ _ _ _ hr => vperm_completes rfl hr rfl,
    fun _ _ hr => vbcast_completes rfl hr rfl, fun _ _ _ _ _ _ hr => vslide_completes rfl hr rfl,
    fun _ _ _ _ hr => vcomp_completes rfl hr rfl, fun _ _ _ _ hr => vexpd_completes rfl hr rfl,
    fun _ _ _ _ hr => vsort_completes rfl hr rfl, fun _ _ hr => viota_completes rfl hr rfl,
    fun _ _ hr => vpopc_completes rfl hr rfl, fun _ _ _ _ hr => vmovg_completes rfl hr rfl,
    fun _ _ hr => vmovv_completes rfl hr rfl⟩

end Sys2Proof.Machine
end

section
/-!
Vector conversions, reductions and scans (06 R183 to R188, 03 R104).
-/

namespace Sys2Proof.Machine

/-! ## Draws after vector sources -/

/-- An admitted form finds a good generator also after its vector sources (13 R362). -/
theorem sto_sound_after {i : Instr} {op : BitVec 6} {fn : BitVec 4} {f : Ext} {s u : State} (hf : i.fields = some (op, fn, f))
    (hr : Runs i s) (hbad : u.cur.bad = s.cur.bad) : f.rm = 5#3 → Sound [badSto] u := by
  obtain ⟨⟨-, -, -, -, hsto⟩, -⟩ := (runs_iff hf s).1 hr
  intro h
  have := hsto h
  unfold Sound holdsBad at *
  rwa [hbad]

theorem afterDraws_no_rounding {rm : BitVec 3} (h : rm ≠ 5#3) (n : Nat) (s : State) : afterDraws rm n s = s := by
  rw [afterDraws, drawsOf_no_rounding h]

/-! ## Conversions (06 R183, R184) -/

/-- The source and the destination of conversion number j of n. -/
def convertPair (n ws wd part j : Nat) : Nat × Nat :=
  if wd < ws then (j, part * n + j) else if ws < wd then (part * n + j, j) else (j, j)

theorem convertPairs_eq (u : State) (ws wd part : Nat) : convertPairs (8 * vBytes u.cur) ws wd part =
    (List.range (elementCount u (max ws wd))).map (convertPair (elementCount u (max ws wd)) ws wd part) := by
  rw [← vCount_eq]
  rfl

/-- The number of the conversion that gives destination d. -/
def convertIndex (u : State) (f : Ext) (ws wd d : Nat) : Nat :=
  if wd < ws then d - f.imm.toNat * elementCount u (max ws wd) else d

theorem convertPair_eq_iff {u : State} {f : Ext} {ws wd j c d : Nat} (hj : j < elementCount u (max ws wd)) :
    convertPair (elementCount u (max ws wd)) ws wd f.imm.toNat j = (c, d) ↔
      convertSource u f ws wd d = some c ∧ convertIndex u f ws wd d = j := by
  unfold convertPair convertSource convertIndex
  dsimp only
  by_cases h1 : wd < ws
  · simp only [h1, if_true, Prod.mk.injEq, Option.ite_none_right_eq_some, Option.some.injEq]
    omega
  · by_cases h2 : ws < wd
    · simp only [h1, h2, if_true, if_false, Prod.mk.injEq, Option.ite_none_right_eq_some, Option.some.injEq]
      omega
    · simp only [h1, h2, if_false, Prod.mk.injEq, Option.ite_none_right_eq_some, Option.some.injEq]
      omega

theorem convertIndex_lt {u : State} {f : Ext} {ws wd c d : Nat} (h : convertSource u f ws wd d = some c) :
    convertIndex u f ws wd d < elementCount u (max ws wd) := by
  unfold convertSource at h
  unfold convertIndex
  dsimp only at h
  split at h
  · rw [Option.ite_none_right_eq_some] at h
    rw [if_pos ‹_›]
    omega
  · rw [Option.ite_none_right_eq_some] at h
    rw [if_neg ‹_›]
    exact h.1

/-- The governed conversions of an instruction, as (source and destination, result). -/
def conversions (u : State) (f : Ext) (src dst : Nat) (sat : Bool) (a : VWord) : List ((Nat × Nat) × Option (Nat × Flags)) :=
  ((convertPairs (8 * vBytes u.cur) (fmtBits src) (fmtBits dst) f.imm.toNat).zip
    (drawsOf f.rm (elementCount u (max (fmtBits src) (fmtBits dst))) u).1).filterMap (fun x =>
      if predBit (governing u.cur f) (fmtBits dst) x.1.2 then
        some (x.1, convert src dst (rmOf f) sat x.2 (element a (fmtBits src) x.1.1))
      else none)

/-- The result at destination d (06 R183). -/
def convertedAt (u : State) (f : Ext) (src dst : Nat) (sat : Bool) (a : VWord) (d : Nat) : Option (Option (Nat × Flags)) :=
  (convertSource u f (fmtBits src) (fmtBits dst) d).map (fun i =>
    convert src dst (Rm.ofCode f.rm.toNat) sat (convertDraw u f (fmtBits src) (fmtBits dst) d) (element a (fmtBits src) i))

theorem zip_draws {α : Type} (u : State) (rm : BitVec 3) (n : Nat) (g : Nat → α) :
    ((List.range n).map g).zip (drawsOf rm n u).1 = (List.range n).map (fun j => (g j, drawAt rm n j u)) := by
  refine List.ext_getElem (by simp [drawsOf_length]) (fun j h1 h2 => ?_)
  have hj : j < (drawsOf rm n u).1.length := by simpa [drawsOf_length] using h2
  simp [drawAt, List.getD_eq_getElem?_getD, hj]

theorem mem_conversions {u : State} {f : Ext} {src dst : Nat} {sat : Bool} {a : VWord} {d : Nat} {y : Option (Nat × Flags)} :
    (∃ c, ((c, d), y) ∈ conversions u f src dst sat a) ↔
      governs u f (fmtBits dst) d = true ∧ convertedAt u f src dst sat a d = some y := by
  unfold conversions convertedAt
  rw [convertPairs_eq, zip_draws]
  simp only [List.mem_filterMap, List.mem_map, List.mem_range, Option.ite_none_right_eq_some, Option.some.injEq, Prod.mk.injEq,
    Option.map_eq_some_iff]
  constructor
  · rintro ⟨c, _, ⟨j, hj, rfl⟩, hg, hpair, rfl⟩
    obtain ⟨hc, rfl⟩ := (convertPair_eq_iff hj).1 hpair
    rw [hpair] at hg ⊢
    exact ⟨hg, c, hc, rfl⟩
  · rintro ⟨hg, c, hc, rfl⟩
    have hpair := (convertPair_eq_iff (convertIndex_lt hc)).2 ⟨hc, rfl⟩
    refine ⟨c, _, ⟨_, convertIndex_lt hc, rfl⟩, ?_⟩
    rw [hpair]
    exact ⟨hg, rfl, rfl⟩

/-- The governed element of D that a conversion gives. -/
theorem conversions_find {u : State} {f : Ext} {src dst : Nat} {sat : Bool} {a : VWord} {d : Nat}
    (hg : governs u f (fmtBits dst) d = true) :
    ((conversions u f src dst sat a).find? (fun r => r.1.2 == d)).bind (·.2) =
      (convertedAt u f src dst sat a d).bind id := by
  cases hfind : (conversions u f src dst sat a).find? (fun r => r.1.2 == d) with
  | some r =>
    obtain ⟨⟨c, e⟩, y⟩ := r
    have he : e = d := by simpa using List.find?_some hfind
    have hmem : ∃ c, ((c, d), y) ∈ conversions u f src dst sat a := ⟨c, he ▸ List.mem_of_find?_eq_some hfind⟩
    rw [(mem_conversions.1 hmem).2]
    rfl
  | none =>
    cases hc : convertedAt u f src dst sat a d with
    | none => rfl
    | some y =>
      obtain ⟨c, hmem⟩ := mem_conversions.2 ⟨hg, hc⟩
      exact absurd (List.find?_eq_none.1 hfind _ hmem) (by simp)

/-- The flags of a list of conversions. -/
def conversionFlags (rs : List ((Nat × Nat) × Option (Nat × Flags))) : Flags :=
  rs.foldl (fun x r => x ||| (r.2.getD (exact 0)).2) Flags.none

theorem getLsbD_conversionFlags (rs : List ((Nat × Nat) × Option (Nat × Flags))) (k : Nat) :
    (conversionFlags rs).getLsbD k = true ↔ ∃ p x, (p, some x) ∈ rs ∧ x.2.getLsbD k = true := by
  have hzero : (Flags.none).getLsbD k = false := by simp [Flags.none]
  unfold conversionFlags
  rw [← List.foldl_map (f := fun r : (Nat × Nat) × Option (Nat × Flags) => (r.2.getD (exact 0)).2) (g := (· ||| ·)),
    getLsbD_foldl_or, hzero]
  simp only [Bool.false_eq_true, false_or, List.mem_map]
  constructor
  · rintro ⟨_, ⟨⟨p, y⟩, hr, rfl⟩, hk⟩
    cases y with
    | none => rw [Option.getD_none, exact, hzero] at hk; cases hk
    | some x => exact ⟨p, x, hr, hk⟩
  · rintro ⟨p, x, hr, hk⟩
    exact ⟨_, ⟨_, hr, rfl⟩, hk⟩

theorem vectorConverts_of {i : Instr} {op : BitVec 6} {fn : BitVec 4} {f : Ext} {src dst : Nat} {sat : Bool}
    (hf : i.fields = some (op, fn, f)) (he : ∀ s, exec i s = instr op fn f (vconvert src dst sat f) s) :
    VectorConverts i f src dst sat := by
  intro s u a hr ha hd ws wd r hall
  let n := elementCount u (max ws wd)
  let rs := conversions u f src dst sat a
  have hsome : ∀ x ∈ rs, x.2 ≠ none := by
    rintro ⟨⟨c, d⟩, y⟩ hx rfl
    obtain ⟨hg, hc⟩ := mem_conversions.1 ⟨c, hx⟩
    exact hall d hg hc
  have hfind : rs.find? (fun x => x.2.isNone) = none := List.find?_eq_none.2 (by simpa using hsome)
  refine ⟨conversionFlags rs, vectorIs_of hf (he s) hr (xs := (List.range (elementCount u wd)).map (fun j =>
    ((rs.find? (fun r => r.1.2 == j)).bind (·.2)).map (·.1))) hd ?_ ⟨by simp; rfl, fun j hj hg => ?_⟩, fun k => ?_⟩
  · unfold vconvert
    rw [act_bind_ok ha, act_bind_ok (act_get _)]
    have hdraws := takeDraws_sound n (sto_sound_after hf hr (readV_bad_begun ha))
    have hpairs : (convertPairs (8 * vBytes u.cur) (fmtBits src) (fmtBits dst) f.imm.toNat).length = n := by
      rw [convertPairs_eq, List.length_map, List.length_range]
    dsimp only
    rw [hpairs, act_bind_ok hdraws]
    change (match rs.find? (fun x => x.2.isNone) with | some r => _ | none => _ : Act Unit) _ = _
    rw [hfind, vCount_eq]
    exact act_bind_ok (orFlags_eq _ _)
  · have hj' : j < elementCount u wd := hj
    have := conversions_find (u := u) (src := src) (dst := dst) (sat := sat) (a := a) hg
    simp only [List.getD_eq_getElem?_getD, List.getElem?_map, List.getElem?_range hj', Option.map_some, Option.getD_some]
    rw [show (rs.find? (fun r => r.1.2 == j)).bind (·.2) = _ from this]
    rfl
  · rw [getLsbD_conversionFlags]
    constructor
    · rintro ⟨⟨c, d⟩, x, hx, hk⟩
      obtain ⟨hg, hc⟩ := mem_conversions.1 ⟨c, hx⟩
      exact ⟨d, x, hg, hc, hk⟩
    · rintro ⟨d, x, hg, hc, hk⟩
      obtain ⟨c, hx⟩ := mem_conversions.2 ⟨hg, hc⟩
      exact ⟨_, x, hx, hk⟩

/-! ## Trees of integer sums (03 R104) -/

theorem flags_none_or (x : Flags) : Flags.none ||| x = x := BitVec.zero_or

/-- The sum of the lanes that take part. -/
def laneSum (xs : List (Option Nat)) : Nat := (xs.map (·.getD 0)).sum

/-- An operation that adds modulo m and sets no flag. -/
def AddsModulo (m : Nat) (op : Nat → Nat → Nat → Nat × Flags) : Prop := ∀ d a b, op d a b = ((a + b) % m, Flags.none)

theorem sumOp_addsModulo {fmt : Nat} (h7 : 7 ≤ fmt) (h14 : fmt < 14) (rm : Rm) : AddsModulo (2 ^ fmtBits fmt) (sumOp fmt rm) := by
  have hw : intWidth fmt = fmtBits fmt := by interval_cases fmt <;> rfl
  intro d a b
  rw [sumOp, if_neg (by omega), if_neg (by omega), hw]
  rfl

section
variable {m : Nat} {op : Nat → Nat → Nat → Nat × Flags}

theorem treeNode_sum (hop : AddsModulo m op) (d : Nat) (x y : Option Nat) :
    (treeNode op d x y).1.getD 0 % m = (x.getD 0 + y.getD 0) % m ∧ (treeNode op d x y).2 = Flags.none ∧
      (treeNode op d x y).1.isSome = (x.isSome || y.isSome) ∧
      (x.getD 0 < m → y.getD 0 < m → (treeNode op d x y).1.getD 0 < m) := by
  cases x with
  | none => cases y <;> simp [treeNode]
  | some a =>
    cases y with
    | none => exact ⟨rfl, rfl, rfl, fun ha _ => ha⟩
    | some b => simpa [treeNode, hop d a b] using fun ha _ => Nat.mod_lt _ (Nat.zero_lt_of_lt ha)

theorem treeLevel_length : ∀ (xs : List (Option Nat)) (ds : List Nat), (treeLevel op xs ds).1.length = (xs.length + 1) / 2
  | [], _ => rfl
  | [_], _ => by simp [treeLevel]
  | _ :: _ :: xs, ds => by
    simp only [treeLevel, List.length_cons, treeLevel_length xs ds.tail]
    omega

/-- A level of the tree keeps the sum of the lanes, and whether any takes part. -/
theorem treeLevel_sum (hop : AddsModulo m op) : ∀ (xs : List (Option Nat)) (ds : List Nat),
    laneSum (treeLevel op xs ds).1 % m = laneSum xs % m ∧ (treeLevel op xs ds).2 = Flags.none ∧
      (treeLevel op xs ds).1.any Option.isSome = xs.any Option.isSome ∧
      ((∀ x ∈ xs, x.getD 0 < m) → ∀ x ∈ (treeLevel op xs ds).1, x.getD 0 < m)
  | [], _ => ⟨rfl, rfl, rfl, fun hall => hall⟩
  | [_], _ => ⟨rfl, rfl, rfl, fun hall => hall⟩
  | x :: y :: xs, ds => by
    obtain ⟨hsum, hflags, hany, hlt⟩ := treeLevel_sum hop xs ds.tail
    obtain ⟨nsum, nflags, nany, nlt⟩ := treeNode_sum hop (ds.headD 0) x y
    simp only [treeLevel]
    refine ⟨?_, by rw [hflags, nflags, flags_none_or], ?_, fun hall z hz => ?_⟩
    · simp only [laneSum, List.map_cons, List.sum_cons] at hsum ⊢
      rw [← Nat.add_assoc, Nat.add_mod, nsum, hsum, ← Nat.add_mod]
    · rw [List.any_cons, List.any_cons, List.any_cons, nany, hany, Bool.or_assoc]
    · rcases List.mem_cons.1 hz with rfl | hz
      · exact nlt (hall x (by simp)) (hall y (by simp))
      · exact hlt (fun z hz => hall z (by simp [hz])) z hz

/-- A tree that is deep enough adds its lanes modulo m; it has a result where a lane takes part. -/
theorem tree_sum (hop : AddsModulo m op) (k : Nat) (xs : List (Option Nat)) (ds : List Nat) (hk : xs.length ≤ 2 ^ k)
    (hlt : ∀ x ∈ xs, x.getD 0 < m) :
    tree op k xs ds = (if xs.any Option.isSome then some (laneSum xs % m) else none, Flags.none) := by
  induction k generalizing xs ds with
  | zero =>
    match xs with
    | [] => rfl
    | [none] => rfl
    | [some a] => simp [tree, laneSum, Nat.mod_eq_of_lt (by simpa using hlt)]
    | x :: y :: xs => simp at hk
  | succ k ih =>
    obtain ⟨hsum, hflags, hany, hbound⟩ := treeLevel_sum hop xs ds
    have hlen : (treeLevel op xs ds).1.length ≤ 2 ^ k := by
      rw [treeLevel_length, Nat.div_le_iff_le_mul_add_pred (by omega)]
      omega
    rw [tree, ih _ _ hlen (hbound hlt), hflags, hany, hsum, flags_none_or]

end

theorem lanes_length (a : VWord) (w n : Nat) (active : Nat → Bool) : (lanes a w n active).length = n := by
  simp [lanes]

theorem lanes_lt (a : VWord) (w n : Nat) (active : Nat → Bool) : ∀ x ∈ lanes a w n active, x.getD 0 < 2 ^ w := by
  intro x hx
  obtain ⟨j, -, rfl⟩ := List.mem_map.1 hx
  split
  · exact element_lt a w j
  · exact Nat.two_pow_pos w

theorem laneSum_lanes (a : VWord) (w n : Nat) (active : Nat → Bool) :
    laneSum (lanes a w n active) = (((List.range n).filter active).map (element a w)).sum := by
  unfold laneSum lanes
  generalize List.range n = js
  induction js with
  | nil => rfl
  | cons j js ih =>
    rw [List.map_cons, List.map_cons, List.sum_cons, ih, List.filter_cons]
    cases active j <;> simp

/-- An element count fits the levels of a tree. -/
theorem elementCount_le_levels (u : State) (f : Ext) : elementCount u (vw f) ≤ 2 ^ treeLevels := by
  have := fmtBits_cases f.fmt.toNat
  unfold elementCount treeLevels vw
  rcases this with h | h | h | h | h <;> rw [h] <;> split <;> omega

/-- The tree over the active lanes of integer elements. -/
theorem tree_lanes {f : Ext} (h7 : 7 ≤ f.fmt.toNat) (h14 : f.fmt.toNat < 14) (rm : Rm) (u : State) (a : VWord) (active : Nat → Bool)
    (ds : List Nat) :
    tree (sumOp f.fmt.toNat rm) treeLevels (lanes a (vw f) (elementCount u (vw f)) active) ds =
      (if (lanes a (vw f) (elementCount u (vw f)) active).any Option.isSome then
        some ((((List.range (elementCount u (vw f))).filter active).map (element a (vw f))).sum % 2 ^ vw f) else none,
        Flags.none) := by
  have hop : AddsModulo (2 ^ vw f) (sumOp f.fmt.toNat rm) := sumOp_addsModulo h7 h14 rm
  rw [tree_sum hop _ _ _ (by rw [lanes_length]; exact elementCount_le_levels u f) (lanes_lt _ _ _ _),
    laneSum_lanes]

theorem any_lanes (a : VWord) (w n : Nat) (active : Nat → Bool) :
    (lanes a w n active).any Option.isSome = true ↔ ∃ j, j < n ∧ active j = true := by
  unfold lanes
  rw [List.any_map, List.any_eq_true]
  refine exists_congr (fun j => ?_)
  cases h : active j <;> simp [h]

/-! ## VRED (06 R186) -/

theorem reduceOp_eq (f : Ext) : (if f.sub = 0#8 then sumOp (fmtOf f) (rmOf f) else extremeOp (fmtOf f) (f.sub == 2#8)) =
    reduceOp f (f.sub == 2#8) (f.sub == 0#8) := by
  unfold reduceOp
  simp only [beq_iff_eq]
  rfl

theorem canonical_eq (f : Ext) (x : Nat) : canonical (fmtOf f) x = if f.fmt = 14#4 then rnsAdd x 0 else x := by
  have : f.fmt.toNat = 14 ↔ f.fmt = 14#4 := ⟨fun h => BitVec.eq_of_toNat_eq h, fun h => h ▸ rfl⟩
  unfold canonical fmtOf
  simp only [this]

theorem vred_completes {i : Instr} {op : BitVec 6} {fn : BitVec 4} {f : Ext} {s u : State} {a : VWord}
    (hf : i.fields = some (op, fn, f)) (he : exec i s = instr op fn f (vredBody f) s) (hr : Runs i s)
    (ha : readV f.a f.ta (begun s) = .ok (a, u)) (hd : Writable u f.d) :
    let n := elementCount u (vw f)
    let r := tree (reduceOp f (f.sub == 2#8) (f.sub == 0#8)) 8
      ((List.range n).map (fun j => if governs u f (vw f) j then some (element a (vw f) j) else none)) (drawsOf f.rm (n - 1) u).1
    let x := r.1.getD (emptyReduction f.sub.toNat f.fmt.toNat)
    exec i s = .next (past f (setData f.d
      (extendCode f.fmt.toNat (if f.fmt = 14#4 then rnsAdd x 0 else x)) (setFlags r.2 (afterDraws f.rm (n - 1) u)))) ∧
    (7 ≤ f.fmt.toNat → f.fmt.toNat < 14 → f.sub = 0#8 →
      x = (((List.range n).filter (governs u f (vw f))).map (element a (vw f))).sum % 2 ^ vw f) := by
  intro n r x
  constructor
  · refine exec_completes hf he hr ?_
    unfold vredBody
    rw [act_bind_ok ha, act_bind_ok (act_get _)]
    dsimp only
    rw [vCount_eq, act_bind_ok (takeDraws_sound _ (sto_sound_after hf hr (readV_bad_begun ha))), reduceOp_eq,
      act_bind_ok (orFlags_eq _ _), canonical_eq]
    exact writeData_writable _ hd
  · intro h7 h14 h0
    have htree := tree_lanes h7 h14 (rmOf f) u a (governs u f (vw f)) (drawsOf f.rm (n - 1) u).1
    have hr : r = tree (sumOp f.fmt.toNat (rmOf f)) treeLevels (lanes a (vw f) n (governs u f (vw f)))
        (drawsOf f.rm (n - 1) u).1 := by
      show tree (reduceOp f (f.sub == 2#8) (f.sub == 0#8)) _ _ _ = _
      rw [h0]
      rfl
    show r.1.getD _ = _
    rw [hr, htree]
    dsimp only
    split
    · rfl
    · rename_i hnone
      rw [h0, ← laneSum_lanes]
      have hnone : ∀ x ∈ lanes a (vw f) n (governs u f (vw f)), x.getD 0 = 0 := by
        intro x hx
        have := mt (fun h => List.any_eq_true.2 ⟨x, hx, h⟩) hnone
        cases x <;> simp_all
      have : laneSum (lanes a (vw f) n (governs u f (vw f))) = 0 := List.sum_eq_zero (by simpa using hnone)
      rw [this]
      rfl

/-! ## Serial chains (06 R186 to R188) -/

theorem chain_length (op : Nat → Nat → Nat → Nat × Flags) (fmt : Nat) (active restart : Nat → Bool) (j run : Nat)
    (xs ds : List Nat) (h : xs.length = ds.length) : (chain op fmt active restart j run xs ds).1.length = xs.length := by
  induction xs generalizing j run ds with
  | nil => rfl
  | cons a xs ih =>
    cases ds with
    | nil => cases h
    | cons d ds =>
      have h' : xs.length = ds.length := by simpa using h
      rw [chain]
      dsimp only
      split <;> simp [ih _ _ _ h']

/-- The sum that element j starts from: that of the elements before it, or 0 at a head. -/
def sumBefore (u : State) (f : Ext) (a : VWord) (head : Nat → Bool) : Nat → Nat
  | 0 => 0
  | j + 1 => prefixSum u f a head j

theorem prefixSum_eq (u : State) (f : Ext) (a : VWord) (head : Nat → Bool) (j : Nat) : prefixSum u f a head j =
    (if head j then 0 else sumBefore u f a head j) + (if governs u f (vw f) j then element a (vw f) j else 0) := by
  cases j with
  | zero => simp [prefixSum, sumBefore]
  | succ j => rfl

theorem chain_cons (op : Nat → Nat → Nat → Nat × Flags) (fmt : Nat) (active restart : Nat → Bool) (j run a d : Nat)
    (xs ds : List Nat) : chain op fmt active restart j run (a :: xs) (d :: ds) =
      (let r := op d (if restart j then 0 else run) a
       let s := chain op fmt active restart (j + 1) (if active j then r.1 else if restart j then 0 else run) xs ds
       ((if active j then some (canonical fmt r.1) else none) :: s.1, if active j then r.2 ||| s.2 else s.2)) := by
  rw [chain]
  cases active j <;> rfl

/-- A chain of integer sums gives the prefix sums modulo m, without flags. -/
theorem chain_sums {m fmt : Nat} {op : Nat → Nat → Nat → Nat × Flags} (hop : AddsModulo m op) (hfmt : fmt ≠ 14) (u : State) (f : Ext)
    (a : VWord) (head : Nat → Bool) (k j run : Nat) (ds : List Nat) (hds : ds.length = k)
    (hrun : run % m = sumBefore u f a head j % m) :
    let c := chain op fmt (governs u f (vw f)) head j run ((List.range' j k).map (element a (vw f))) ds
    c.2 = Flags.none ∧
      ∀ l, l < k → governs u f (vw f) (j + l) = true → c.1.getD l none = some (prefixSum u f a head (j + l) % m) := by
  induction k generalizing j run ds with
  | zero => exact ⟨by rw [List.range'_zero, List.map_nil, chain]; simp, fun l hl => by omega⟩
  | succ k ih =>
    obtain ⟨d, ds, rfl⟩ := List.exists_cons_of_length_eq_add_one hds
    have hsum : ((if head j then 0 else run) + (if governs u f (vw f) j then element a (vw f) j else 0)) % m =
        prefixSum u f a head j % m := by
      rw [prefixSum_eq]
      split
      · rfl
      · rw [Nat.add_mod, hrun, ← Nat.add_mod]
    have hnext : (if governs u f (vw f) j then ((if head j then 0 else run) + element a (vw f) j) % m
        else if head j then 0 else run) % m = sumBefore u f a head (j + 1) % m := by
      rw [sumBefore, ← hsum]
      cases governs u f (vw f) j <;> simp
    obtain ⟨hflags, hvalues⟩ := ih (j + 1) _ ds (by simpa using hds) hnext
    unfold AddsModulo at hop
    rw [List.range'_succ, List.map_cons, chain_cons]
    simp only [hop, hflags, flags_none_or, ite_self, true_and]
    intro l hl hg
    cases l with
    | zero =>
      simp only [Nat.add_zero] at hg ⊢
      rw [if_pos hg] at hsum
      simp only [List.getD_cons_zero, hg, if_true, canonical, hfmt, if_false, hsum]
    | succ l =>
      rw [show j + (l + 1) = j + 1 + l by omega] at hg ⊢
      exact hvalues l (by omega) hg

/-- VSCAN or VSEGSCAN is its chain over the elements of A. -/
def scanChain (u : State) (f : Ext) (a : VWord) (head : Nat → Bool) : List (Option Nat) × Flags :=
  let n := elementCount u (vw f)
  chain (sumOp f.fmt.toNat (Rm.ofCode f.rm.toNat)) f.fmt.toNat (governs u f (vw f)) head 0 0
    ((List.range n).map (element a (vw f))) (drawsOf f.rm n u).1

theorem scanChain_length (u : State) (f : Ext) (a : VWord) (head : Nat → Bool) :
    (scanChain u f a head).1.length = elementCount u (vw f) := by
  rw [scanChain, chain_length _ _ _ _ _ _ _ _ (by simp [drawsOf_length]), List.length_map, List.length_range]

theorem scanChain_sums {f : Ext} (h7 : 7 ≤ f.fmt.toNat) (h14 : f.fmt.toNat < 14) (u : State) (a : VWord) (head : Nat → Bool) :
    (scanChain u f a head).2 = Flags.none ∧ ∀ j, j < elementCount u (vw f) → governs u f (vw f) j = true →
      (scanChain u f a head).1.getD j none = some (prefixSum u f a head j % 2 ^ vw f) := by
  have hop : AddsModulo (2 ^ vw f) (sumOp f.fmt.toNat (Rm.ofCode f.rm.toNat)) := sumOp_addsModulo h7 h14 _
  have h := chain_sums hop (show f.fmt.toNat ≠ 14 by omega) u f a head (elementCount u (vw f)) 0 0 (drawsOf f.rm (elementCount u (vw f)) u).1
    (drawsOf_length _ _ _) rfl
  rw [← List.range_eq_range'] at h
  simpa [scanChain] using h

theorem vectorScans_of {i : Instr} {op : BitVec 6} {fn : BitVec 4} {f : Ext} {heads : Word → Nat → Bool}
    (hf : i.fields = some (op, fn, f)) (he : ∀ s, exec i s = instr op fn f (scanWith heads f) s) : VectorScans i f heads := by
  intro s u a hr ha hd n hc head c
  have hbad := readV_bad_begun ha
  have hbody : scanWith heads f (begun s) =
      writeElements f (vw f) (scanChain u f a head).1 (setFlags (scanChain u f a head).2 (afterDraws f.rm n u)) := by
    unfold scanWith
    rw [act_bind_ok ha, act_bind_ok (act_get _)]
    dsimp only
    rw [vCount_eq, act_bind_ok (readP_after hbad hc), act_bind_ok (takeDraws_sound _ (sto_sound_after hf hr hbad))]
    exact act_bind_ok (orFlags_eq _ _)
  refine ⟨vectorIs_of hf (he s) hr hd hbody ⟨scanChain_length u f a head, fun _ _ _ => rfl⟩, fun h7 h14 => ?_⟩
  obtain ⟨hflags, hvalues⟩ := scanChain_sums h7 h14 u a head
  rw [hflags] at hbody
  refine vectorIs_of hf (he s) hr hd hbody ⟨scanChain_length u f a head, fun j hj hg => ?_⟩
  rw [hvalues j hj hg]
  simp

/-! ## Segment sums (06 R187) -/

/-- The sum of segment number i, with its head: (head, sum, flags). -/
def segmentSum (f : Ext) (a : VWord) (n : Nat) (on : Nat → Bool) (heads ds : List Nat) (i h : Nat) : Nat × Option Nat × Flags :=
  let stop := (heads.find? (fun k => decide (h < k))).getD n
  if on h then
    let r := tree (sumOp (fmtOf f) (rmOf f)) treeLevels
      (lanes a (vw f) n (fun j => on j && decide (h ≤ j) && decide (j < stop))) (ds.drop (i * (n - 1)))
    (h, r.1, r.2)
  else (h, none, Flags.none)

theorem segmentSum_head (f : Ext) (a : VWord) (n : Nat) (on : Nat → Bool) (heads ds : List Nat) (i h : Nat) :
    (segmentSum f a n on heads ds i h).1 = h := by
  unfold segmentSum
  dsimp only
  split <;> rfl

/-- What element j of D receives. -/
def segmentResult (f : Ext) (sums : List (Nat × Option Nat × Flags)) (j : Nat) : Option Nat :=
  match sums.find? (fun r => r.1 == j) with
  | some r => r.2.1.map (canonical (fmtOf f))
  | none => some 0

section
variable {i : Instr} {op : BitVec 6} {fn : BitVec 4} {f : Ext} {s u : State} {a : VWord}

/-- The heads of the segments of an instruction, and its sums. -/
def segmentsOf (u : State) (f : Ext) : List Nat := segmentHeads (predOf u f.c) (vw f) (elementCount u (vw f))

def sumsOf (u : State) (f : Ext) (a : VWord) : List (Nat × Option Nat × Flags) :=
  let n := elementCount u (vw f)
  (segmentsOf u f).mapIdx
    (segmentSum f a n (governs u f (vw f)) (segmentsOf u f) (drawsOf f.rm ((segmentsOf u f).length * (n - 1)) u).1)

def segmentFlags (sums : List (Nat × Option Nat × Flags)) : Flags := sums.foldl (fun x r => x ||| r.2.2) Flags.none

theorem vsegsumBody_eq (hf : i.fields = some (op, fn, f)) (hr : Runs i s) (ha : readV f.a f.ta (begun s) = .ok (a, u))
    (hc : PReadable s f.c) : vsegsumBody f (begun s) =
      writeElements f (vw f) ((List.range (elementCount u (vw f))).map (segmentResult f (sumsOf u f a)))
        (setFlags (segmentFlags (sumsOf u f a))
          (afterDraws f.rm ((segmentsOf u f).length * (elementCount u (vw f) - 1)) u)) := by
  have hbad := readV_bad_begun ha
  unfold vsegsumBody
  rw [act_bind_ok ha, act_bind_ok (act_get _)]
  dsimp only
  rw [vCount_eq, act_bind_ok (readP_after hbad hc), act_bind_ok (takeDraws_sound _ (sto_sound_after hf hr hbad))]
  exact act_bind_ok (orFlags_eq _ _)

/-- An element that is no head receives 0. -/
theorem segmentResult_other {u : State} {f : Ext} {a : VWord} {j : Nat} (h0 : 0 < j)
    (hp : predBit (predOf u f.c) (vw f) j = false) : segmentResult f (sumsOf u f a) j = some 0 := by
  have hnone : (sumsOf u f a).find? (fun r => r.1 == j) = none := by
    refine List.find?_eq_none.2 (fun r hr => ?_)
    obtain ⟨k, hk, rfl⟩ := List.mem_mapIdx.1 hr
    obtain ⟨-, hhead⟩ := List.mem_filter.1 (List.getElem_mem hk)
    rw [segmentSum_head, beq_iff_eq]
    intro hkj
    change (segmentsOf u f)[k] = j at hkj
    change ((segmentsOf u f)[k] == 0 || predBit (predOf u f.c) (vw f) (segmentsOf u f)[k]) = true at hhead
    rw [hkj, hp, Bool.or_false, beq_iff_eq] at hhead
    omega
  rw [segmentResult, hnone]

end

/-! ## Integer segment sums -/

/-- The end of a segment: the next head, or the number of elements. -/
theorem lt_segmentStop {p : Nat → Bool} {n h k : Nat} (hk : k < n) :
    k < (((List.range n).filter p).find? (fun j => decide (h < j))).getD n ↔
      (List.range (k + 1)).any (fun j => decide (h < j) && p j) = false := by
  have hany : (List.range (k + 1)).any (fun j => decide (h < j) && p j) = false ↔ ∀ j, j ≤ k → h < j → p j = false := by
    simp [List.any_eq_false]
  rw [hany, List.find?_filter]
  cases hm : (List.range n).find? (fun j => decide (p j = true ∧ decide (h < j) = true)) with
  | none =>
    rw [List.find?_eq_none] at hm
    refine ⟨fun _ j hj hh => ?_, fun _ => hk⟩
    simpa [hh] using hm j (List.mem_range.2 (by omega))
  | some m =>
    obtain ⟨hpm, -, hfirst⟩ := List.find?_range_eq_some.1 hm
    rw [decide_eq_true_iff, decide_eq_true_iff] at hpm
    obtain ⟨hp, hhm⟩ := hpm
    rw [Option.getD_some]
    constructor
    · intro hkm j hj hh
      simpa [hh] using hfirst j (by omega)
    · intro hall
      by_contra hle
      rw [hall m (by omega) hhm] at hp
      cases hp

/-- Element k takes part in the segment of head j. -/
def inSegment (u : State) (f : Ext) (j k : Nat) : Bool :=
  decide (j ≤ k) && governs u f (vw f) k &&
    !((List.range (k + 1)).any (fun h => decide (j < h) && (h == 0 || predBit (predOf u f.c) (vw f) h)))

theorem inSegment_eq {u : State} {f : Ext} {j k : Nat} (hk : k < elementCount u (vw f)) :
    (governs u f (vw f) k && decide (j ≤ k) &&
      decide (k < ((segmentsOf u f).find? (fun h => decide (j < h))).getD (elementCount u (vw f)))) = inSegment u f j k := by
  have hstop : decide (k < ((segmentsOf u f).find? (fun h => decide (j < h))).getD (elementCount u (vw f))) =
      !((List.range (k + 1)).any (fun h => decide (j < h) && (h == 0 || predBit (predOf u f.c) (vw f) h))) := by
    rw [Bool.eq_iff_iff, decide_eq_true_iff, Bool.not_eq_true']
    exact lt_segmentStop hk
  rw [inSegment, hstop, Bool.and_comm (decide (j ≤ k))]

theorem inSegment_self {u : State} {f : Ext} {j : Nat} (hg : governs u f (vw f) j = true) : inSegment u f j j = true := by
  have hlast : (List.range (j + 1)).any (fun h => decide (j < h) && (h == 0 || predBit (predOf u f.c) (vw f) h)) = false := by
    simp only [List.any_eq_false, List.mem_range, Bool.and_eq_true, decide_eq_true_iff]
    omega
  rw [inSegment, hlast, hg, decide_eq_true (Nat.le_refl j)]
  rfl

/-- The lanes of the segment of a governed head. -/
theorem segmentSum_governed {u : State} {f : Ext} {a : VWord} (h7 : 7 ≤ f.fmt.toNat) (h14 : f.fmt.toNat < 14) {j : Nat}
    (hj : j < elementCount u (vw f)) (hg : governs u f (vw f) j = true) (rm : Rm) (ds : List Nat) :
    tree (sumOp f.fmt.toNat rm) treeLevels (lanes a (vw f) (elementCount u (vw f)) (fun k =>
      governs u f (vw f) k && decide (j ≤ k) &&
        decide (k < ((segmentsOf u f).find? (fun h => decide (j < h))).getD (elementCount u (vw f))))) ds =
      (some ((((List.range (elementCount u (vw f))).filter (inSegment u f j)).map (element a (vw f))).sum % 2 ^ vw f),
        Flags.none) := by
  have hself := (inSegment_eq hj).trans (inSegment_self hg)
  rw [tree_lanes h7 h14, if_pos ((any_lanes _ _ _ _).2 ⟨j, hj, hself⟩)]
  rw [List.filter_congr (fun k hk => inSegment_eq (List.mem_range.1 hk))]

/-- An entry of the sums: at a governed head the sum of its segment, and no flag. -/
theorem mem_sumsOf {u : State} {f : Ext} {a : VWord} (h7 : 7 ≤ f.fmt.toNat) (h14 : f.fmt.toNat < 14)
    {r : Nat × Option Nat × Flags} (hr : r ∈ sumsOf u f a) :
    r.2.2 = Flags.none ∧ (governs u f (vw f) r.1 = true → r.2.1 =
      some ((((List.range (elementCount u (vw f))).filter (inSegment u f r.1)).map (element a (vw f))).sum % 2 ^ vw f)) := by
  obtain ⟨i, hi, rfl⟩ := List.mem_mapIdx.1 hr
  have hlt : (segmentsOf u f)[i] < elementCount u (vw f) := List.mem_range.1 (List.mem_filter.1 (List.getElem_mem hi)).1
  rw [segmentSum_head]
  generalize (segmentsOf u f)[i] = h at hlt
  unfold segmentSum
  dsimp only
  by_cases hg : governs u f (vw f) h = true
  · rw [if_pos hg, show fmtOf f = f.fmt.toNat from rfl, segmentSum_governed h7 h14 hlt hg]
    exact ⟨rfl, fun _ => rfl⟩
  · rw [if_neg hg]
    exact ⟨rfl, fun h => absurd h hg⟩

theorem segmentFlags_integer {u : State} {f : Ext} {a : VWord} (h7 : 7 ≤ f.fmt.toNat) (h14 : f.fmt.toNat < 14) :
    segmentFlags (sumsOf u f a) = Flags.none := by
  have hall := fun r hr => (mem_sumsOf (a := a) (u := u) h7 h14 (r := r) hr).1
  unfold segmentFlags
  generalize sumsOf u f a = rs at hall
  induction rs with
  | nil => rfl
  | cons r rs ih =>
    rw [List.foldl_cons, hall r (by simp), flags_none_or]
    exact ih (fun r hr => hall r (by simp [hr]))

/-- A governed head receives the sum of its segment (06 R187). -/
theorem segmentResult_head {u : State} {f : Ext} {a : VWord} (h7 : 7 ≤ f.fmt.toNat) (h14 : f.fmt.toNat < 14) {j : Nat}
    (hj : j < elementCount u (vw f)) (hhead : (j == 0 || predBit (predOf u f.c) (vw f) j) = true)
    (hg : governs u f (vw f) j = true) : segmentResult f (sumsOf u f a) j =
      some ((((List.range (elementCount u (vw f))).filter (inSegment u f j)).map (element a (vw f))).sum % 2 ^ vw f) := by
  have hfmt : fmtOf f ≠ 14 := by unfold fmtOf; omega
  unfold segmentResult
  cases hfind : (sumsOf u f a).find? (fun r => r.1 == j) with
  | none =>
    obtain ⟨i, hi, hij⟩ := List.mem_iff_getElem.1
      (List.mem_filter.2 ⟨List.mem_range.2 hj, hhead⟩ : j ∈ segmentsOf u f)
    have hmem := List.find?_eq_none.1 hfind _ (List.mem_mapIdx.2 ⟨i, hi, rfl⟩)
    rw [segmentSum_head, beq_iff_eq] at hmem
    exact absurd hij hmem
  | some r =>
    have hr1 : r.1 = j := by simpa using List.find?_some hfind
    obtain ⟨-, hsum⟩ := mem_sumsOf h7 h14 (List.mem_of_find?_eq_some hfind)
    rw [hr1] at hsum
    dsimp only
    rw [hsum hg, Option.map_some, canonical, if_neg hfmt]

section
variable {i : Instr} {op : BitVec 6} {fn : BitVec 4} {f : Ext} {s u : State} {a : VWord}
  (hf : i.fields = some (op, fn, f)) (he : exec i s = instr op fn f (vsegsumBody f) s) (hr : Runs i s)
  (ha : readV f.a f.ta (begun s) = .ok (a, u)) (hd : VWritable u f.d) (hc : PReadable s f.c)
include hf he hr ha hd hc

theorem vsegsum_integers (h7 : 7 ≤ f.fmt.toNat) (h14 : f.fmt.toNat < 14) (hrm : f.rm ≠ 5#3) :
    VectorMoves i f s u (fun j => if j == 0 || predBit (predOf u f.c) (vw f) j then
      some ((((List.range (elementCount u (vw f))).filter (inSegment u f j)).map (element a (vw f))).sum) else some 0) := by
  have hbody := vsegsumBody_eq hf hr ha hc
  rw [segmentFlags_integer h7 h14, afterDraws_no_rounding hrm] at hbody
  refine vectorIs_of hf he hr hd hbody ⟨by simp, fun j hj hg => ?_⟩
  simp only [List.getD_eq_getElem?_getD, List.getElem?_map, List.getElem?_range hj, Option.map_some, Option.getD_some]
  split
  · rename_i hhead
    simp [segmentResult_head (a := a) h7 h14 hj hhead hg]
  · rename_i hhead
    rw [Bool.not_eq_true, Bool.or_eq_false_iff, beq_eq_false_iff_ne] at hhead
    rw [segmentResult_other (Nat.pos_of_ne_zero hhead.1) hhead.2]

theorem vsegsum_completes :
    ∃ r fl, (∀ j, 0 < j → predBit (predOf u f.c) (vw f) j = false → r j = some 0) ∧
      VectorIs i f s (afterDraws f.rm (((List.range (elementCount u (vw f))).filter
        (fun j => j == 0 || predBit (predOf u f.c) (vw f) j)).length * (elementCount u (vw f) - 1)) u) (vw f) r fl :=
  ⟨segmentResult f (sumsOf u f a), _, fun _ => segmentResult_other,
    vectorIs_of hf he hr hd (vsegsumBody_eq hf hr ha hc) (governedAgree_range rfl)⟩

end

/-! ## The forms -/

theorem vrncvtBody_into {f : Ext} (h : f.sub = 0#8) : vrncvtBody f = vconvert f.fmt.toNat 14 false f := if_pos h

theorem vrncvtBody_from {f : Ext} (h : f.sub ≠ 0#8) : vrncvtBody f = vconvert 14 f.fmt.toNat false f := if_neg h

/-- Settles O30: conversions are listed by their destinations; trees and chains of integer sums keep the sum modulo 2^w of the
lanes below them. -/
theorem vectorConversionsAndReductionsComplete : Obligations.VectorConversionsAndReductionsComplete := by
  unfold Obligations.VectorConversionsAndReductionsComplete
  refine ⟨fun f => vectorConverts_of rfl (fun _ => rfl), fun f h => vectorConverts_of rfl (fun s => ?_),
    fun f h => vectorConverts_of rfl (fun s => ?_), fun _ _ _ _ hr ha hd => vred_completes rfl rfl hr ha hd,
    fun _ => vectorScans_of rfl (fun _ => rfl), fun _ => vectorScans_of rfl (fun _ => rfl),
    fun _ _ _ _ hr ha hd hc => vsegsum_integers rfl rfl hr ha hd hc,
    fun _ _ _ _ hr ha hd hc => vsegsum_completes rfl rfl hr ha hd hc⟩
  · rw [← vrncvtBody_into h]; rfl
  · rw [← vrncvtBody_from h]; rfl

end Sys2Proof.Machine
end

section
/-!
Vector loads and stores, and bitmap-sparse records (06 R191, R192, 05 R171).
-/

namespace Sys2Proof.Machine

/-! ## What the checks of an access leave (05 R141) -/

/-- Between two states only memory, engines of cores, frames of contexts and answers of other devices differ, and the contexts are
those that were there. -/
structure AccessFrame (s t : State) : Prop where
  rest : t = { s with mem := t.mem, cores := t.cores, ctxs := t.ctxs, fabricIn := t.fabricIn }
  numbers : t.ctxs.map (·.number) = s.ctxs.map (·.number)

theorem AccessFrame.refl (s : State) : AccessFrame s s := ⟨rfl, rfl⟩

theorem AccessFrame.trans {s t u : State} (h : AccessFrame s t) (k : AccessFrame t u) : AccessFrame s u := by
  obtain ⟨hrest, hnum⟩ := h
  obtain ⟨krest, knum⟩ := k
  refine ⟨?_, knum.trans hnum⟩
  rw [krest, hrest]

/-- A state that differs in memory, cores and answers alone. -/
theorem AccessFrame.of_eq {s t : State} (h : t = { s with mem := t.mem, cores := t.cores, fabricIn := t.fabricIn }) :
    AccessFrame s t := by
  have hc : t.ctxs = s.ctxs := by rw [h]
  exact ⟨by rw [hc]; exact h, by rw [hc]⟩

theorem AccessFrame.cur {s t : State} (h : AccessFrame s t) : t.cur = s.cur := by rw [h.rest]

theorem AccessFrame.nextId {s t : State} (h : AccessFrame s t) : t.nextId = s.nextId := by rw [h.rest]

/-- Where `x` answers, it changed no more than an access does. -/
def Frames {α : Type} (x : Act α) : Prop := ∀ s a t, x s = .ok (a, t) → AccessFrame s t

theorem Frames.pure {α : Type} (a : α) : Frames (pure a : Act α) := by
  intro s b t h; cases h; exact .refl s

theorem Frames.get : Frames (get : Act State) := by
  intro s b t h; cases h; exact .refl s

theorem Frames.throw {α : Type} (e : Exc) : Frames (throw e : Act α) := by
  intro s b t h; cases h

theorem Frames.trap {α : Type} (c : Nat) (i : DWord) : Frames (trap c i : Act α) := .throw _

theorem Frames.bind {α β : Type} {x : Act α} {f : α → Act β} (hx : Frames x) (hf : ∀ a, Frames (f a)) : Frames (x >>= f) := by
  intro s b t h
  rw [act_bind] at h
  cases hs : x s with
  | error e => rw [hs] at h; cases h
  | ok r =>
    rw [hs] at h
    exact (hx s r.1 r.2 hs).trans (hf r.1 _ _ _ h)

theorem Frames.ite {α : Type} {b : Prop} [Decidable b] {x y : Act α} (hx : Frames x) (hy : Frames y) :
    Frames (if b then x else y) := by split <;> assumption

theorem Frames.trapIf (b : Bool) (c : Nat) (i : DWord) : Frames (trapIf b c i) := .ite (.trap c i) (.pure _)

theorem Frames.waitIf (b : Bool) : Frames (waitIf b) := .ite (.throw _) (.pure _)

theorem Frames.modify (f : State → State) (hf : ∀ s, AccessFrame s (f s)) : Frames (modify f : Act PUnit) := by
  intro s b t h; cases h; exact hf s

theorem Frames.modMem (f : Memory → Memory) : Frames (modMem f) := .modify _ (fun _ => .of_eq rfl)

theorem Frames.modCore (p : Pos) (f : CoreState → CoreState) : Frames (modCore p f) := .modify _ (fun _ => .of_eq rfl)

theorem Frames.mapM {α β : Type} {f : α → Act β} (hf : ∀ a, Frames (f a)) (xs : List α) : Frames (xs.mapM f) := by
  induction xs with
  | nil => exact .pure _
  | cons x r ih =>
    rw [List.mapM_cons]
    exact .bind (hf x) (fun _ => .bind ih (fun _ => .pure _))

/-- Taking a frame changes a context, but not its number. -/
theorem Frames.takeFrame (c : Ctx) (die : Nat) : Frames (takeFrame c die) := by
  have hmod (d : Nat) (rest : List Nat) : Frames (modCtx c.number (fun c => { c with frames := c.frames.set d rest })) := by
    refine .modify _ (fun s => ⟨rfl, ?_⟩)
    dsimp only
    rw [List.map_map]
    refine List.map_congr_left (fun x _ => ?_)
    dsimp only [Function.comp]
    split <;> rfl
  unfold Machine.takeFrame
  refine .bind .get (fun s => ?_)
  dsimp only
  repeat' (first | with_reducible exact .pure _ | with_reducible exact .bind (hmod _ _) (fun _ => .pure _) | split)

theorem Frames.putEntry (a : Nat) (w : DWord) : Frames (putEntry a w) := .modMem _

theorem Frames.countAccess (c : Nat) (p : DWord) (d : Nat) : Frames (countAccess c p d) := .modMem _

theorem Frames.translatePaged (c : Ctx) (die : Nat) (pins : List Nat) (addr size : Nat) (kind : Kind) :
    Frames (translatePaged c die pins addr size kind) := by
  unfold Machine.translatePaged
  dsimp only
  refine .bind .get (fun s => ?_)
  split
  · exact .trap _ _
  · refine .bind (.waitIf _) (fun _ => .bind (.trapIf _ _ _) (fun _ => ?_))
    repeat' (first
      | with_reducible exact .pure _
      | with_reducible exact .trap _ _
      | with_reducible refine .bind (.trapIf _ _ _) (fun _ => ?_)
      | with_reducible refine .bind .get (fun _ => ?_)
      | with_reducible refine .bind (.takeFrame _ _) (fun _ => ?_)
      | with_reducible refine .bind (.putEntry _ _) (fun _ => ?_)
      | with_reducible refine .bind (.countAccess _ _ _) (fun _ => ?_)
      | with_reducible refine .bind (.trap _ _) (fun _ => ?_)
      | with_reducible refine .bind (.pure _) (fun _ => ?_)
      | split)

theorem Frames.translateIn (c : Ctx) (b : Option Band) (own : Option Pos) (die : Nat) (pins : List Nat) (addr size : Nat)
    (kind : Kind) : Frames (translateIn c b own die pins addr size kind) := by
  unfold Machine.translateIn
  dsimp only
  refine .bind .get (fun s => ?_)
  repeat' (first
    | with_reducible exact .pure _
    | with_reducible exact .trap _ _
    | with_reducible exact .translatePaged _ _ _ _ _ _
    | with_reducible refine .bind (.trapIf _ _ _) (fun _ => ?_)
    | split)

theorem Frames.translateFor (a : Agent) (addr size : Nat) (kind : Kind) : Frames (translateFor a addr size kind) := by
  unfold Machine.translateFor
  refine .bind (.translateIn _ _ _ _ _ _ _ _) (fun p => ?_)
  dsimp only
  split
  · exact .bind (.modify _ (fun _ => .of_eq rfl)) (fun _ => .pure _)
  · exact .pure _

theorem Frames.fabricAnswer (addr : Nat) (timed : Bool) : Frames (fabricAnswer addr timed) := by
  unfold Machine.fabricAnswer
  refine .bind .get (fun s => ?_)
  split
  · exact .bind (.modify _ (fun _ => .of_eq rfl)) (fun _ => .pure _)
  · exact .ite (.throw _) (.throw _)

theorem Frames.checkWriter (a : Agent) (p : Place) (addr : Nat) : Frames (checkWriter a p addr) := by
  unfold Machine.checkWriter
  split
  · exact .bind .get (fun _ => .trapIf _ _ _)
  · exact .trapIf _ _ _
  · exact .pure _

theorem Frames.checkOwner (a : Agent) (p : Place) (addr size : Nat) : Frames (checkOwner a p addr size) := by
  unfold Machine.checkOwner
  split
  · split
    · exact .bind .get (fun _ => .trapIf _ _ _)
    · exact .trap _ _
  · exact .trapIf _ _ _
  · exact .pure _

theorem Frames.checkCells (l : Loop) (iteration : Nat) (is : List Nat) : Frames (checkCells l iteration is) := by
  induction is with
  | nil => exact .pure _
  | cons i r ih =>
    have hheld : Frames (cellHeld l iteration i) := by
      unfold Machine.cellHeld
      exact .ite (.pure _) (.bind .get (fun s => .ite (.bind (.fabricAnswer _ _) (fun _ => .pure _)) (.pure _)))
    exact .bind hheld (fun _ => .bind (.trapIf _ _ _) (fun _ => ih))

theorem Frames.checkGuard (a : Agent) (addr size : Nat) : Frames (checkGuard a addr size) := by
  unfold Machine.checkGuard
  split
  · refine .bind .get (fun s => ?_)
    split
    · exact .pure _
    · refine .ite (.checkCells _ _ _) ?_
      split
      · exact .trap _ _
      · exact .pure _
  · exact .pure _

theorem Frames.checkWrite (a : Agent) (p : Place) (addr size : Nat) (checked fmtw : Bool) :
    Frames (checkWrite a p addr size checked fmtw) := by
  have hview : Frames (match p with
      | .bytes k _ => Machine.trapIf (keyIsView k && !fmtw) 0x06 (w64 addr)
      | _ => Pure.pure ()) := by
    split
    · exact .trapIf _ _ _
    · exact .pure _
  unfold Machine.checkWrite
  dsimp only
  split
  · exact .bind (.checkWriter _ _ _) (fun _ => .bind (.checkGuard _ _ _) (fun _ => hview))
  · exact .bind (.checkGuard _ _ _) (fun _ => hview)

theorem Frames.awaitCopies (a : Agent) (k size : Nat) : Frames (awaitCopies a k size) := by
  unfold Machine.awaitCopies
  refine .bind .get (fun s => ?_)
  split <;> exact .waitIf _

theorem stashKeep_frame (core : Pos) (x : StashMap) (l : Nat) (s : State) : AccessFrame s (stashKeep core x l s) := by
  unfold stashKeep
  exact foldl_keeps _ (fun y : State => AccessFrame s y) (fun _ _ h => h.trans (.of_eq rfl)) _ (.refl s)

theorem stashDrop_frame (core : Pos) (n : Nat) (want : State → StashMap → Nat → Bool) (s : State) :
    AccessFrame s (stashDrop core n want s) := by
  unfold stashDrop
  split
  · exact .refl s
  · dsimp only
    split
    · exact .refl s
    · refine AccessFrame.trans (foldl_keeps _ (fun y : State => AccessFrame s y) (fun _ _ h => h.trans (stashKeep_frame ..)) _
        (.refl s)) (.of_eq rfl)

theorem recallStashes_frame (own : OwnStash) (k n : Nat) (s : State) : AccessFrame s (recallStashes own k n s) := by
  unfold recallStashes stashDropAll
  split
  · exact .refl s
  · exact foldl_keeps _ (fun x : State => AccessFrame s x) (fun _ _ hx =>
      foldl_keeps _ (fun y : State => AccessFrame s y) (fun _ _ hy => hy.trans (stashDrop_frame ..)) _ hx) _ (.refl s)

theorem Frames.arrive (own : OwnStash) (a : Agent) (p : Place) (addr size : Nat) (kind : Kind) (checked fmtw : Bool) :
    Frames (arrive own a p addr size kind checked fmtw) := by
  unfold Machine.arrive
  dsimp only
  repeat' (first
    | with_reducible exact .pure _
    | with_reducible exact .modify _ (recallStashes_frame _ _ _)
    | with_reducible refine .bind (.awaitCopies _ _ _) (fun _ => ?_)
    | with_reducible refine .bind (.pure _) (fun _ => ?_)
    | with_reducible refine .bind (.checkWrite _ _ _ _ _ _) (fun _ => ?_)
    | split)

theorem Frames.reachGlobal (own : OwnStash) (a : Agent) (kind : Kind) (checked fmtw : Bool) (piece : Nat × Nat) :
    Frames (reachGlobal own a kind checked fmtw piece) := by
  unfold Machine.reachGlobal
  dsimp only
  refine .bind (.translateFor _ _ _ _) (fun _ => ?_)
  split
  · exact .bind (.checkOwner _ _ _ _) (fun _ => .bind (.arrive _ _ _ _ _ _ _ _) (fun _ => .pure _))
  · exact .bind (.arrive _ _ _ _ _ _ _ _) (fun _ => .pure _)

/-- The checks of an access change no more than its frame. -/
theorem Frames.reach (a : Agent) (addr size : Nat) (kind : Kind) (checked fmtw : Bool) :
    Frames (reach a addr size kind checked fmtw) := by
  unfold Machine.reach
  dsimp only
  refine .bind (.translateFor _ _ _ _) (fun p => .bind (.checkOwner _ _ _ _) (fun _ => .bind .get (fun s => ?_)))
  split
  · exact .bind (.arrive _ _ _ _ _ _ _ _) (fun _ => .pure _)
  · refine .bind (.trapIf _ _ _) (fun _ => ?_)
    split
    · exact .throw _
    · exact .bind (.mapM (fun _ => .reachGlobal _ _ _ _ _ _) _) (fun _ => .bind (.modCore _ _) (fun _ => .pure _))

theorem findCtx_isSome (s : State) (n : Nat) : (findCtx s n).isSome = true ↔ n ∈ s.ctxs.map (·.number) := by
  simp [findCtx, List.find?_isSome]

/-- The issuing thread is an agent also after the checks of an access, with the same eye. -/
theorem curAgent_after {s t : State} {a : Agent} (h : curAgent s = .ok (a, s)) (hf : AccessFrame s t) :
    ∃ b, curAgent t = .ok (b, t) ∧ b.eye = eyeOf s.cur := by
  obtain ⟨-, -, -, -, hctx, hwait⟩ := curAgent_ok h
  have hsome : (findCtx t t.cur.fid.ctx).isSome = true := by
    rw [findCtx_isSome, hf.numbers, hf.cur, ← findCtx_isSome, hctx]
    rfl
  obtain ⟨c, hc⟩ := Option.isSome_iff_exists.1 hsome
  have hb := curAgent_spec t
  rw [hc] at hb
  simp only [hf.cur, hwait, Bool.false_eq_true, if_false] at hb
  refine ⟨_, hb, ?_⟩
  rw [curAgent_eye hb, hf.cur]

/-! ## Reading and writing bytes one after the other -/

theorem pullStore_same (m : Memory) (die : Nat) (v : Viewer) (k n : Nat) :
    Memory.SameData (m.pullStore die v k n) m ∧ (m.pullStore die v k n).views = m.views := by
  unfold Memory.pullStore
  exact foldl_keeps _ (fun x : Memory => Memory.SameData x m ∧ x.views = m.views)
    (fun x c hx => ⟨(applyWhere_same x _ _).trans hx.1, hx.2⟩) _ ⟨.refl m, rfl⟩

/-- What a read of bytes without views does first changes no data and no view. -/
theorem readied_same {m : Memory} {k : Nat} (e : Eye) (n : Nat) (hv : keyIsView k = false) (h : NoViews k m) :
    Memory.SameData (m.readied e k n) m ∧ (m.readied e k n).views = m.views := by
  unfold Memory.readied
  split
  · exact pullStore_same m _ _ _ _
  · rename_i hs
    have h0 : m.recallViews k n false = m := by
      unfold Memory.recallViews
      simp [h.resolve_left hs]
    rw [if_neg (by simp [hv]), h0]
    exact ⟨.refl m, rfl⟩

theorem noViews_congr {m m' : Memory} {k : Nat} (hv : m'.views = m.views) : NoViews k m' ↔ NoViews k m := by
  unfold NoViews
  rw [hv]

theorem firstPoison_congr {m m' : Memory} {k : Nat} (n : Nat) (hk : keyIsView k = false) (hp : m'.poison = m.poison) :
    m'.firstPoison k n = m.firstPoison k n := by
  simp [Memory.firstPoison, hk, hp]

/-- Keys of bytes that no view shows and that are not poisoned. -/
def ReadableKeys (n : Nat) (ks : List Nat) (m : Memory) : Prop :=
  ∀ k ∈ ks, keyIsView k = false ∧ NoViews k m ∧ m.firstPoison k n = none

theorem ReadableKeys.after {n k : Nat} {ks : List Nat} {m : Memory} (e : Eye) (h : ReadableKeys n (k :: ks) m) :
    ReadableKeys n ks (m.readied e k n) := by
  obtain ⟨hv, hn, -⟩ := h k (List.mem_cons_self ..)
  obtain ⟨hsame, hviews⟩ := readied_same e n hv hn
  intro x hx
  obtain ⟨xv, xn, xp⟩ := h x (List.mem_cons_of_mem _ hx)
  exact ⟨xv, (noViews_congr hviews).2 xn, (firstPoison_congr n xv hsame.poison).trans xp⟩

/-- Reads one after the other change no data. -/
theorem readsOf_same {n : Nat} {ks : List Nat} {m : Memory} (e : Eye) (h : ReadableKeys n ks m) :
    Memory.SameData (readsOf e n ks m).2 m := by
  induction ks generalizing m with
  | nil => exact .refl m
  | cons k ks ih =>
    obtain ⟨hv, hn, -⟩ := h k (List.mem_cons_self ..)
    exact (ih (h.after e)).trans (readied_same e n hv hn).1

theorem sameBytes_of_same {m m' : Memory} (h : Memory.SameData m m') : SameBytes m m' := ⟨h.cells, h.tags, h.poison, h.full⟩

theorem readsOf_length (e : Eye) (n : Nat) (ks : List Nat) (m : Memory) : (readsOf e n ks m).1.length = ks.length := by
  induction ks generalizing m with
  | nil => rfl
  | cons k ks ih => simp [readsOf, ih]

/-- A place of bytes at a key. -/
def BytesAt (p : Place) (k : Nat) : Prop := ∃ leaf, p = .bytes k leaf

/-- Bytes at places are read one after the other; `f` reads the place of an item, and `view` is what is kept of its answer. -/
theorem mapM_reads {α β γ : Type} {a : Agent} {n : Nat} {f : α → Act β} {place : α → Place} {addr : α → Nat} {view : β → γ}
    {keep : α → List Byte → γ}
    (hf : ∀ y s r u, readPlace a (place y) (addr y) n s = .ok (r, u) → ∃ b, f y s = .ok (b, u) ∧ view b = keep y r.1)
    {ys : List α} {ks : List Nat} {s : State} (hp : List.Forall₂ (fun y k => BytesAt (place y) k) ys ks)
    (hk : ReadableKeys n ks s.mem) :
    ∃ bs, ys.mapM f s = .ok (bs, { s with mem := (readsOf a.eye n ks s.mem).2 }) ∧
      bs.map view = List.zipWith keep ys (readsOf a.eye n ks s.mem).1 := by
  induction hp generalizing s with
  | nil => exact ⟨[], rfl, rfl⟩
  | @cons y k ys ks hy hp ih =>
    obtain ⟨leaf, hleaf⟩ := hy
    obtain ⟨hv, hn, hpoison⟩ := hk k (List.mem_cons_self ..)
    have hsame := (readied_same a.eye n hv hn).1
    obtain ⟨b, hb, hview⟩ := hf y s _ _ (hleaf ▸ readPlace_bytes (leaf := leaf) (addr := addr y) hv
      ((firstPoison_congr n hv hsame.poison).trans hpoison))
    obtain ⟨bs, hbs, hviews⟩ := ih (s := { s with mem := s.mem.readied a.eye k n }) (hk.after a.eye)
    refine ⟨b :: bs, ?_, by simp [readsOf, hview, hviews]⟩
    rw [List.mapM_cons, act_bind_ok hb, act_bind_ok hbs]
    rfl

/-- Writes of bytes at keys one after the other, each with a number of its own. -/
def writesOf (e : Eye) (late : List Nat) : Nat → List (Nat × List Byte) → Memory → Memory
  | _, [], m => m
  | id, w :: ws, m => writesOf e late (id + 1) ws (m.write e late id none w.1 w.2 false)

theorem mapM_writes {α : Type} {a : Agent} {place : α → Place} {addr : α → Nat} {bytes : α → List Byte} {ys : List α} {ks : List Nat}
    {s : State} (hp : List.Forall₂ (fun y k => BytesAt (place y) k) ys ks) :
    ys.mapM (fun y => writePlace a (place y) (addr y) (bytes y) false none) s =
      .ok (ys.map (fun _ => ⟨⟩), { s with
        mem := writesOf a.eye s.late s.nextId (ks.zip (ys.map bytes)) s.mem, nextId := s.nextId + ks.length }) := by
  induction hp generalizing s with
  | nil => rfl
  | @cons y k ys ks hy hp ih =>
    obtain ⟨leaf, hleaf⟩ := hy
    rw [List.mapM_cons, hleaf, act_bind_ok writePlace_bytes, act_bind_ok ih, List.length_cons, Nat.add_comm ks.length,
      ← Nat.add_assoc]
    rfl

theorem put_views (m : Memory) (die k : Nat) (bs : List Byte) : (m.put die k bs).views = m.views := by
  have htouch (m : Memory) (l : Nat) : (m.touchLine die l).views = m.views := by unfold Memory.touchLine; split <;> rfl
  unfold Memory.put
  dsimp only
  split
  · rfl
  · split
    · exact foldl_keeps Memory.cleanLine (fun x => x.views = m.views) (fun _ _ h => h) _ rfl
    · exact foldl_keeps (fun m l => (m.touchLine die l).setZero l (zeroAfter (lineBytes k l bs))) (fun x => x.views = m.views)
        (fun x l h => (htouch x l).trans h) _ rfl

theorem publish_views (m : Memory) (e : Eye) (late : List Nat) (id : Nat) (r : Option Nat) (c : List Nat)
    (before : List Host.Cell) (tags : List (Nat × Bool)) : (m.publish e late id r c before tags).views = m.views := by
  have hoffer (x : Memory) (w : DieWrite) (l : Bool) : (x.offer w l).views = x.views := by
    unfold Memory.offer
    split <;> rfl
  unfold Memory.publish
  exact foldl_keeps _ (fun x : Memory => x.views = m.views) (fun x _ h => (hoffer x _ _).trans h) _ rfl

/-- A write of bytes without views changes no view. -/
theorem write_views {m : Memory} {k : Nat} (e : Eye) (late : List Nat) (id : Nat) (r : Option Nat) (bs : List Byte)
    (hv : keyIsView k = false) (hn : NoViews k m) : (m.write e late id r k bs false).views = m.views := by
  have hput (x : Memory) : (x.putBytes e.die k bs false).views = x.views := by
    unfold Memory.putBytes
    rw [if_neg (by simp [hv]), if_neg (by simp)]
    exact put_views _ _ _ _
  unfold Memory.write
  split
  · rw [hput]; rfl
  · rename_i hs
    have h0 : m.recallViews k bs.length true = m := by
      unfold Memory.recallViews
      simp [hn.resolve_left hs]
    dsimp only
    rw [hput, if_neg (by simp [hv]), h0, publish_views]
    rfl

/-- A write of bytes without views puts the bytes, and changes no full/empty bit. -/
theorem write_cells {m : Memory} {k : Nat} (e : Eye) (late : List Nat) (id : Nat) (r : Option Nat) (bs : List Byte)
    (hv : keyIsView k = false) (hn : NoViews k m) :
    (m.write e late id r k bs false).cells = cellsPut m.cells k bs ∧ (m.write e late id r k bs false).full = m.full := by
  have hput {x : Memory} (h : Memory.SameData x m) :
      (x.putBytes e.die k bs false).cells = cellsPut m.cells k bs ∧ (x.putBytes e.die k bs false).full = m.full := by
    obtain ⟨hcells, -, -, hfull⟩ := put_data x e.die k bs
    unfold Memory.putBytes
    rw [if_neg (by simp [hv]), if_neg (by simp)]
    exact ⟨hcells.trans (by rw [h.cells]), hfull.trans h.full⟩
  unfold Memory.write
  split
  · exact hput (storeClock_same ..)
  · rename_i hs
    have h0 : m.recallViews k bs.length true = m := by
      unfold Memory.recallViews
      simp [hn.resolve_left hs]
    dsimp only
    rw [if_neg (by simp [hv]), h0]
    exact hput ((publish_same ..).trans (tick_same ..))

/-- The byte that a write leaves at an address. -/
def writtenAt (w : Nat × List Byte) (x : Nat) : Option Byte :=
  if w.1 ≤ x ∧ x < w.1 + w.2.length then some (w.2.getD (x - w.1) 0#8) else none

theorem lastWrite_cons (w : Nat × List Byte) (ws : List (Nat × List Byte)) (x : Nat) :
    lastWrite (w :: ws) x = (lastWrite ws x).or (writtenAt w x) := by
  have hfold (ws : List (Nat × List Byte)) (r : Option Byte) :
      ws.foldl (fun r w => if w.1 ≤ x ∧ x < w.1 + w.2.length then some (w.2.getD (x - w.1) 0#8) else r) r =
        (lastWrite ws x).or r := by
    induction ws using List.reverseRecOn with
    | nil => rfl
    | append_singleton ws w ih =>
      rw [lastWrite, List.foldl_append, List.foldl_append, ih, List.foldl_cons, List.foldl_nil, List.foldl_cons, List.foldl_nil]
      split <;> rfl
  rw [lastWrite, List.foldl_cons, hfold]
  rfl

/-- What writes one after the other leave: at each address the last one that covers it; they keep the canonical form. -/
theorem writesOf_cells {ws : List (Nat × List Byte)} {m : Memory} (e : Eye) (late : List Nat) (id : Nat) (hw : m.wf = true)
    (hws : ∀ w ∈ ws, keyIsView w.1 = false ∧ NoViews w.1 m) :
    (∀ x, cellGet (writesOf e late id ws m).cells x = (lastWrite ws x).getD (cellGet m.cells x)) ∧
      (writesOf e late id ws m).full = m.full ∧ (writesOf e late id ws m).wf = true := by
  induction ws generalizing m id with
  | nil => exact ⟨fun _ => rfl, rfl, hw⟩
  | cons w ws ih =>
    obtain ⟨hv, hn⟩ := hws w (List.mem_cons_self ..)
    obtain ⟨hput, hfull⟩ := write_cells e late id none w.2 hv hn
    have hviews := write_views e late id none w.2 hv hn
    obtain ⟨hcells, hrest, hwf⟩ := ih (id + 1) (write_wf e late id none w.1 w.2 false hw) (fun y hy => by
      obtain ⟨yv, yn⟩ := hws y (List.mem_cons_of_mem _ hy)
      exact ⟨yv, (noViews_congr hviews).2 yn⟩)
    refine ⟨fun x => ?_, hrest.trans hfull, hwf⟩
    rw [writesOf, hcells, lastWrite_cons, Option.getD_or, hput]
    congr 1
    unfold writtenAt
    split
    · rename_i hx
      have := cellGet_cellsPut_inside m.cells w.1 (x - w.1) w.2 ((Memory.wf_iff m).1 hw).1 (by omega)
      rwa [Nat.add_sub_cancel' hx.1] at this
    · rename_i hx
      exact cellGet_cellsPut_outside _ _ _ _ (by omega)

/-! ## Elements of memory (06 R191) -/

@[simp] theorem agentId_begun (s : State) : agentId (begun s).cur = agentId s.cur := by
  cases h : s.cur.duty <;> simp [begun, beginInstr, countExecuted, agentId, h]

@[simp] theorem eyeOf_begun (s : State) : eyeOf (begun s).cur = eyeOf s.cur := by
  simp [eyeOf]

@[simp] theorem readV_begun_full {s : State} {n : BitVec 6} (tb : Bool) (hn : n.toNat < 28) (h : (vAt s.cur n.toNat).st = .full) :
    readV n tb (begun s) = .ok ((vAt s.cur n.toNat).val, begun s) := by
  rw [readV_full tb hn (by rwa [vAt_begun]), vAt_begun]

theorem activeElements_begun (s : State) (f : Ext) : activeElements (begun s).cur f = accessed s f := by
  unfold activeElements accessed
  rw [vCount_eq, elementCount_begun, governing_begun]
  rfl

/-- The elements that pass their checks reach bytes at the keys. -/
theorem elementPlaces_reaches {a : Agent} {c : TCap} {addr : Nat → Nat} {size perm : Nat} {kind : Kind} {js ks : List Nat}
    {s t : State} (hcur : curAgent s = .ok (a, s)) (h : ReachesAll a c addr size perm kind js ks s t) :
    ∃ ps, elementPlaces c js addr size perm kind s = .ok (js.zip ps, t) ∧ List.Forall₂ BytesAt ps ks ∧ js.length = ks.length ∧
      (∀ k ∈ ks, keyIsView k = false) ∧ AccessFrame s t := by
  unfold elementPlaces
  rw [act_bind_ok hcur]
  clear hcur
  induction js generalizing ks s with
  | nil =>
    cases ks with
    | nil => cases h; exact ⟨[], rfl, .nil, rfl, by simp, .refl _⟩
    | cons k ks => cases h
  | cons j js ih =>
    cases ks with
    | nil => cases h
    | cons k ks =>
      obtain ⟨hderef, halign, hview, leaf, u, hreach, hrest⟩ := h
      obtain ⟨ps, hps, hforall, hlen, hviews, hframe⟩ := ih hrest
      refine ⟨.bytes k leaf :: ps, ?_, .cons ⟨leaf, rfl⟩ hforall, by simp [hlen], by simpa [hview] using hviews,
        (Frames.reach _ _ _ _ _ _ _ _ _ hreach).trans hframe⟩
      have hone : (do
          derefAligned c (addr j) size [perm]
          let p ← reach a (addr j) size kind true (capHas c.val permFMTW)
          return (j, p) : Act (Nat × Place)) s = .ok ((j, .bytes k leaf), u) := by
        rw [act_bind_ok (derefAligned_passes hderef halign s), act_bind_ok hreach]
        rfl
      rw [List.mapM_cons, act_bind_ok hone, act_bind_ok hps]
      rfl

theorem forall₂_zip_places {α : Type} {js : List α} {ps : List Place} {ks : List Nat} (h : List.Forall₂ BytesAt ps ks)
    (hlen : js.length = ks.length) : List.Forall₂ (fun y k => BytesAt y.2 k) (js.zip ps) ks := by
  induction h generalizing js with
  | nil => rw [List.zip_nil_right]; exact .nil
  | @cons p k ps ks hp h ih =>
    cases js with
    | nil => cases hlen
    | cons j js => exact .cons hp (ih (by simpa using hlen))

theorem zipWith_zip_fst {α β γ δ : Type} (g : α → γ → δ) {js : List α} {ps : List β} {rs : List γ} (h : ps.length = rs.length) :
    List.zipWith (fun y r => g y.1 r) (js.zip ps) rs = List.zipWith g js rs := by
  induction js generalizing ps rs with
  | nil => rfl
  | cons j js ih =>
    match ps, rs, h with
    | [], [], _ => rfl
    | p :: ps, r :: rs, h => simp [ih (Nat.succ.inj h)]

theorem zip_map_zip_fst {α β γ δ : Type} (g : α → δ) {js : List α} {ps : List β} {ks : List γ} (h : ps.length = ks.length) :
    ks.zip ((js.zip ps).map (fun y => g y.1)) = (js.zip ks).map (fun y => (y.2, g y.1)) := by
  induction js generalizing ps ks with
  | nil => simp
  | cons j js ih =>
    match ps, ks, h with
    | [], [], _ => rfl
    | p :: ps, k :: ks, h => simp [ih (Nat.succ.inj h)]

theorem find_zipWith_bytesNat (js : List Nat) (rs : List (List Byte)) (j : Nat) :
    ((List.zipWith (fun j bs => (j, bytesNat bs)) js rs).find? (fun x => x.1 == j)).map (·.2) =
      ((js.zip rs).find? (fun x => x.1 == j)).map (fun x => bytesNat x.2) := by
  rw [← List.map_uncurry_zip_eq_zipWith, List.find?_map, Option.map_map]
  rfl

section
variable {i : Instr} {op : BitVec 6} {fn : BitVec 4} {f : Ext} {s t : State} {a : Agent} {ks : List Nat} {addr : Nat → Nat}
  {c : TCap}

/-- A load of the governed elements completes. -/
theorem vloadAt_completes (hcur : curAgent (begun s) = .ok (a, begun s))
    (h : ReachesAll a c addr (memw f / 8) permLD .read (accessed s f) ks (begun s) t)
    (hk : ∀ k ∈ ks, NoViews k t.mem ∧ t.mem.firstPoison k (memw f / 8) = none) :
    let r := readsOf (eyeOf s.cur) (memw f / 8) ks t.mem
    let u : State := { t with mem := r.2 }
    AccessFrame (begun s) u ∧ SameBytes r.2 t.mem ∧
      vloadAt f c addr (begun s) = writeElements f (memw f) ((List.range (elementCount u (memw f))).map (fun j =>
        (((accessed s f).zip r.1).find? (fun x => x.1 == j)).map (fun x => bytesNat x.2))) u := by
  intro r u
  obtain ⟨ps, hplaces, hbytes, hlen, hviews, hframe⟩ := elementPlaces_reaches hcur h
  obtain ⟨b, hb, heye⟩ := curAgent_after hcur hframe
  rw [eyeOf_begun] at heye
  have hread : ReadableKeys (memw f / 8) ks t.mem := fun k hx => ⟨hviews k hx, hk k hx⟩
  refine ⟨hframe.trans (.of_eq rfl), sameBytes_of_same (readsOf_same _ hread), ?_⟩
  obtain ⟨xs, hxs, hvals⟩ := mapM_reads (a := b) (view := id) (keep := fun y bs => (y.1, bytesNat bs))
    (f := fun x : Nat × Place => do
      let r ← readPlace b x.2 (addr x.1) (memw f / 8)
      return (x.1, bytesNat r.1)) (fun y s r u hr => ⟨_, by rw [act_bind_ok hr]; rfl, rfl⟩)
    (forall₂_zip_places hbytes hlen) hread
  have hps : ps.length = r.1.length := by rw [readsOf_length, hbytes.length_eq]
  rw [List.map_id, heye, zipWith_zip_fst (fun j bs => (j, bytesNat bs)) hps] at hvals
  rw [heye] at hxs
  unfold vloadAt
  rw [act_bind_ok (act_get _), activeElements_begun]
  refine (act_bind_ok hplaces).trans ((act_bind_ok hb).trans ((act_bind_ok hxs).trans ?_))
  have hn : vCount (begun s).cur (memWidth f) = elementCount u (memw f) := by
    rw [show elementCount u (memw f) = vCount t.cur (memWidth f) from (vCount_eq t (memw f)).symm, hframe.cur]
  simp only [hn, hvals, find_zipWith_bytesNat]
  rfl

/-- A vector load at the addresses that the model computes. -/
theorem vectorLoads_of {operands : State → Prop} {addr : State → Nat → Nat} {body : Ext → Act Unit}
    (hf : i.fields = some (op, fn, f)) (he : ∀ s, exec i s = instr op fn f (body f) s)
    (hb : ∀ s, Readable s f.a f.ta → operands s → body f (begun s) = vloadAt f (regCap s f.a) (addr s) (begun s)) :
    VectorLoads i f operands addr := by
  intro s t a ks hr ha ho hd hcur hreach hk
  obtain ⟨hframe, hsame, hload⟩ := vloadAt_completes hcur hreach hk
  refine ⟨hsame, vectorIs_of hf (he s) hr ?_ ((hb s ha ho).trans (hload.trans (by rw [setFlags_none]))) (governedAgree_range rfl)⟩
  have hcur' := hframe.cur
  unfold VWritable at *
  rw [hcur', vAt_begun]
  exact hd

/-- A store of the governed elements completes. -/
theorem vstoreAt_completes (hlow : f.d.toNat < 28) (hfull : (vAt s.cur f.d.toNat).st = .full)
    (hcur : curAgent (begun s) = .ok (a, begun s))
    (h : ReachesAll a c addr (memw f / 8) permST .write (accessed s f) ks (begun s) t) :
    ∃ m, vstoreAt f c addr (begun s) = .ok (⟨⟩, { t with mem := m, nextId := t.nextId + ks.length }) ∧
      Memory.SameData m (writesOf (eyeOf s.cur) t.late t.nextId (((accessed s f).zip ks).map (fun y =>
        (y.2, natBytes (memw f / 8) (element (vAt s.cur f.d.toNat).val (memw f) y.1)))) t.mem) ∧
      ∀ k ∈ ks, keyIsView k = false := by
  obtain ⟨ps, hplaces, hbytes, hlen, hviews, hframe⟩ := elementPlaces_reaches hcur h
  obtain ⟨b, hb, heye⟩ := curAgent_after hcur hframe
  rw [eyeOf_begun] at heye
  have hwrites := mapM_writes (a := b) (addr := fun y : Nat × Place => addr y.1)
    (bytes := fun y => natBytes (memw f / 8) (element (vAt s.cur f.d.toNat).val (memw f) y.1)) (s := t)
    (forall₂_zip_places hbytes hlen)
  rw [heye] at hwrites
  unfold vstoreAt
  simp only [act_bind_ok (act_get _), activeElements_begun, act_bind_ok (readV_begun_full f.tb hlow hfull),
    show memWidth f = memw f from rfl]
  rw [act_bind_ok hplaces, act_bind_ok hb, act_bind_ok hwrites,
    zip_map_zip_fst (fun j => natBytes (memw f / 8) (element (vAt s.cur f.d.toNat).val (memw f) j)) hbytes.length_eq]
  split
  · cases wholeLine (((accessed s f).zip ps).map (fun x => x.2)) (memw f / 8) with
    | some l => exact ⟨_, rfl, markZero_same _ _, hviews⟩
    | none => exact ⟨_, rfl, .refl _, hviews⟩
  · exact ⟨_, rfl, .refl _, hviews⟩

theorem vectorStores_of {operands : State → Prop} {addr : State → Nat → Nat} {body : Ext → Act Unit}
    (hf : i.fields = some (op, fn, f)) (he : ∀ s, exec i s = instr op fn f (body f) s)
    (hb : ∀ s, Readable s f.a f.ta → operands s → body f (begun s) = vstoreAt f (regCap s f.a) (addr s) (begun s)) :
    VectorStores i f operands addr := by
  intro s t a ks hr ha ho hlow hfull hcur hreach
  obtain ⟨m, hstore, hsame, hviews⟩ := vstoreAt_completes hlow hfull hcur hreach
  refine ⟨m, exec_completes hf (he s) hr ((hb s ha ho).trans hstore), fun hw hn => ?_⟩
  obtain ⟨hcells, hfulls, -⟩ := writesOf_cells (eyeOf s.cur) t.late t.nextId hw (ws := ((accessed s f).zip ks).map (fun y =>
    (y.2, natBytes (memw f / 8) (element (vAt s.cur f.d.toNat).val (memw f) y.1)))) (fun w hwm => by
      obtain ⟨y, hy, rfl⟩ := List.mem_map.1 hwm
      have hyk := (List.of_mem_zip hy).2
      exact ⟨hviews _ hyk, hn _ hyk⟩)
  exact ⟨hsame.full.trans hfulls, fun x => by rw [hsame.cells]; exact hcells x⟩

end

/-! ## Addresses (06 R191) -/

theorem addOffset_eq (base : Nat) (off : Int) : addOffset base off = (((base : Int) + off) % 2 ^ 64).toNat := by
  simp [addOffset]

theorem vectorBase_eq (s : State) (f : Ext) : vectorBase (regCap s f.a) f = vbase s f := addOffset_eq _ _

theorem unitAddress_eq (s : State) (f : Ext) : unitAddress (regCap s f.a) f = consecutiveAt f s := by
  funext j
  rw [unitAddress, addOffset_eq, vectorBase_eq, consecutiveAt]
  have : ((vbase s f : Int) + ((j * (memWidth f / 8) : Nat) : Int)) % 2 ^ 64 =
      (((vbase s f + j * (memw f / 8)) % 2 ^ 64 : Nat) : Int) := by
    push_cast
    rfl
  rw [this, Int.toNat_natCast]

theorem indexAddress_eq (s : State) (f : Ext) : indexAddress (regCap s f.a) f (vAt s.cur f.c.toNat).val = indexedAt f s := by
  funext j
  rw [indexAddress, addOffset_eq, vectorBase_eq]
  rfl

theorem strideAddress_eq (s : State) (f : Ext) : strideAddress (regCap s f.a) f (regData s f.c) = stridedAt f s := by
  funext j
  rw [strideAddress, addOffset_eq, vectorBase_eq]
  rfl

theorem readG_begun {s : State} {n : BitVec 6} {tb : Bool} (h : Readable s n tb) : readG n tb (begun s) = .ok (regCap s n, begun s) := by
  rw [readG_readable ((readable_begun _ _ _).2 h), regCap_begun]

theorem readData_begun {s : State} {n : BitVec 6} {tb : Bool} (h : Readable s n tb) :
    readData n tb (begun s) = .ok (regData s n, begun s) := by
  rw [readData_readable ((readable_begun _ _ _).2 h), regData_begun]

section
variable {f : Ext} {s : State} (ha : Readable s f.a f.ta)
include ha

theorem vldBody_eq : vldBody f (begun s) = vloadAt f (regCap s f.a) (consecutiveAt f s) (begun s) := by
  rw [← unitAddress_eq]
  exact act_bind_ok (readG_begun ha)

theorem vstBody_eq : vstBody f (begun s) = vstoreAt f (regCap s f.a) (consecutiveAt f s) (begun s) := by
  rw [← unitAddress_eq]
  exact act_bind_ok (readG_begun ha)

theorem vldxBody_eq (hc : indexReads f s) : vldxBody f (begun s) = vloadAt f (regCap s f.a) (indexedAt f s) (begun s) := by
  rw [← indexAddress_eq]
  exact (act_bind_ok (readG_begun ha)).trans (act_bind_ok (readV_begun_full f.tc hc.1 hc.2))

theorem vstxBody_eq (hc : indexReads f s) : vstxBody f (begun s) = vstoreAt f (regCap s f.a) (indexedAt f s) (begun s) := by
  rw [← indexAddress_eq]
  exact (act_bind_ok (readG_begun ha)).trans (act_bind_ok (readV_begun_full f.tc hc.1 hc.2))

theorem vldsBody_eq (hc : Readable s f.c f.tc) : vldsBody f (begun s) = vloadAt f (regCap s f.a) (stridedAt f s) (begun s) := by
  rw [← strideAddress_eq]
  exact (act_bind_ok (readG_begun ha)).trans (act_bind_ok (readData_begun hc))

theorem vstsBody_eq (hc : Readable s f.c f.tc) : vstsBody f (begun s) = vstoreAt f (regCap s f.a) (stridedAt f s) (begun s) := by
  rw [← strideAddress_eq]
  exact (act_bind_ok (readG_begun ha)).trans (act_bind_ok (readData_begun hc))

end

theorem vectorMemoryFormsAccessGovernedElementsPart : VectorMemoryFormsAccessGovernedElementsPart :=
  ⟨fun _ => vectorLoads_of rfl (fun _ => rfl) (fun _ ha _ => vldBody_eq ha),
    fun _ => vectorLoads_of rfl (fun _ => rfl) (fun _ ha hc => vldxBody_eq ha hc),
    fun _ => vectorLoads_of rfl (fun _ => rfl) (fun _ ha hc => vldsBody_eq ha hc),
    fun _ => vectorStores_of rfl (fun _ => rfl) (fun _ ha _ => vstBody_eq ha),
    fun _ => vectorStores_of rfl (fun _ => rfl) (fun _ ha hc => vstxBody_eq ha hc),
    fun _ => vectorStores_of rfl (fun _ => rfl) (fun _ ha hc => vstsBody_eq ha hc)⟩

/-! ## Bitmap-sparse records (05 R171) -/

theorem packNat_bytes {rs : List (List Byte)} (h : ∀ bs ∈ rs, bs.length = 8) : packNat 64 (rs.map bytesNat) = bytesNat rs.flatten := by
  have happend (xs ys : List Byte) : bytesNat (xs ++ ys) = bytesNat xs + 256 ^ xs.length * bytesNat ys := by
    induction xs with
    | nil => simp [bytesNat]
    | cons b xs ih => rw [List.cons_append, bytesNat, ih, bytesNat, List.length_cons]; ring
  induction rs with
  | nil => rfl
  | cons bs rs ih =>
    obtain ⟨hbs, hrs⟩ := List.forall_mem_cons.1 h
    have hlt := bytesNat_lt bs
    rw [hbs] at hlt
    have hcons : packNat 64 ((bs :: rs).map bytesNat) = bytesNat bs % 2 ^ 64 + 2 ^ 64 * packNat 64 (rs.map bytesNat) := rfl
    rw [hcons, ih hrs, Nat.mod_eq_of_lt hlt, List.flatten_cons, happend, hbs]
    norm_num

theorem readsOf_lengths (e : Eye) (n : Nat) (ks : List Nat) (m : Memory) : ∀ bs ∈ (readsOf e n ks m).1, bs.length = n := by
  induction ks generalizing m with
  | nil => intro bs h; cases h
  | cons k ks ih => exact List.forall_mem_cons.2 ⟨by simp [Memory.seenBytes], ih _⟩

section
variable {a : Agent} {c : TCap} {addr first : Nat} {kind : Kind} {ks : List Nat} {s t : State}

/-- The words of a record that pass their checks reach bytes at the keys. -/
theorem recordPlaces_reaches (hcur : curAgent s = .ok (a, s)) (h : ReachesWords a c addr kind first ks s t) :
    ∃ ps, recordPlaces c addr first ks.length kind s =
        .ok (((List.range ks.length).map (fun i => addr + 8 * (first + i))).zip ps, t) ∧
      List.Forall₂ BytesAt ps ks ∧ (∀ k ∈ ks, keyIsView k = false) ∧ AccessFrame s t := by
  have hrange : (List.range ks.length).map (fun i => addr + 8 * (first + i)) = (List.range' first ks.length).map (addr + 8 * ·) := by
    rw [List.range'_eq_map_range, List.map_map]
    rfl
  unfold recordPlaces
  rw [act_bind_ok hcur, hrange]
  clear hcur hrange
  induction ks generalizing first s with
  | nil => cases h; exact ⟨[], rfl, .nil, by simp, .refl _⟩
  | cons k ks ih =>
    obtain ⟨hview, leaf, u, hreach, hrest⟩ := h
    obtain ⟨ps, hps, hforall, hviews, hframe⟩ := ih hrest
    refine ⟨.bytes k leaf :: ps, ?_, .cons ⟨leaf, rfl⟩ hforall, by simpa [hview] using hviews,
      (Frames.reach _ _ _ _ _ _ _ _ _ hreach).trans hframe⟩
    have hone : (do
        let p ← reach a (addr + 8 * first) 8 kind true (capHas c.val permFMTW)
        return (addr + 8 * first, p) : Act (Nat × Place)) s = .ok ((addr + 8 * first, .bytes k leaf), u) := by
      rw [act_bind_ok hreach]
      rfl
    rw [List.length_cons, List.range'_succ, List.map_cons, List.mapM_cons, act_bind_ok hone, act_bind_ok hps]
    rfl

/-- Words of a record that no view shows and that are not poisoned are read as one number. -/
theorem readRecord_completes (hcur : curAgent s = .ok (a, s)) (h : ReachesWords a c addr .read first ks s t)
    (hk : ∀ k ∈ ks, NoViews k t.mem ∧ t.mem.firstPoison k 8 = none) :
    let r := readsOf (eyeOf s.cur) 8 ks t.mem
    AccessFrame s { t with mem := r.2 } ∧
      readRecord c addr first ks.length s = .ok (bytesNat r.1.flatten, { t with mem := r.2 }) := by
  intro r
  obtain ⟨ps, hplaces, hbytes, hviews, hframe⟩ := recordPlaces_reaches hcur h
  obtain ⟨b, hb, heye⟩ := curAgent_after hcur hframe
  have hread : ReadableKeys 8 ks t.mem := fun k hx => ⟨hviews k hx, hk k hx⟩
  obtain ⟨xs, hxs, hvals⟩ := mapM_reads (a := b) (view := id) (keep := fun _ bs => bytesNat bs)
    (f := fun x : Nat × Place => do
      let r ← readPlace b x.2 x.1 8
      return bytesNat r.1) (addr := Prod.fst) (fun y s r u hr => ⟨_, by rw [act_bind_ok hr]; rfl, rfl⟩)
    (forall₂_zip_places hbytes ((List.length_map _).trans List.length_range)) hread
  refine ⟨hframe.trans (.of_eq rfl), ?_⟩
  unfold readRecord
  rw [act_bind_ok hplaces, act_bind_ok hb, act_bind_ok hxs, heye]
  have hval : xs = r.1.map bytesNat := by
    rw [List.map_id, heye] at hvals
    rw [hvals]
    refine List.ext_getElem (by simp [r, readsOf_length, hbytes.length_eq]) (fun n h1 h2 => by simp [r])
  rw [hval]
  exact congrArg (fun x => Except.ok (x, _)) (packNat_bytes (readsOf_lengths _ _ _ _))

end

theorem recordMask_passes {c : TCap} {addr n perm : Nat} (h : DerefPasses c addr (maskBytes n) [perm, permXFER]) (ha : addr % 8 = 0)
    (s : State) : recordMask c addr n perm s = .ok (⟨⟩, s) := by
  unfold recordMask
  rw [act_bind_ok (deref_passes h s), trapIf_passes (by simp [ha])]

theorem recordTop_traps {c : TCap} {addr size : Nat} (h : (capBounds c.val).2 < addr + size) (s : State) :
    recordTop c addr size s = .error (.trap 0x11 (BitVec.ofNat 64 (capBounds c.val).2)) := by
  simp [recordTop, act_trapIf, h, w64]

theorem recordTop_passes {c : TCap} {addr size : Nat} (h : addr + size ≤ (capBounds c.val).2) (s : State) :
    recordTop c addr size s = .ok (⟨⟩, s) := by
  simp [recordTop, act_trapIf, Nat.not_lt.2 h]

section
variable {f : Ext} {s : State}

theorem vCount_begun (s : State) (w : Nat) : vCount (begun s).cur w = elementCount s w := by
  rw [vCount_eq, elementCount_begun]

/-- The part of STBM after the record's top is checked: it writes the words of a record, and D gets the record's length. -/
def writeRecord (f : Ext) (c : TCap) (addr size record : Nat) : Act Unit := do
  let ps ← recordPlaces c addr 0 (size / 8) .write
  let a ← curAgent
  let _ ← ps.mapM (fun y => writePlace a y.2 y.1 (natBytes 8 (record / 2 ^ (8 * (y.1 - addr)))) false none)
  writeData f.d (w64 size)

/-- STBM from the check of the record's top on. -/
theorem stbmBody_eq (ha : Readable s f.a f.ta) (hlow : f.b.toNat < 28) (hfull : (vAt s.cur f.b.toNat).st = .full)
    (hderef : DerefPasses (regCap s f.a) (vbase s f) (maskSize s f) [permST, permXFER]) (halign : vbase s f % 8 = 0) :
    let x := (vAt s.cur f.b.toNat).val
    let size := recordSize s f (keptElements s f x).length
    stbmBody f (begun s) = (do
      recordTop (regCap s f.a) (vbase s f) size
      writeRecord f (regCap s f.a) (vbase s f) size (sparseRecord s f x)) (begun s) := by
  unfold stbmBody
  simp only [act_bind_ok (readG_begun ha), act_bind_ok (readV_begun_full f.tb hlow hfull), act_bind_ok (act_get _), vectorBase_eq,
    vCount_begun, governing_begun]
  exact act_bind_ok (recordMask_passes (c := regCap s f.a) hderef halign _)

end

/-- The words of a record are written at their keys. -/
theorem writeRecord_completes {f : Ext} {a : Agent} {c : TCap} {addr size record : Nat} {ks : List Nat} {s t : State}
    (hd : Writable s f.d) (hcur : curAgent s = .ok (a, s)) (hlen : ks.length = size / 8)
    (h : ReachesWords a c addr .write 0 ks s t) :
    writeRecord f c addr size record s = .ok (⟨⟩, setData f.d (BitVec.ofNat 64 size) { t with
        mem := writesOf (eyeOf s.cur) t.late t.nextId (ks.mapIdx (fun i k => (k, natBytes 8 (record / 2 ^ (64 * i))))) t.mem,
        nextId := t.nextId + ks.length }) ∧
      ∀ k ∈ ks, keyIsView k = false := by
  obtain ⟨ps, hplaces, hbytes, hviews, hframe⟩ := recordPlaces_reaches hcur h
  obtain ⟨b, hb, heye⟩ := curAgent_after hcur hframe
  have hwrites := mapM_writes (a := b) (addr := fun y : Nat × Place => y.1)
    (bytes := fun y => natBytes 8 (record / 2 ^ (8 * (y.1 - addr)))) (s := t)
    (forall₂_zip_places hbytes ((List.length_map (fun i => addr + 8 * (0 + i))).trans List.length_range))
  have hbits (i : Nat) : 8 * (addr + 8 * (0 + i) - addr) = 64 * i := by omega
  have hwords : (((List.range ks.length).map (fun i => addr + 8 * (0 + i))).zip ks).map
        (fun y => (y.2, natBytes 8 (record / 2 ^ (8 * (y.1 - addr))))) =
      ks.mapIdx (fun i k => (k, natBytes 8 (record / 2 ^ (64 * i)))) :=
    List.ext_getElem (by simp) (fun n h1 h2 => by
      simp only [List.getElem_map, List.getElem_zip, List.getElem_range, List.getElem_mapIdx, hbits])
  rw [heye, zip_map_zip_fst (fun x => natBytes 8 (record / 2 ^ (8 * (x - addr)))) hbytes.length_eq, hwords] at hwrites
  refine ⟨?_, hviews⟩
  unfold writeRecord
  rw [← hlen, act_bind_ok hplaces, act_bind_ok hb, act_bind_ok hwrites]
  exact writeData_writable _ ((writable_congr (by rw [← hframe.cur]) f.d).2 hd)

/-- STBM. -/
theorem sparseRecordsAreWritten (f : Ext) (s t : State) (a : Agent) (ks : List Nat) (hr : Runs (.stbm f) s)
    (ha : Readable s f.a f.ta) (hlow : f.b.toNat < 28) (hfull : (vAt s.cur f.b.toNat).st = .full) (hd : Writable s f.d) :
    let x := (vAt s.cur f.b.toNat).val
    let size := recordSize s f (keptElements s f x).length
    DerefPasses (regCap s f.a) (vbase s f) (maskSize s f) [permST, permXFER] → vbase s f % 8 = 0 →
    ((capBounds (regCap s f.a).val).2 < vbase s f + size →
      exec (.stbm f) s = .next (afterTrap 0x11 (BitVec.ofNat 64 (capBounds (regCap s f.a).val).2) s)) ∧
    (vbase s f + size ≤ (capBounds (regCap s f.a).val).2 → curAgent (begun s) = .ok (a, begun s) → ks.length = size / 8 →
      ReachesWords a (regCap s f.a) (vbase s f) .write 0 ks (begun s) t →
      ∃ m, exec (.stbm f) s = .next (past f (setData f.d (BitVec.ofNat 64 size)
          { t with mem := m, nextId := t.nextId + ks.length })) ∧
        (t.mem.wf = true → (∀ k ∈ ks, NoViews k t.mem) → ∀ y, cellGet m.cells y =
          (lastWrite (ks.mapIdx (fun i k => (k, natBytes 8 (sparseRecord s f x / 2 ^ (64 * i))))) y).getD
            (cellGet t.mem.cells y))) := by
  intro x size hderef halign
  have hbody := stbmBody_eq ha hlow hfull hderef halign
  refine ⟨fun htop => ?_, fun htop hcur hlen hreach => ?_⟩
  · exact exec_traps rfl rfl hr (hbody.trans (act_bind_error (recordTop_traps htop _)))
  · obtain ⟨hwrite, hviews⟩ := writeRecord_completes (record := sparseRecord s f x) ((writable_begun _ _).2 hd) hcur hlen hreach
    refine ⟨_, exec_completes rfl rfl hr (hbody.trans ((act_bind_ok (recordTop_passes htop _)).trans hwrite)), fun hw hn => ?_⟩
    obtain ⟨hcells, -, -⟩ := writesOf_cells (eyeOf (begun s).cur) t.late t.nextId hw
      (ws := ks.mapIdx (fun i k => (k, natBytes 8 (sparseRecord s f x / 2 ^ (64 * i))))) (fun w hwm => by
        obtain ⟨i, hi, rfl⟩ := List.mem_mapIdx.1 hwm
        have hmem := List.getElem_mem hi
        exact ⟨hviews _ hmem, hn _ hmem⟩)
    exact hcells

/-- The elements below j that a filter of the first n numbers keeps. -/
theorem filter_range_lt {n j : Nat} (p : Nat → Bool) (hj : j < n) :
    (((List.range n).filter p).filter (fun k => decide (k < j))).length = ((List.range j).filter p).length := by
  have hbelow : (List.range n).filter (fun k => decide (k < j)) = List.range j := by
    rw [← Nat.add_sub_cancel' hj.le, List.range_add, List.filter_append, List.filter_eq_self.2 (by simp),
      List.filter_eq_nil_iff.2 (by simp), List.append_nil]
  rw [List.filter_comm, hbelow]

/-- LDBM. -/
theorem sparseRecordsAreExpanded (f : Ext) (s t u : State) (a a' : Agent) (ks ls : List Nat) (hr : Runs (.ldbm f) s)
    (ha : Readable s f.a f.ta) (hd : VWritable s f.d)
    (hderef : DerefPasses (regCap s f.a) (vbase s f) (maskSize s f) [permLD, permXFER]) (halign : vbase s f % 8 = 0)
    (hcur : curAgent (begun s) = .ok (a, begun s)) (hlen : ks.length = maskSize s f / 8)
    (hreach : ReachesWords a (regCap s f.a) (vbase s f) .read 0 ks (begun s) t)
    (hk : ∀ k ∈ ks, NoViews k t.mem ∧ t.mem.firstPoison k 8 = none) :
    let r := readsOf (eyeOf s.cur) 8 ks t.mem
    let v : State := { t with mem := r.2 }
    let mask := bytesNat r.1.flatten
    let kept := (List.range (elementCount s (vw f))).filter mask.testBit
    let size := recordSize s f kept.length
    ((capBounds (regCap s f.a).val).2 < vbase s f + size →
      exec (.ldbm f) s = .next (afterTrap 0x11 (BitVec.ofNat 64 (capBounds (regCap s f.a).val).2) s)) ∧
    (vbase s f + size ≤ (capBounds (regCap s f.a).val).2 → curAgent v = .ok (a', v) →
      ls.length = (size - maskSize s f) / 8 →
      ReachesWords a' (regCap s f.a) (vbase s f) .read (maskSize s f / 8) ls v u →
      (∀ k ∈ ls, NoViews k u.mem ∧ u.mem.firstPoison k 8 = none) →
      let w := readsOf (eyeOf s.cur) 8 ls u.mem
      let values := bytesNat w.1.flatten
      VectorMoves (.ldbm f) f s { u with mem := w.2 } (fun j => some (if mask.testBit j then
        values / 2 ^ (vw f * ((List.range j).filter mask.testBit).length) % 2 ^ vw f else 0))) := by
  intro r v mask kept size
  obtain ⟨hframe, hmask⟩ := readRecord_completes hcur hreach hk
  rw [eyeOf_begun] at hframe hmask
  rw [hlen] at hmask
  have hbody : ldbmBody f (begun s) = (do
      recordTop (regCap s f.a) (vbase s f) size
      let values ← readRecord (regCap s f.a) (vbase s f) (maskSize s f / 8) ((size - maskSize s f) / 8)
      writeElements f (vw f) ((List.range (elementCount s (vw f))).map (fun j => some (if mask.testBit j then
        values / 2 ^ (vw f * (kept.filter (fun k => decide (k < j))).length) % 2 ^ vw f else 0)))) v := by
    unfold ldbmBody
    simp only [act_bind_ok (readG_begun ha), act_bind_ok (act_get _), vectorBase_eq, vCount_begun]
    exact (act_bind_ok (recordMask_passes (c := regCap s f.a) hderef halign _)).trans (act_bind_ok hmask)
  refine ⟨fun htop => ?_, fun htop hcurv hlenl hreachl hl => ?_⟩
  · exact exec_traps rfl rfl hr (hbody.trans (act_bind_error (recordTop_traps htop _)))
  · intro w values
    obtain ⟨hframel, hvalues⟩ := readRecord_completes hcurv hreachl hl
    have hcurw := (hframe.trans hframel).cur
    have heye : eyeOf v.cur = eyeOf s.cur := by rw [show v.cur = (begun s).cur from hframe.cur, eyeOf_begun]
    rw [heye] at hvalues hcurw
    rw [hlenl] at hvalues
    refine vectorMoves_of rfl rfl hr ?_ (hbody.trans ((act_bind_ok (recordTop_passes htop _)).trans
      ((act_bind_ok hvalues).trans ?_)))
    · unfold VWritable at *
      rw [hcurw, vAt_begun]
      exact hd
    · have hn : elementCount { u with mem := w.2 } (vw f) = elementCount s (vw f) := by
        rw [← elementCount_begun s]
        unfold elementCount
        rw [hcurw]
      rw [hn]
      refine congrFun (congrArg (writeElements f (vw f)) (List.map_congr_left (fun j hj => ?_))) _
      rw [filter_range_lt _ (List.mem_range.1 hj)]

/-- Settles O31: the vector loads and stores by the reads and writes of their governed elements one after the other; STBM and LDBM by the
words of a record. -/
theorem vectorMemoryFormsAccessGovernedElements : Obligations.VectorMemoryFormsAccessGovernedElements :=
  ⟨vectorMemoryFormsAccessGovernedElementsPart, sparseRecordsAreWritten, sparseRecordsAreExpanded⟩

end Sys2Proof.Machine
end

section
/-!
Matrix commands: their issue and reports (06 R193 to R200, R204, R205).
-/

namespace Sys2Proof.Machine

/-! ## How a form ends early -/

section
variable {i : Instr} {op : BitVec 6} {fn : BitVec 4} {f : Ext} {body : Act Unit} {s : State}

/-- Where the body waits, the instruction waits. -/
theorem exec_waits (hf : i.fields = some (op, fn, f)) (he : exec i s = instr op fn f body s) (hr : Runs i s)
    (hb : body (begun s) = .error .wait) : exec i s = .next (noteWait s) := by
  obtain ⟨ha, hen⟩ := (runs_iff hf s).1 hr
  exact he.trans (instrWith_ends ha hen hb)

/-- Where the body reports an earlier fault, the report's own change stays. -/
theorem exec_reports {cause : Nat} {info : DWord} {clear : State → State} (hf : i.fields = some (op, fn, f))
    (he : exec i s = instr op fn f body s) (hr : Runs i s) (hb : body (begun s) = .error (.report cause info clear)) :
    exec i s = .next (takeTrap cause info (clear (dropWaits (agentId s.cur) s))) := by
  obtain ⟨ha, hen⟩ := (runs_iff hf s).1 hr
  exact he.trans (instrWith_ends ha hen hb)

end

/-! ## The issuing core and its gang's store -/

section
variable {s : State} {core : CoreState}

theorem getCore_begun (h : findCore s s.cur.pos = some core) : getCore (begun s) = .ok (core, begun s) := by
  have hfind : findCore (begun s) (begun s).cur.pos = some core := by rw [begun_cur_pos]; exact h
  unfold getCore
  rw [act_bind_ok (act_get _), hfind]
  rfl

@[simp] theorem codeOffset_begun (s : State) : codeOffset (begun s).cur = codeOffset s.cur := by simp [codeOffset]

theorem bandOf_begun (s : State) : bandOf (begun s) (begun s).cur = bandOf s s.cur := by
  cases h : s.cur.duty <;> simp [bandOf, begun, beginInstr, countExecuted, h] <;> rfl

theorem ownStore_begun {b : Band} {store : Nat × Nat} (hb : bandOf s s.cur = some b)
    (hs : gangStore b s.cur.fid.gang = some store) : ownStore (begun s) = .ok (store, begun s) := by
  unfold ownStore
  rw [act_bind_ok (getBand_found ((bandOf_begun s).trans hb)), act_bind_ok (act_get _), begun_cur_fid, hs]
  rfl

theorem matrixTrap_eq {α : Type} (n code : Nat) (s : State) :
    (matrixTrap n code : Act α) s = .error (.trap 0x13 (matrixRecord 0 0 n code (codeOffset s.cur))) := rfl

theorem enqueue_completes {q : MatrixCmd} (h : findCore s s.cur.pos = some core) (hroom : core.queue.length < 16) :
    enqueue q (begun s) = .ok (⟨⟩, queuedCommand q (begun s)) := by
  unfold enqueue
  rw [act_bind_ok (getCore_begun h), act_bind_ok (by simp [Nat.not_le.2 hroom] : waitIf _ (begun s) = .ok (⟨⟩, begun s))]
  rfl

theorem enqueue_waits {q : MatrixCmd} (h : findCore s s.cur.pos = some core) (hfull : 16 ≤ core.queue.length) :
    enqueue q (begun s) = .error .wait := by
  unfold enqueue
  rw [act_bind_ok (getCore_begun h)]
  exact act_bind_error (by simp [hfull])

end

/-! ## The checks of a matrix command (06 R194 to R196) -/

theorem sparseLongest_eq (fmt : Nat) : sparseLongest fmt = if fmt = 6 then 42 else if fmt = 2 ∨ fmt = 3 then 136 else 72 := by
  unfold sparseLongest sparseHead elementBits
  split
  · rfl
  · split <;> rfl

theorem descBad_false {w : DWord} (hhigh : w.extractLsb' 54 10 = 0#10) (hlow : w.extractLsb' 0 4 = 0#4)
    (hpitch : w.extractLsb' 22 10 ≠ 0#10) : descBad w = false := by
  simp [descBad, hhigh, hlow, hpitch]

/-- A descriptor that fits passes its checks. -/
theorem descriptorFits_passes {w : DWord} {fmt k store : Nat} {sparse : Bool} (h : DescriptorFits w fmt k store sparse) :
    descBad w = false ∧ ¬ store < (if sparse = true then (operandDesc w).top (k / 64)
        (min (16 * (operandDesc w).rowPitch) (sparseLongest fmt)) false
      else (operandDesc w).top (k / kStep fmt) 16 (fmt == 6)) := by
  obtain ⟨hhigh, hlow, hpitch, htop⟩ := h
  rw [← sparseLongest_eq] at htop
  exact ⟨descBad_false hhigh hlow hpitch, Nat.not_lt.2 htop⟩

/-- A usable tile passes the checks of its name. -/
theorem tileUsable_passes {s : State} {core : CoreState} {n : Nat} {mode : Bool} (h : TileUsable s core n mode) :
    ¬ (joinedTo (projectedMode core) n = true ∨ mode = true ∧ unpaired s.cur.allotw n = true) := by
  obtain ⟨hjoined, hpair⟩ := h
  rintro (hj | ⟨hm, hu⟩)
  · rw [hjoined] at hj; cases hj
  · obtain ⟨heven, hroom⟩ := hpair hm
    simp [unpaired, heven] at hu
    omega

section
variable {f : Ext} {kind : MatrixKind} {s : State} {core : CoreState} {b : Band} {store : Nat × Nat}

/-- K that its format does not divide. -/
theorem mmaBody_traps (ha : Readable s f.a f.ta) (hb : Readable s f.b f.tb) (hc : findCore s s.cur.pos = some core)
    (hk : f.imm.toNat % 2 ^ 20 = 0 ∨ f.imm.toNat % 2 ^ 20 % (if kind = .mmas then 64 else kStep f.fmt.toNat) ≠ 0) :
    mmaBody kind f (begun s) = .error (.trap 0x13 (matrixRecord 0 0 f.d.toNat 1 (codeOffset s.cur))) := by
  unfold mmaBody
  simp only [act_bind_ok (readData_begun ha), act_bind_ok (readData_begun hb), act_bind_ok (act_get _),
    act_bind_ok (getCore_begun hc), beq_iff_eq, if_pos hk]
  exact act_bind_error (by rw [matrixTrap_eq, codeOffset_begun])

/-- A command that passes its checks is what remains of the form: it enters the queue. -/
theorem mmaBody_enqueues (ha : Readable s f.a f.ta) (hb : Readable s f.b f.tb) (hc : findCore s s.cur.pos = some core)
    (hband : bandOf s s.cur = some b) (hstore : gangStore b s.cur.fid.gang = some store)
    (hk : f.imm.toNat % 2 ^ 20 ≠ 0) (hg : f.imm.toNat % 2 ^ 20 % (if kind = .mmas then 64 else kStep f.fmt.toNat) = 0)
    (hA : DescriptorFits (regData s f.a) f.fmt.toNat (f.imm.toNat % 2 ^ 20) store.2 (kind == .mmas))
    (hB : DescriptorFits (regData s f.b) f.fmt.toNat (f.imm.toNat % 2 ^ 20) store.2 false)
    (hu : TileUsable s core f.d.toNat (kind == .mmar))
    (hm : f.imm.getLsbD 20 = false → projectedMode core f.d.toNat = (kind == .mmar)) :
    mmaBody kind f (begun s) = enqueue ⟨kind, f.d.toNat, f.fmt, regData s f.a, regData s f.b, f.imm.toNat % 2 ^ 20,
      f.imm.getLsbD 20, kind == .mmar, s.cur.fid, codeOffset s.cur, 0, []⟩ (begun s) := by
  obtain ⟨hbadA, htopA⟩ := descriptorFits_passes hA
  obtain ⟨hbadB, htopB⟩ := descriptorFits_passes hB
  have hname := tileUsable_passes hu
  have hmode : ¬ (f.imm.getLsbD 20 = false ∧ ¬ projectedMode core f.d.toNat = (kind == .mmar)) := fun h => h.2 (hm h.1)
  simp only [beq_iff_eq, Bool.false_eq_true, if_false] at htopA htopB hname
  unfold mmaBody
  simp only [act_bind_ok (readData_begun ha), act_bind_ok (readData_begun hb), act_bind_ok (act_get _),
    act_bind_ok (getCore_begun hc), act_bind_ok (ownStore_begun hband hstore), beq_iff_eq, hk, hg, hbadA, htopA, hbadB, htopB,
    hname, hmode, ne_eq, not_true_eq_false, or_self, if_false, Bool.false_eq_true, pure_bind, begun_cur_allotw, begun_cur_fid, codeOffset_begun]

theorem mzeroBody_enqueues (hc : findCore s s.cur.pos = some core) (hu : TileUsable s core f.d.toNat (f.imm.getLsbD 0)) :
    mzeroBody f (begun s) = enqueue ⟨.mzero, f.d.toNat, 0#4, 0#64, 0#64, 0, true, f.imm.getLsbD 0, s.cur.fid, codeOffset s.cur, 0, []⟩
      (begun s) := by
  unfold mzeroBody
  simp only [act_bind_ok (act_get _), act_bind_ok (getCore_begun hc), tileUsable_passes hu, if_false, begun_cur_allotw,
    begun_cur_fid, codeOffset_begun]

end

theorem queuesMma_of {i : Instr} {fn : BitVec 4} {f : Ext} {kind : MatrixKind} (hf : i.fields = some (0x2A#6, fn, f))
    (he : ∀ s, exec i s = instr 0x2A#6 fn f (mmaBody kind f) s) : QueuesMma i f kind := by
  intro s core b store hr ha hb hc hband hstore n fmt k mode group
  refine ⟨fun hk => exec_traps hf (he s) hr (mmaBody_traps ha hb hc hk), fun hk hg hA hB hu hm => ?_⟩
  have hbody := mmaBody_enqueues ha hb hc hband hstore hk hg hA hB hu hm
  exact ⟨fun hroom => exec_completes hf (he s) hr (hbody.trans (enqueue_completes hc hroom)),
    fun hfull => exec_waits hf (he s) hr (hbody.trans (enqueue_waits hc hfull))⟩

theorem matrixCommandsAreQueued : MatrixCommandsAreQueuedPart := by
  refine ⟨fun _ => queuesMma_of rfl (fun _ => rfl), fun _ => queuesMma_of rfl (fun _ => rfl), fun _ => queuesMma_of rfl (fun _ => rfl),
    fun f s core hr hc hu => ?_⟩
  have hbody := mzeroBody_enqueues hc hu
  exact ⟨fun hroom => exec_completes rfl rfl hr (hbody.trans (enqueue_completes hc hroom)),
    fun hfull => exec_waits rfl rfl hr (hbody.trans (enqueue_waits hc hfull))⟩

/-! ## Waiting for a tile and its report (06 R193, R204, R205) -/

section
variable {s : State} {core : CoreState} {n : Nat}

theorem reportTile_passes (hc : findCore s s.cur.pos = some core) (hn : (tileAt core n).fault = none) :
    reportTile n (begun s) = .ok (⟨⟩, begun s) := by
  unfold reportTile
  rw [act_bind_ok (act_get _), act_bind_ok (getCore_begun hc), hn]
  rfl

/-- The recorded fault is taken off the tile (06 R205). -/
def clearRecord (core : Pos) (n : Nat) (s : State) : State :=
  { s with cores := s.cores.map (fun x => if x.pos = core then
      { x with tiles := x.tiles.modify n (fun t => { t with fault := none }) } else x) }

theorem reportTile_reports {r : TileFault} (hc : findCore s s.cur.pos = some core) (hn : (tileAt core n).fault = some r) :
    reportTile n (begun s) =
      .error (.report r.cause (matrixRecord r.kstep r.skipped n 0 r.offset) (clearRecord (coreOf s.cur.pos) n)) := by
  unfold reportTile
  rw [act_bind_ok (act_get _), act_bind_ok (getCore_begun hc), hn]
  simp only [act_reportTrap, begun_cur_pos]
  rfl

theorem tileQueued_pos {core : CoreState} : 0 < tileQueued core n ↔ ∃ q ∈ core.queue, q.tile = n := by
  simp [tileQueued, List.length_pos_iff_exists_mem]

theorem tileQueued_none {core : CoreState} (h : ∀ q ∈ core.queue, q.tile ≠ n) : ¬ 0 < tileQueued core n := by
  rw [tileQueued_pos]
  rintro ⟨q, hq, hn⟩
  exact h q hq hn

end

theorem waitsTile_of {i : Instr} {fn : BitVec 4} {f : Ext} (hf : i.fields = some (0x2B#6, fn, f))
    (he : ∀ s, exec i s = instr 0x2B#6 fn f (mwaitBody f) s) : WaitsTile i f := by
  intro s core hr hc n
  have hbody : mwaitBody f (begun s) =
      (do waitIf (decide (0 < tileQueued core n)); reportTile n : Act Unit) (begun s) := act_bind_ok (getCore_begun hc)
  have hpass (hq : ∀ q ∈ core.queue, q.tile ≠ n) : mwaitBody f (begun s) = reportTile n (begun s) := by
    rw [hbody]
    exact act_bind_ok ((act_waitIf _ _).trans (if_neg (by simp [tileQueued_none hq])))
  refine ⟨fun hq => ?_, fun hq hn => ?_, fun r hq hn => ?_⟩
  · refine exec_waits hf (he s) hr ?_
    rw [hbody]
    exact act_bind_error (by simp [tileQueued_pos.2 hq])
  · exact exec_completes hf (he s) hr ((hpass hq).trans (reportTile_passes hc hn))
  · exact exec_reports hf (he s) hr ((hpass hq).trans (reportTile_reports hc hn))

theorem statesTile_of {i : Instr} {fn : BitVec 4} {f : Ext} (hf : i.fields = some (0x2B#6, fn, f))
    (he : ∀ s, exec i s = instr 0x2B#6 fn f (mqstatBody f) s) : StatesTile i f := by
  intro s core hr hc hd n t bit
  refine exec_completes hf (he s) hr ?_
  unfold mqstatBody
  rw [act_bind_ok (getCore_begun hc)]
  exact writeData_writable _ ((writable_begun _ _).2 hd)

end Sys2Proof.Machine
end

section
/-!
Grants of a cluster's matrix unit (06 R197 to R200, 09 R270).
-/

namespace Sys2Proof.Machine

/-! ## Tiles of a core -/

section
variable {c c' : CoreState} {n j : Nat}

theorem tileAt_modify_same {g : Tile → Tile} (hn : n < c.tiles.length) :
    tileAt { c with tiles := c.tiles.modify n g } n = g (tileAt c n) := by
  simp [tileAt, hn]

theorem tileAt_modify_other {g : Tile → Tile} (hn : j ≠ n) : tileAt { c with tiles := c.tiles.modify n g } j = tileAt c j := by
  simp [tileAt, Ne.symm hn]

theorem tileAt_set_same {t : Tile} (hn : n < c.tiles.length) : tileAt { c with tiles := c.tiles.set n t } n = t := by
  simp [tileAt, hn]

theorem zeroTile_length (mode : Bool) : (zeroTile mode n c).tiles.length = c.tiles.length := by
  unfold zeroTile
  dsimp only
  split <;> simp

theorem tileAt_zeroTile_same (mode : Bool) (hn : n < c.tiles.length) :
    tileAt (zeroTile mode n c) n = { Tile.zeroed mode with fault := (tileAt c n).fault } := by
  have hone : tileAt { c with tiles := c.tiles.modify n (Tile.cleared mode) } n = Tile.cleared mode (tileAt c n) :=
    tileAt_modify_same hn
  unfold zeroTile
  dsimp only
  split
  · exact (tileAt_modify_other (c := { c with tiles := c.tiles.modify n (Tile.cleared mode) }) (Nat.ne_of_lt n.lt_succ_self)).trans hone
  · exact hone

theorem tileAt_zeroTile_other (mode : Bool) (hj : j ≠ n) (hj' : j ≠ n + 1) : tileAt (zeroTile mode n c) j = tileAt c j := by
  have hone : tileAt { c with tiles := c.tiles.modify n (Tile.cleared mode) } j = tileAt c j := tileAt_modify_other hj
  unfold zeroTile
  dsimp only
  split
  · exact (tileAt_modify_other (c := { c with tiles := c.tiles.modify n (Tile.cleared mode) }) hj').trans hone
  · exact hone

end

/-! ## Chunks of a sparse command (06 R198, R207) -/

section
variable {m : Memory} {store : Nat} {q : MatrixCmd} {p r : Nat}

/-- A command after one more K-step. -/
def stepped (m : Memory) (store : Nat) (q : MatrixCmd) : MatrixCmd := { readGroup m store q with step := q.step + 1 }

theorem readGroup_eq (m : Memory) (store : Nat) (q : MatrixCmd) :
    readGroup m store q = { q with chunks := (readGroup m store q).chunks } := by
  unfold readGroup
  split <;> rfl

theorem stepped_eq (m : Memory) (store : Nat) (q : MatrixCmd) :
    stepped m store q = { q with step := q.step + 1, chunks := (stepped m store q).chunks } := by
  unfold stepped
  rw [readGroup_eq]

theorem kStep_cases (fmt : Nat) : kStep fmt = 32 ∨ kStep fmt = 8 ∨ kStep fmt = 16 := by
  unfold kStep
  split
  · simp
  · split <;> simp

theorem kStep_pos (fmt : Nat) : 0 < kStep fmt := by
  rcases kStep_cases fmt with h | h | h <;> omega

/-- The group of a K-step began before a step, or that step begins it, or it begins later. -/
theorem group_begins {fmt first p : Nat} (hp : first ≤ p) :
    (p * kStep fmt / 64 * 64 < first * kStep fmt ∧ first * kStep fmt % 64 ≠ 0 ∧ p * kStep fmt / 64 * 64 < (first + 1) * kStep fmt) ∨
    (¬ p * kStep fmt / 64 * 64 < first * kStep fmt ∧ first * kStep fmt % 64 = 0 ∧
      p * kStep fmt / 64 * 64 < (first + 1) * kStep fmt ∧ p * kStep fmt / 64 = first * kStep fmt / 64) ∨
    (¬ p * kStep fmt / 64 * 64 < first * kStep fmt ∧ ¬ p * kStep fmt / 64 * 64 < (first + 1) * kStep fmt) := by
  rcases kStep_cases fmt with h | h | h <;> rw [h] <;> omega

/-- A sparse command's next step reads the chunks that it would have read. -/
theorem chunkOf_stepped (hk : q.kind = .mmas) (hp : q.step ≤ p) (hr : r < 64) :
    chunkOf m store (stepped m store q) p r = chunkOf m store q p r := by
  have hfields := stepped_eq m store q
  have hchunks : (stepped m store q).chunks.getD r ([], false) =
      if q.step * kStep q.fmt.toNat % 64 = 0 then sparseChunk m store (operandDesc q.aDesc) q.fmt.toNat q.step r
      else q.chunks.getD r ([], false) := by
    simp only [stepped, readGroup, hk, startsGroup, beq_self_eq_true, Bool.true_and, beq_iff_eq]
    split
    · simp [hr]
    · rfl
  have hgroup (h : p * kStep q.fmt.toNat / 64 = q.step * kStep q.fmt.toNat / 64) :
      sparseChunk m store (operandDesc q.aDesc) q.fmt.toNat p r = sparseChunk m store (operandDesc q.aDesc) q.fmt.toNat q.step r := by
    simp only [sparseChunk, h]
  unfold chunkOf
  rw [hchunks]
  simp only [show (stepped m store q).fmt = q.fmt by rw [hfields], show (stepped m store q).aDesc = q.aDesc by rw [hfields],
    show (stepped m store q).step = q.step + 1 by rw [hfields]]
  rcases group_begins (fmt := q.fmt.toNat) hp with ⟨hold, hmid, hnext⟩ | ⟨hold, hstart, hnext, hsame⟩ | ⟨hold, hnext⟩
  · rw [if_pos hnext, if_neg hmid, if_pos hold]
  · rw [if_pos hnext, if_pos hstart, if_neg hold, hgroup hsame]
  · rw [if_neg hnext, if_neg hold]

/-- The chunks that a K-step has read are those of its group. -/
theorem chunkOf_stepped_self : chunkOf m store (stepped m store q) q.step r = (stepped m store q).chunks.getD r ([], false) := by
  refine if_pos ?_
  have hpos := kStep_pos (stepped m store q).fmt.toNat
  have hnext : (stepped m store q).step = q.step + 1 := rfl
  rw [hnext, Nat.add_mul]
  omega

end

/-! ## The K-steps of a grant -/

section
variable {m : Memory} {store : Nat} {q : MatrixCmd} {p first n : Nat} {t : Tile}

theorem rowsOfA_stepped (hp : q.step ≤ p) : rowsOfA m store (stepped m store q) p = rowsOfA m store q p := by
  unfold rowsOfA
  refine List.map_congr_left (fun r hr => ?_)
  have hfields := stepped_eq m store q
  have hkind : (stepped m store q).kind = q.kind := by rw [hfields]
  have hfmt : (stepped m store q).fmt = q.fmt := by rw [hfields]
  have hdesc : (stepped m store q).aDesc = q.aDesc := by rw [hfields]
  rw [hkind, hfmt, hdesc]
  split
  · rename_i hk
    rw [chunkOf_stepped hk hp (List.mem_range.1 hr)]
  · rfl

theorem rowsOfB_stepped : rowsOfB m store (stepped m store q) p = rowsOfB m store q p := by
  unfold rowsOfB
  rw [stepped_eq]

/-- What a K-step of the model reads of A: the rows of the command before its group is read. -/
theorem rowsA_readGroup : rowsA m store (readGroup m store q) = rowsOfA m store q q.step := by
  rw [← rowsOfA_stepped le_rfl]
  have hfields := readGroup_eq m store q
  have hkind : (readGroup m store q).kind = q.kind := by rw [hfields]
  have hfmt : (readGroup m store q).fmt = q.fmt := by rw [hfields]
  have hstep : (readGroup m store q).step = q.step := by rw [hfields]
  unfold rowsA rowsOfA
  refine List.map_congr_left (fun r hr => ?_)
  rw [show (stepped m store q).kind = (readGroup m store q).kind from rfl, show (stepped m store q).fmt = (readGroup m store q).fmt from rfl,
    show (stepped m store q).aDesc = (readGroup m store q).aDesc from rfl, hstep]
  by_cases hk : (readGroup m store q).kind = .mmas
  · rw [if_pos hk, if_pos (by simp [hk]), chunkOf_stepped_self]
    rfl
  · rw [if_neg hk, if_neg (by simpa using hk)]

theorem rowsB_readGroup : rowsB m store (readGroup m store q) = rowsOfB m store q q.step := by
  unfold rowsB rowsOfB
  rw [readGroup_eq]

theorem stepsOn_eq : stepsOn m store q first n t =
    (List.range' first n).foldl (fun t p => tileStep q.fmt.toNat t (rowsOfA m store q p) (rowsOfB m store q p)) t := by
  rw [List.range'_eq_map_range, List.foldl_map]
  rfl

theorem stepsOn_succ : stepsOn m store q first (n + 1) t =
    stepsOn m store q (first + 1) n (tileStep q.fmt.toNat t (rowsOfA m store q first) (rowsOfB m store q first)) := by
  rw [stepsOn_eq, stepsOn_eq, List.range'_succ, List.foldl_cons]

theorem stepsOn_stepped (h : q.step ≤ first) : stepsOn m store (stepped m store q) first n t = stepsOn m store q first n t := by
  unfold stepsOn
  have hfmt : (stepped m store q).fmt = q.fmt := by rw [stepped_eq]
  have hone (t : Tile) (p : Nat) : tileStep (stepped m store q).fmt.toNat t (rowsOfA m store (stepped m store q) (first + p))
      (rowsOfB m store (stepped m store q) (first + p)) =
      tileStep q.fmt.toNat t (rowsOfA m store q (first + p)) (rowsOfB m store q (first + p)) := by
    rw [hfmt, rowsOfA_stepped (Nat.le_add_right_of_le h), rowsOfB_stepped]
  simp only [hone]

end

section
variable {m : Memory} {owned : Nat → Nat → Bool} {store n : Nat} {c : CoreState} {q : MatrixCmd} {rest : List MatrixCmd}

/-- K-steps of a whole command. -/
def stepsTotal (q : MatrixCmd) : Nat := q.k / kStep q.fmt.toNat

/-- A tile that a command starts on: ZERO and MZERO zero it (06 R196, R200). -/
def startTile (q : MatrixCmd) (t : Tile) : Tile := if q.step = 0 ∧ q.zero = true then Tile.zeroed q.mode else t

/-- A core whose oldest command starts. -/
def startCore (q : MatrixCmd) (c : CoreState) : CoreState := if q.step = 0 ∧ q.zero = true then zeroTile q.mode q.tile c else c

/-- A core after one K-step of its oldest command, and what its queue then holds. -/
def steppedCore (m : Memory) (store : Nat) (q : MatrixCmd) (queue : List MatrixCmd) (c : CoreState) : CoreState :=
  { c with
    tiles := c.tiles.set q.tile (tileStep q.fmt.toNat (tileAt c q.tile) (rowsOfA m store q q.step) (rowsOfB m store q q.step))
    queue := queue }

theorem tileAt_steppedCore (queue : List MatrixCmd) (ht : q.tile < c.tiles.length) : tileAt (steppedCore m store q queue c) q.tile =
    tileStep q.fmt.toNat (tileAt c q.tile) (rowsOfA m store q q.step) (rowsOfB m store q q.step) := tileAt_set_same ht

theorem steppedCore_length (queue : List MatrixCmd) : (steppedCore m store q queue c).tiles.length = c.tiles.length := by
  simp [steppedCore]

theorem tileAt_startCore (ht : q.tile < c.tiles.length) (hf : (tileAt c q.tile).fault = none) :
    tileAt (startCore q c) q.tile = startTile q (tileAt c q.tile) := by
  unfold startCore startTile
  split
  · rw [tileAt_zeroTile_same _ ht, hf]
    rfl
  · rfl

theorem startCore_length : (startCore q c).tiles.length = c.tiles.length := by
  unfold startCore
  split
  · exact zeroTile_length _
  · rfl

theorem startCore_frame : startCore q c = { c with tiles := (startCore q c).tiles } := by
  unfold startCore
  split <;> rfl

/-- A command without K-steps left is over once its tile has started. -/
theorem grantSteps_over (hq : c.queue = q :: rest) (hf : (tileAt c q.tile).fault = none) (hs : stepsTotal q ≤ q.step) :
    grantSteps m owned store n c = { startCore q c with queue := rest } := by
  unfold stepsTotal at hs
  rw [grantSteps.eq_def]
  simp only [hq, hf, hs, if_true]
  rfl

theorem grantSteps_zero (hq : c.queue = q :: rest) (hf : (tileAt c q.tile).fault = none) (hs : q.step < stepsTotal q) :
    grantSteps m owned store 0 c = startCore q c := by
  unfold stepsTotal at hs
  rw [grantSteps.eq_def]
  simp only [hq, hf, Nat.not_le.2 hs, if_false]
  rfl

theorem grantSteps_succ (howned : ∀ k n, owned k n = false) (hq : c.queue = q :: rest) (hf : (tileAt c q.tile).fault = none)
    (hs : q.step < stepsTotal q)
    (hsparse : q.kind = .mmas → sparseFault m store (operandDesc q.aDesc) q.fmt.toNat q.step = none) :
    grantSteps m owned store (n + 1) c =
      if q.step + 1 = stepsTotal q then steppedCore m store q rest (startCore q c)
      else grantSteps m owned store n (steppedCore m store q (stepped m store q :: rest) (startCore q c)) := by
  unfold stepsTotal at *
  have hnone : (if (q.kind == .mmas) = true then sparseFault m store (operandDesc q.aDesc) q.fmt.toNat q.step else none) = none := by
    split
    · rename_i hk
      exact hsparse (by simpa using hk)
    · rfl
  have hfree : (stepReads store q).any (fun r => owned r.1 r.2) = false := by simp [howned]
  rw [grantSteps.eq_def]
  simp only [hq, hf, Nat.not_le.2 hs, if_false, hfree, Bool.false_eq_true, hnone, rowsA_readGroup, rowsB_readGroup,
    show (readGroup m store q).step = q.step by rw [readGroup_eq],
    show (readGroup m store q).tile = q.tile by rw [readGroup_eq], steppedCore, startCore, stepped]

theorem tileStep_fault (fmt : Nat) (t : Tile) (as bs : List OperandRow) : (tileStep fmt t as bs).fault = t.fault := rfl

theorem startTile_fault {t : Tile} (h : t.fault = none) : (startTile q t).fault = none := by
  unfold startTile
  split
  · rfl
  · exact h

theorem startTile_later {t : Tile} (h : q.step ≠ 0) : startTile q t = t := if_neg (fun hz => h hz.1)

/-- Up to n K-steps of a grant: they run on the tile that the command starts on; a complete command leaves the queue. -/
theorem grantSteps_runs (howned : ∀ k n, owned k n = false) (n : Nat) {c : CoreState} {q : MatrixCmd} (hq : c.queue = q :: rest)
    (ht : q.tile < c.tiles.length) (hf : (tileAt c q.tile).fault = none) (hs : q.step < stepsTotal q)
    (hsparse : q.kind = .mmas → ∀ p, p < min n (stepsTotal q - q.step) →
      sparseFault m store (operandDesc q.aDesc) q.fmt.toNat (q.step + p) = none) :
    let c' := grantSteps m owned store n c
    let k := min n (stepsTotal q - q.step)
    c'.grant = c.grant ∧ tileAt c' q.tile = stepsOn m store q q.step k (startTile q (tileAt c q.tile)) ∧
      c'.queue = if q.step + k = stepsTotal q then rest else (stepped m store)^[k] q :: rest := by
  induction n generalizing c q with
  | zero =>
    intro c' k
    have hk : k = 0 := Nat.zero_min _
    have hc : c' = startCore q c := grantSteps_zero hq hf hs
    have hframe := startCore_frame (q := q) (c := c)
    rw [hc, hk]
    refine ⟨by rw [hframe], tileAt_startCore ht hf, ?_⟩
    rw [if_neg (by omega), hframe]
    exact hq
  | succ n ih =>
    intro c' k
    have hframe := startCore_frame (q := q) (c := c)
    have hlen : q.tile < (startCore q c).tiles.length := by rwa [startCore_length]
    have hstart := tileAt_startCore (q := q) ht hf
    have hc := grantSteps_succ (n := n) howned hq hf hs (fun hk => hsparse hk 0 (by omega))
    have hnext (queue : List MatrixCmd) : tileAt (steppedCore m store q queue (startCore q c)) q.tile =
        tileStep q.fmt.toNat (startTile q (tileAt c q.tile)) (rowsOfA m store q q.step) (rowsOfB m store q q.step) := by
      rw [← hstart]
      exact tileAt_steppedCore queue hlen
    have hgrant (queue : List MatrixCmd) : (steppedCore m store q queue (startCore q c)).grant = c.grant := by
      unfold steppedCore
      rw [hframe]
    by_cases hlast : q.step + 1 = stepsTotal q
    · have hk : k = 1 := by omega
      rw [if_pos hlast] at hc
      rw [show c' = _ from hc, hk, if_pos hlast]
      exact ⟨hgrant rest, hnext rest, rfl⟩
    · have hfields := stepped_eq m store q
      have htile : (stepped m store q).tile = q.tile := by rw [hfields]
      have hkind : (stepped m store q).kind = q.kind := by rw [hfields]
      have hfmt : (stepped m store q).fmt = q.fmt := by rw [hfields]
      have hdesc : (stepped m store q).aDesc = q.aDesc := by rw [hfields]
      have htotal : stepsTotal (stepped m store q) = stepsTotal q := by rw [hfields]; rfl
      have hstep : (stepped m store q).step = q.step + 1 := rfl
      rw [if_neg hlast] at hc
      have hrec := ih (c := steppedCore m store q (stepped m store q :: rest) (startCore q c)) (q := stepped m store q) rfl
        (by rwa [htile, steppedCore_length])
        (by
          rw [htile, hnext, tileStep_fault]
          exact startTile_fault hf)
        (by rw [htotal, hstep]; omega)
        (fun hk p hp => by
          rw [htotal, hstep] at hp
          rw [hfmt, hdesc, hstep, Nat.add_assoc, Nat.add_comm 1]
          exact hsparse (hkind ▸ hk) (p + 1) (by omega))
      obtain ⟨hg, ht', hq'⟩ := hrec
      have hk : k = min n (stepsTotal q - (q.step + 1)) + 1 := by omega
      rw [show c' = _ from hc]
      rw [htile, htotal, hstep, startTile_later (by rw [hstep]; omega), hnext, stepsOn_stepped (Nat.le_succ _)] at ht'
      rw [htotal, hstep] at hq'
      refine ⟨hg.trans (hgrant _), ?_, ?_⟩
      · rw [hk, stepsOn_succ]
        exact ht'
      · rw [hq', hk, Function.iterate_succ_apply]
        exact if_congr (by omega) rfl rfl

/-- A command that has run k > 0 more K-steps. -/
theorem stepped_iterate_advanced {k : Nat} (hk : 0 < k) : Advanced m store q k ((stepped m store)^[k] q) := by
  induction k generalizing q with
  | zero => exact absurd hk (Nat.lt_irrefl 0)
  | succ k ih =>
    have hfields := stepped_eq m store q
    have hkind : (stepped m store q).kind = q.kind := by rw [hfields]
    have hdense (h : q.kind ≠ .mmas) : (stepped m store q).chunks = q.chunks := by
      simp [stepped, readGroup, h]
    rw [Function.iterate_succ_apply]
    rcases Nat.eq_zero_or_pos k with rfl | hpos
    · refine ⟨by rw [Function.iterate_zero_apply, hfields], hdense, fun h r hr => ?_⟩
      rw [Nat.zero_add, Nat.add_sub_cancel, ← chunkOf_stepped h le_rfl hr, chunkOf_stepped_self]
      rfl
    · obtain ⟨hrest, hchunks, hsparse⟩ := ih (q := stepped m store q) hpos
      refine ⟨?_, fun h => (hchunks (hkind ▸ h)).trans (hdense h), fun h r hr => ?_⟩
      · have hstep : (stepped m store q).step + k = q.step + (k + 1) := by
          rw [show (stepped m store q).step = q.step + 1 from rfl]; omega
        have := congrArg (fun x : MatrixCmd => { x with chunks := q.chunks }) hrest
        rw [hstep] at this
        refine this.trans ?_
        rw [hfields]
      · rw [hsparse (hkind ▸ h) r hr, chunkOf_stepped h (by rw [show (stepped m store q).step = q.step + 1 from rfl]; omega) hr]
        congr 1
        rw [show (stepped m store q).step = q.step + 1 from rfl]
        omega

end

/-! ## The grant of a core (09 R270) -/

section
variable {m : Memory} {owned : Nat → Nat → Bool} {store n : Nat} {c : CoreState} {q : MatrixCmd} {rest : List MatrixCmd}

/-- What a grant leaves, but for what is left of it. -/
theorem runGrant_frame : (runGrant m owned store n c).queue = (grantSteps m owned store n c).queue ∧
    (∀ j, tileAt (runGrant m owned store n c) j = tileAt (grantSteps m owned store n c) j) ∧
    (runGrant m owned store n c).grant = if (grantSteps m owned store n c).queue.length = c.queue.length
      then c.grant - stepsDone c (grantSteps m owned store n c) else 0 := by
  unfold runGrant
  dsimp only
  split
  · exact ⟨rfl, fun _ => rfl, rfl⟩
  · exact ⟨rfl, fun _ => rfl, rfl⟩

/-- A grant ends with its command. -/
theorem runGrant_over (hq : c.queue = q :: rest) (h : (grantSteps m owned store n c).queue = rest) :
    (runGrant m owned store n c).queue = rest ∧ (runGrant m owned store n c).grant = 0 := by
  obtain ⟨hqueue, -, hgrant⟩ := runGrant_frame (m := m) (owned := owned) (store := store) (n := n) (c := c)
  refine ⟨hqueue.trans h, hgrant.trans (if_neg ?_)⟩
  rw [h, hq, List.length_cons]
  omega

/-- A grant whose command goes on has so many fewer K-steps left. -/
theorem runGrant_goes_on {q' : MatrixCmd} {k : Nat} (hq : c.queue = q :: rest) (h : (grantSteps m owned store n c).queue = q' :: rest)
    (hk : q'.step = q.step + k) :
    (runGrant m owned store n c).queue = q' :: rest ∧ (runGrant m owned store n c).grant = c.grant - k := by
  obtain ⟨hqueue, -, hgrant⟩ := runGrant_frame (m := m) (owned := owned) (store := store) (n := n) (c := c)
  refine ⟨hqueue.trans h, hgrant.trans ?_⟩
  rw [h, hq, if_pos (by simp)]
  simp [stepsDone, hq, h, hk]

theorem grantSteps_skips {r : TileFault} (hq : c.queue = q :: rest) (hf : (tileAt c q.tile).fault = some r) :
    grantSteps m owned store n c = skipCommand q r c := by
  rw [grantSteps.eq_def]
  simp only [hq, hf]

/-- A command that names a faulted tile is skipped (06 R205). -/
theorem runGrant_skips {r : TileFault} (hq : c.queue = q :: rest) (ht : q.tile < c.tiles.length)
    (hf : (tileAt c q.tile).fault = some r) :
    let c' := runGrant m owned store n c
    c'.queue = rest ∧ c'.grant = 0 ∧ tileAt c' q.tile =
      { tileAt c q.tile with fault := some { r with skipped := r.skipped + 1, issuers := r.issuers ++ [q.issuer] } } := by
  intro c'
  have hsteps := grantSteps_skips (m := m) (owned := owned) (store := store) (n := n) hq hf
  obtain ⟨-, htile, -⟩ := runGrant_frame (m := m) (owned := owned) (store := store) (n := n) (c := c)
  obtain ⟨hqueue, hgrant⟩ := runGrant_over (m := m) (owned := owned) (store := store) (n := n) hq (by
    rw [hsteps]
    simp [skipCommand, hq])
  refine ⟨hqueue, hgrant, (htile _).trans ?_⟩
  rw [hsteps]
  exact tileAt_modify_same (c := { c with queue := c.queue.drop 1 }) ht

/-- A command without K-steps only zeroes its tile (06 R200). -/
theorem runGrant_zeroes (hq : c.queue = q :: rest) (ht : q.tile < c.tiles.length) (hf : (tileAt c q.tile).fault = none)
    (hs : stepsTotal q ≤ q.step) :
    let c' := runGrant m owned store n c
    tileAt c' q.tile = startTile q (tileAt c q.tile) ∧ c'.queue = rest ∧ c'.grant = 0 := by
  intro c'
  have hsteps := grantSteps_over (m := m) (owned := owned) (store := store) (n := n) hq hf hs
  obtain ⟨-, htile, -⟩ := runGrant_frame (m := m) (owned := owned) (store := store) (n := n) (c := c)
  refine ⟨(htile _).trans ?_, runGrant_over hq (by rw [hsteps])⟩
  rw [hsteps]
  exact tileAt_startCore ht hf

/-- A grant runs K-steps of its command. -/
theorem runGrant_runs (howned : ∀ k n, owned k n = false) (hq : c.queue = q :: rest) (ht : q.tile < c.tiles.length)
    (hf : (tileAt c q.tile).fault = none) (hs : q.step < stepsTotal q)
    (hsparse : q.kind = .mmas → ∀ p, p < min (n + 1) (stepsTotal q - q.step) →
      sparseFault m store (operandDesc q.aDesc) q.fmt.toNat (q.step + p) = none) :
    let c' := runGrant m owned store (n + 1) c
    let k := min (n + 1) (stepsTotal q - q.step)
    tileAt c' q.tile = stepsOn m store q q.step k (startTile q (tileAt c q.tile)) ∧
      (q.step + k = stepsTotal q → c'.queue = rest ∧ c'.grant = 0) ∧
      (q.step + k < stepsTotal q → ∃ q', c'.queue = q' :: rest ∧ Advanced m store q k q' ∧ c'.grant = c.grant - k) := by
  intro c' k
  obtain ⟨-, htile, hqueue⟩ := grantSteps_runs howned (n + 1) hq ht hf hs hsparse
  obtain ⟨-, hsame, -⟩ := runGrant_frame (m := m) (owned := owned) (store := store) (n := n + 1) (c := c)
  refine ⟨(hsame _).trans htile, fun hlast => runGrant_over hq (hqueue.trans (if_pos hlast)), fun hmore => ?_⟩
  have hadv : Advanced m store q k ((stepped m store)^[k] q) := stepped_iterate_advanced (by omega)
  have hstep : ((stepped m store)^[k] q).step = q.step + k := congrArg MatrixCmd.step hadv.1
  obtain ⟨hq', hg'⟩ := runGrant_goes_on hq (hqueue.trans (if_neg hmore.ne)) hstep
  exact ⟨_, hq', hadv, hg'⟩

end

/-! ## The choice of a core (09 R270) -/

theorem pickCore_const {cs : List CoreState} {r : CoreState} (h : ∀ x ∈ cs, x = r) (hne : cs ≠ []) : pickCore cs = some r := by
  induction cs using List.reverseRecOn with
  | nil => exact absurd rfl hne
  | append_singleton cs x ih =>
    obtain ⟨hcs, hx⟩ := List.forall_mem_append.1 h
    obtain rfl := hx x (List.mem_singleton_self x)
    have hfold : pickCore (cs ++ [x]) = [x].foldl _ (pickCore cs) := List.foldl_append
    rw [hfold]
    rcases cs.eq_nil_or_concat with rfl | ⟨_, _, rfl⟩
    · rfl
    · rw [ih hcs (by simp)]
      simp

/-- A core as its grant goes on or begins. -/
def grantedCore (core : CoreState) (arbiter : Int) : CoreState := { core with arbiter := arbiter, grant := grantLeft core }

/-- Where one core alone can be granted, it is; of the others nothing changes. -/
theorem grantOf_sole {s : State} {die cluster : Nat} {core : CoreState} (hmem : core ∈ s.cores)
    (hgr : grantable s die cluster core = true) (hsole : ∀ c ∈ s.cores, c ≠ core → grantable s die cluster c = false) :
    ∃ arbiter cores, grantOf die cluster s = (some (grantedCore core arbiter), cores) ∧
      ∀ core' : CoreState, cores.map (fun x => if x.pos = core.pos then core' else x) =
        s.cores.map (fun x => if x.pos = core.pos then core' else x) := by
  have heq (x : CoreState) (hx : x ∈ s.cores) (hg : grantable s die cluster x = true) : x = core := by
    by_contra hne
    rw [hsole x hx hne] at hg
    cases hg
  unfold grantOf
  cases hfind : s.cores.find? (fun c => grantable s die cluster c && c.grant != 0) with
  | some x =>
    have hx := List.find?_some hfind
    simp only [Bool.and_eq_true, bne_iff_ne] at hx
    obtain rfl := heq x (List.mem_of_find?_eq_some hfind) hx.1
    exact ⟨x.arbiter, s.cores, by simp [grantedCore, grantLeft, hx.2], fun _ => rfl⟩
  | none =>
    have hzero : core.grant = 0 := by
      have := List.find?_eq_none.1 hfind core hmem
      simpa [hgr] using this
    unfold arbitrate
    dsimp only
    rw [pickCore_const (r := { core with arbiter := core.arbiter + weightOf s core }) ?_ ?_]
    · refine ⟨_, _, by rw [Option.map_some, grantedCore, grantLeft, if_pos hzero], fun core' => ?_⟩
      rw [List.map_map]
      refine List.map_congr_left (fun x hx => ?_)
      dsimp only [Function.comp]
      split
      · rename_i hg
        obtain rfl := heq x hx hg
        exact (if_pos rfl).trans (if_pos rfl).symm
      · rfl
    · intro y hy
      obtain ⟨hy, hg⟩ := List.mem_filter.1 hy
      obtain ⟨x, hx, rfl⟩ := List.mem_map.1 hy
      have hgx : grantable s die cluster x = true := by
        split at hg <;> exact hg
      obtain rfl := heq x hx hgx
      rw [if_pos hgx]
    · refine List.ne_nil_of_mem (List.mem_filter.2 ⟨List.mem_map.2 ⟨core, hmem, rfl⟩, ?_⟩)
      rw [if_pos hgr]
      exact hgr

theorem grantReads_keep (m : Memory) (die : Nat) (v : Viewer) (rs : List (Nat × Nat)) :
    SameBytes (rs.foldl (fun m r => m.pullStore die v r.1 r.2) m) m :=
  sameBytes_of_same (foldl_keeps (fun m r => m.pullStore die v r.1 r.2) (fun x => Memory.SameData x m)
    (fun x _ h => (pullStore_same x _ _ _ _).1.trans h) rs (.refl m))

/-- A free choice leaves what the copies own. -/
theorem copyOwned_free (s : State) (n : Nat) (viewer : Option Pos) :
    copyOwned { s with free := n } viewer = copyOwned s viewer := by
  have haperture (ctx : Nat) (band : Option Band) (own : Option Pos) (addr size : Nat) :
      resolveAperture { s with free := n } ctx band own addr size = resolveAperture s ctx band own addr size := by
    unfold resolveAperture
    rfl
  have hkey (c : Ctx) (band : Option Band) (addr size : Nat) :
      keyOf { s with free := n } c band addr size = keyOf s c band addr size := by
    simp only [keyOf, haperture]
  have howes (x : Xfer) (k size : Nat) : x.owes { s with free := n } k size = x.owes s k size := by
    simp only [Xfer.owes, hkey]
    rfl
  funext k size
  simp only [copyOwned, copyOwnedBefore, howes]

/-- The step of a grant where one core alone has a command. -/
theorem matrixGrant_steps {s : State} {die cluster : Nat} {core : CoreState} {store : Nat × Nat} {q : MatrixCmd}
    {rest : List MatrixCmd} (hclock : clocked s = true) (hsole : SoleRequest s die cluster core store q rest) :
    ∃ k arbiter m, k < grantLeft core ∧ SameBytes m s.mem ∧
      exec (.matrixGrant die cluster) s = .next { s with
        free := s.free + 1, mem := m, cores := s.cores.map (fun x => if x.pos = core.pos then
          runGrant s.mem (copyOwned s none) store.1 (k + 1) (grantedCore core arbiter) else x) } := by
  obtain ⟨hmem, hgr, hothers, -, -, hstore⟩ := hsole
  obtain ⟨arbiter, cores, hgrant, hcores⟩ := grantOf_sole hmem hgr hothers
  have hleft : 0 < grantLeft core := by unfold grantLeft; split <;> omega
  obtain ⟨k, hk, hpick⟩ : ∃ k, k < grantLeft core ∧ pick (grantedCore core arbiter).grant s = (k, { s with free := s.free + 1 }) :=
    ⟨_, Nat.mod_lt _ hleft, rfl⟩
  have hbytes (c' : CoreState) := grantReads_keep s.mem die (.core core.pos) (grantReads store.1 (k + 1) (grantedCore core arbiter) c')
  refine ⟨k, arbiter, _, hk, hbytes (runGrant s.mem (copyOwned s none) store.1 (k + 1) (grantedCore core arbiter)), ?_⟩
  have hband : (findBand s (grantedCore core arbiter).band).bind (fun b => gangStore b (grantedCore core arbiter).gang) = some store :=
    hstore
  have howned : copyOwned { s with free := s.free + 1 } none = copyOwned s none := copyOwned_free _ _ _
  rw [← hcores]
  show execMatrixGrant die cluster s = _
  unfold execMatrixGrant whileClocked
  rw [if_pos hclock]
  dsimp only
  rw [hgrant]
  dsimp only
  rw [hband, hpick]
  dsimp only
  rw [howned, show (grantedCore core arbiter).pos = core.pos from rfl]

theorem matrixGrantsRunKSteps : MatrixGrantsRunKStepsPart := by
  intro s die cluster core store q rest hclock hsole howned total
  obtain ⟨k, arbiter, m, hk, hsame, hexec⟩ := matrixGrant_steps hclock hsole
  obtain ⟨-, -, -, hq, ht, -⟩ := hsole
  refine ⟨k, _, m, hk, hexec, hsame, fun r hr => ?_, fun hf hs hsparse => ?_, fun hf hs hstep hz => ?_⟩
  · exact runGrant_skips (c := grantedCore core arbiter) hq ht hr
  · exact runGrant_runs (c := grantedCore core arbiter) howned hq ht hf hs hsparse
  · have hzero := runGrant_zeroes (c := grantedCore core arbiter) (m := s.mem) (owned := copyOwned s none) (store := store.1)
      (n := k + 1) hq ht hf hs
    rwa [startTile, if_pos ⟨hstep, hz⟩] at hzero

end Sys2Proof.Machine
end

section
/-!
Tile transfers: MRD, MWR and MRQT (06 R201 to R203).
-/

namespace Sys2Proof.Machine

/-! ## Several accesses (06 R191) -/

section
variable {a : Agent} {size : Nat} {kind : Kind} {checked fmtw : Bool} {s t : State} {ks : List Nat}

/-- Accesses at the addresses of items reach bytes at the keys. -/
theorem mapM_reaches {α : Type} {ys : List α} {addr : α → Nat} {g : α → Act Place}
    (hg : ∀ y ∈ ys, g y = reach a (addr y) size kind checked fmtw)
    (h : ReachesEach a size kind checked fmtw (ys.map addr) ks s t) :
    ∃ ps, ys.mapM g s = .ok (ps, t) ∧ List.Forall₂ BytesAt ps ks ∧ ps.length = ys.length ∧ (∀ k ∈ ks, keyIsView k = false) ∧
      AccessFrame s t := by
  induction ys generalizing ks s with
  | nil =>
    cases ks with
    | nil => cases h; exact ⟨[], rfl, .nil, rfl, by simp, .refl _⟩
    | cons k ks => cases h
  | cons y ys ih =>
    cases ks with
    | nil => cases h
    | cons k ks =>
      obtain ⟨hgy, hgs⟩ := List.forall_mem_cons.1 hg
      obtain ⟨hview, leaf, u, hreach, hrest⟩ := h
      obtain ⟨ps, hps, hforall, hlen, hviews, hframe⟩ := ih hgs hrest
      refine ⟨.bytes k leaf :: ps, ?_, .cons ⟨leaf, rfl⟩ hforall, by simp [hlen], by simpa [hview] using hviews,
        (Frames.reach _ _ _ _ _ _ _ _ _ hreach).trans hframe⟩
      rw [List.mapM_cons, hgy, act_bind_ok hreach, act_bind_ok hps]
      rfl

theorem forall₂_places_zip {β : Type} {ps : List Place} {ks : List Nat} {xs : List β} (h : List.Forall₂ BytesAt ps ks)
    (hlen : ps.length = xs.length) : List.Forall₂ (fun y k => BytesAt y.1 k) (ps.zip xs) ks := by
  induction h generalizing xs with
  | nil => exact .nil
  | @cons p k ps ks hp h ih =>
    cases xs with
    | nil => cases hlen
    | cons x xs => exact .cons hp (ih (by simpa using hlen))

/-- Elements whose addresses pass their checks are written one after the other. -/
theorem storeElements_completes {c : TCap} {xs : List Nat} {bss : List (List Byte)} (hcur : curAgent s = .ok (a, s))
    (hlen : xs.length = bss.length) (hsize : ∀ bs ∈ bss, bs.length = size)
    (h : ReachesEach a size .write true (capHas c.val permFMTW) xs ks s t) :
    storeElements c (xs.zip bss) s = .ok (⟨⟩, { t with
        mem := writesOf (eyeOf s.cur) t.late t.nextId (ks.zip bss) t.mem, nextId := t.nextId + bss.length }) ∧
      ∀ k ∈ ks, keyIsView k = false := by
  have hfst : (xs.zip bss).map Prod.fst = xs := List.map_fst_zip hlen.le
  obtain ⟨ps, hps, hbytes, hplaces, hviews, -⟩ := mapM_reaches (ys := xs.zip bss) (addr := Prod.fst)
    (g := fun x => reach a x.1 x.2.length .write true (capHas c.val permFMTW))
    (fun x hx => by rw [hsize x.2 (List.of_mem_zip hx).2]) (by rwa [hfst])
  have hwrites := mapM_writes (a := a) (addr := fun y : Place × Nat × List Byte => y.2.1) (bytes := fun y => y.2.2) (s := t)
    (forall₂_places_zip hbytes hplaces)
  have hdata : (ps.zip (xs.zip bss)).map (fun y => y.2.2) = bss := by
    rw [show (fun y : Place × Nat × List Byte => y.2.2) = Prod.snd ∘ Prod.snd from rfl, ← List.map_map,
      List.map_snd_zip hplaces.ge, List.map_snd_zip hlen.ge]
  have hcount : ks.length = bss.length := by
    rw [← hbytes.length_eq, hplaces, List.length_zip, hlen, Nat.min_self]
  rw [hdata, curAgent_eye hcur, hcount] at hwrites
  refine ⟨?_, hviews⟩
  unfold storeElements
  rw [act_bind_ok hcur, act_bind_ok hps, act_bind_ok hwrites]
  rfl

/-- Elements whose addresses pass their checks are read one after the other. -/
theorem loadElements_completes {xs : List Nat} (hcur : curAgent s = .ok (a, s))
    (h : ReachesEach a size .read false false xs ks s t)
    (hk : ∀ k ∈ ks, NoViews k t.mem ∧ t.mem.firstPoison k size = none) :
    let r := readsOf (eyeOf s.cur) size ks t.mem
    loadElements xs size s = .ok (r.1, { t with mem := r.2 }) ∧ SameBytes r.2 t.mem ∧ AccessFrame s t := by
  intro r
  obtain ⟨ps, hps, hbytes, hlen, hviews, hframe⟩ := mapM_reaches (addr := id) (ys := xs)
    (g := fun x => reach a x size .read false false) (fun _ _ => rfl) (by rwa [List.map_id])
  have hread : ReadableKeys size ks t.mem := fun k hx => ⟨hviews k hx, hk k hx⟩
  obtain ⟨rs, hrs, hvals⟩ := mapM_reads (a := a) (view := Prod.fst) (keep := fun _ bs => bs)
    (f := fun y : Place × Nat => readPlace a y.1 y.2 size) (fun y s r u hr => ⟨_, hr, rfl⟩) (forall₂_places_zip hbytes hlen) hread
  rw [curAgent_eye hcur] at hrs hvals
  have hcount : (ps.zip xs).length = r.1.length := by
    rw [readsOf_length, ← hbytes.length_eq, List.length_zip, hlen, Nat.min_self]
  have hkeep : rs.map Prod.fst = r.1 := by
    rw [hvals]
    exact List.ext_getElem (by simp only [List.length_zipWith, hcount, r, Nat.min_self]) (fun n h1 h2 => by simp only [List.getElem_zipWith, r])
  refine ⟨?_, sameBytes_of_same (readsOf_same _ hread), hframe⟩
  unfold loadElements
  rw [act_bind_ok hcur, act_bind_ok hps, act_bind_ok hrs]
  exact congrArg (fun x => Except.ok (x, _)) hkeep

end

/-! ## The common steps of a tile transfer (06 R193, R201, R205) -/

section
variable {s : State} {core : CoreState} {n : Nat} {f : Ext}

/-- An idle tile is transferred at once. -/
theorem tileTransfer_passes (hc : findCore s s.cur.pos = some core) (hi : TileIdle core n) :
    tileTransfer n (begun s) = .ok (core, begun s) := by
  obtain ⟨hqueue, hfault, hjoined⟩ := hi
  have hwait : waitIf (core.queue.any (fun q => q.tile == n)) (begun s) = .ok (⟨⟩, begun s) := by
    rw [act_waitIf, if_neg (by simpa using hqueue)]
  unfold tileTransfer
  rw [act_bind_ok (getCore_begun hc), act_bind_ok hwait, act_bind_ok (reportTile_passes hc hfault), hjoined]
  rfl

theorem tensorScales_begun (hb : Readable s f.b f.tb) : tensorScales f (begun s) = .ok (scalesOf s f, begun s) :=
  act_bind_ok (readData_begun hb)

theorem tileRange_passes {c : TCap} {pitch size perm : Nat} (h : TileRange c pitch size perm) (n : Nat) (s : State) :
    tileRange c n pitch size perm s = .ok (⟨⟩, s) := by
  obtain ⟨hpitch, hmult, hderef, halign⟩ := h
  unfold tileRange
  rw [if_neg (by omega)]
  exact (act_bind_ok (deref_passes hderef s)).trans (trapIf_passes (by simp [halign]))

theorem tileAddresses_length (base pitch size : Nat) : (tileAddresses base pitch size).length = 4096 := by
  simp [tileAddresses]

end

/-! ## MRD (06 R201) -/

/-- The results of elements in order, or the first range error among them. -/
def mrdResults (one : Nat → Except Bool (Nat × Flags)) (is : List Nat) : Except (Nat × Bool) (List (Nat × Flags)) :=
  is.foldr (fun i rest =>
    match one i with
    | .error nan => .error (i, nan)
    | .ok r => match rest with | .error e => .error e | .ok rs => .ok (r :: rs)) (.ok [])

theorem mrdAll_eq (one : Nat → Except Bool (Nat × Flags)) : mrdAll one = mrdResults one (List.range 4096) := rfl

theorem mrdResults_ok {one : Nat → Except Bool (Nat × Flags)} {is : List Nat} {rs : List (Nat × Flags)}
    (h : List.Forall₂ (fun i r => one i = .ok r) is rs) : mrdResults one is = .ok rs := by
  induction h with
  | nil => rfl
  | @cons i r is rs hi h ih =>
    unfold mrdResults at *
    rw [List.foldr_cons, hi, ih]

theorem mrdResults_error {one : Nat → Except Bool (Nat × Flags)} {before after : List Nat} {i : Nat} {nan : Bool}
    (hi : one i = .error nan) (h : ∀ j ∈ before, ∃ r, one j = .ok r) :
    mrdResults one (before ++ i :: after) = .error (i, nan) := by
  induction before with
  | nil =>
    unfold mrdResults
    rw [List.nil_append, List.foldr_cons, hi]
  | cons j before ih =>
    obtain ⟨⟨r, hr⟩, hbefore⟩ := List.forall_mem_cons.1 h
    have := ih hbefore
    unfold mrdResults at *
    rw [List.cons_append, List.foldr_cons, hr, this]

theorem mrdAll_ok {one : Nat → Except Bool (Nat × Flags)} {rs : List (Nat × Flags)} (hlen : rs.length = 4096)
    (h : ∀ i r, rs[i]? = some r → one i = .ok r) : mrdAll one = .ok rs := by
  rw [mrdAll_eq]
  refine mrdResults_ok (List.forall₂_iff_get.2 ⟨by simp [hlen], fun i h1 h2 => ?_⟩)
  simpa using h i _ (List.getElem?_eq_getElem h2)

theorem mrdAll_error {one : Nat → Except Bool (Nat × Flags)} {i : Nat} {nan : Bool} (hi : i < 4096) (he : one i = .error nan)
    (h : ∀ j, j < i → ∃ r, one j = .ok r) : mrdAll one = .error (i, nan) := by
  have hsplit : List.range 4096 = List.range i ++ i :: List.range' (i + 1) (4096 - (i + 1)) := by
    have happend := List.range'_append_1 (s := 0) (m := i) (n := 4096 - (i + 1) + 1)
    rw [Nat.zero_add, show i + (4096 - (i + 1) + 1) = 4096 by omega] at happend
    rw [List.range_eq_range', List.range_eq_range', ← List.range'_succ]
    exact happend.symm
  rw [mrdAll_eq, hsplit]
  exact mrdResults_error he (fun j hj => h j (List.mem_range.1 hj))

/-- The element of MRD at an index. -/
def mrdOne (f : Ext) (s : State) (tile : Tile) (i : Nat) : Except Bool (Nat × Flags) :=
  mrdElement tile f.fmt.toNat (Rm.ofCode f.rm.toNat) (f.imm.getLsbD 20) ((drawsOf f.rm 4096 s).1.getD i 0) i (scalesOf s f).1
    (scalesOf s f).2

/-- What MRD does with its results: they are stored, their flags are ORed, and CLEAR zeroes the tile. -/
def mrdFinish (f : Ext) (c : TCap) (tile : Tile) (rs : List (Nat × Flags)) : Act Unit := do
  storeElements c ((tileAddresses (capAddr c.val) (f.imm.toNat % 2 ^ 20) (fmtBits f.fmt.toNat / 8)).zip
    (rs.map (fun r => natBytes (fmtBits f.fmt.toNat / 8) r.1)))
  orFlags (rs.foldl (fun x r => x ||| r.2) Flags.none)
  if f.imm.getLsbD 21 then
    modCore (← get).cur.pos (fun c => { c with tiles := c.tiles.modify f.d.toNat (Tile.cleared tile.mode) })

/-- How MRD ends, by its results. -/
def mrdOutcome (f : Ext) (c : TCap) (tile : Tile) : Except (Nat × Bool) (List (Nat × Flags)) → Act Unit
  | .error (i, nan) => trap 0x0C (w64 ((if nan then 2 ^ 28 else 0) + f.fmt.toNat * 2 ^ 24 + (if tile.mode then 14 else 1) * 2 ^ 16 + i))
  | .ok rs => mrdFinish f c tile rs

section
variable {f : Ext} {s t : State} {core : CoreState} {a : Agent} {ks : List Nat}

@[simp] theorem drawsOf_begun (rm : BitVec 3) (n : Nat) (s : State) : drawsOf rm n (begun s) = drawsOf rm n s := by simp [drawsOf]

/-- MRD of an idle tile after its checks. -/
theorem mrdBody_eq (ha : Readable s f.a f.ta) (hb : Readable s f.b f.tb) (hc : findCore s s.cur.pos = some core)
    (hsto : f.rm = 5#3 → Sound [badSto] (begun s)) (hi : TileIdle core f.d.toNat)
    (hmode : (tileAt core f.d.toNat).mode = true → f.fmt.toNat < 2 ∨ f.fmt.toNat = 13 ∧ f.b = 0#6)
    (hrange : TileRange (regCap s f.a) (f.imm.toNat % 2 ^ 20) (fmtBits f.fmt.toNat / 8) permST)
    (hpoison : (tileAt core f.d.toNat).poison = false) :
    mrdBody f (begun s) = mrdOutcome f (regCap s f.a) (tileAt core f.d.toNat) (mrdAll (mrdOne f s (tileAt core f.d.toNat)))
      (afterDraws f.rm 4096 (begun s)) := by
  have hok : ¬ ((tileAt core f.d.toNat).mode = true ∧
      (2 ≤ f.fmt.toNat ∧ f.fmt.toNat ≠ 13 ∨ f.fmt.toNat = 13 ∧ f.b ≠ 0#6)) := by
    rintro ⟨hm, hbad⟩
    rcases hmode hm with hlt | ⟨h13, h0⟩
    · rcases hbad with ⟨hge, -⟩ | ⟨h13, -⟩ <;> omega
    · rcases hbad with ⟨-, hne⟩ | ⟨-, hne⟩
      · exact hne h13
      · exact hne h0
  have hdraws := takeDraws_sound 4096 hsto
  rw [drawsOf_begun] at hdraws
  unfold mrdBody
  rw [act_bind_ok (readG_begun ha), act_bind_ok (tensorScales_begun hb)]
  dsimp only
  rw [act_bind_ok (tileTransfer_passes hc hi), if_neg hok, act_bind_ok (tileRange_passes hrange _ _),
    if_neg (by simp [hpoison]), act_bind_ok hdraws]
  change _ = mrdOutcome _ _ _ (mrdAll (fun i => mrdElement (tileAt core f.d.toNat) f.fmt.toNat (Rm.ofCode f.rm.toNat) (f.imm.getLsbD 20)
    ((drawsOf f.rm 4096 s).1.getD i 0) i (scalesOf s f).1 (scalesOf s f).2)) _
  generalize mrdAll _ = r
  cases r with
  | error e => rfl
  | ok rs => rfl

/-- The results are stored at the tile's addresses. -/
theorem mrdFinish_completes {c : TCap} {tile : Tile} {rs : List (Nat × Flags)} {addrs : List Nat} (hlen : rs.length = 4096)
    (hcur : curAgent s = .ok (a, s))
    (haddrs : tileAddresses (capAddr c.val) (f.imm.toNat % 2 ^ 20) (fmtBits f.fmt.toNat / 8) = addrs)
    (h : ReachesEach a (fmtBits f.fmt.toNat / 8) .write true (capHas c.val permFMTW) addrs ks s t) :
    mrdFinish f c tile rs s = .ok (⟨⟩, (if f.imm.getLsbD 21 then clearTile f.d.toNat tile.mode else id)
      (setFlags (rs.foldl (fun x r => x ||| r.2) Flags.none) { t with
        mem := writesOf (eyeOf s.cur) t.late t.nextId
          ((ks.zip rs).map (fun y => (y.1, natBytes (fmtBits f.fmt.toNat / 8) y.2.1))) t.mem
        nextId := t.nextId + 4096 })) ∧ ∀ k ∈ ks, keyIsView k = false := by
  have hlens : addrs.length = (rs.map (fun r => natBytes (fmtBits f.fmt.toNat / 8) r.1)).length := by
    rw [← haddrs, tileAddresses_length, List.length_map, hlen]
  obtain ⟨hstore, hviews⟩ := storeElements_completes (c := c) hcur hlens
    (fun bs hbs => by
      obtain ⟨r, -, hr⟩ := List.mem_map.1 hbs
      rw [← hr, natBytes_length]) h
  rw [List.length_map, hlen, List.zip_map_right (l₁ := ks)] at hstore
  refine ⟨?_, hviews⟩
  unfold mrdFinish
  rw [haddrs, act_bind_ok hstore, act_bind_ok (orFlags_eq _ _)]
  split
  · rfl
  · rfl

end

theorem getLsbD_resultFlags (rs : List (Nat × Flags)) (k : Nat) :
    (rs.foldl (fun x r => x ||| r.2) Flags.none).getLsbD k = true ↔ ∃ r ∈ rs, r.2.getLsbD k = true := by
  rw [← List.foldl_map (f := Prod.snd) (g := fun x y => x ||| y), getLsbD_foldl_or, or_iff_right (by simp [Flags.none])]
  simp only [List.mem_map, exists_exists_and_eq_and]

theorem readsTile (f : Ext) : ReadsTile f := by
  intro s t core a ks hr ha hb hc n tile fmt size pitch sc u one hi hmode hrange hpoison
  have hbody := mrdBody_eq ha hb hc (sto_sound_begun rfl hr) hi hmode hrange hpoison
  generalize haddrs : tileAddresses (capAddr (regCap s f.a).val) pitch size = addrs
  refine ⟨fun i nan hlt he hbefore => ?_, fun rs hlen hrs hcur hreach => ?_⟩
  · rw [mrdAll_error (one := mrdOne f s (tileAt core f.d.toNat)) hlt he hbefore] at hbody
    exact exec_traps rfl rfl hr hbody
  · rw [mrdAll_ok (one := mrdOne f s (tileAt core f.d.toNat)) hlen hrs] at hbody
    obtain ⟨hfinish, hviews⟩ := mrdFinish_completes (tile := tileAt core f.d.toNat) hlen hcur haddrs hreach
    refine ⟨_, _, fun k => ?_, exec_completes rfl rfl hr (hbody.trans hfinish), fun hw hn => ?_⟩
    · exact getLsbD_resultFlags rs k
    · exact (writesOf_cells _ _ _ hw (fun w hwm => by
        obtain ⟨y, hy, rfl⟩ := List.mem_map.1 hwm
        have hyk := (List.of_mem_zip hy).1
        exact ⟨hviews _ hyk, hn _ hyk⟩)).1

/-! ## MWR (06 R202) -/

/-- The core after MWR has loaded a tile. -/
def loadedCore (mode : Bool) (n : Nat) (acc : List DWord) (underflow : Bool) (c : CoreState) : CoreState :=
  { zeroTile mode n c with tiles := (zeroTile mode n c).tiles.modify n (fun t => { t with acc := acc, underflow := underflow }) }

theorem loadedCore_tile {mode : Bool} {n : Nat} {acc : List DWord} {underflow : Bool} {c : CoreState} (hn : n < c.tiles.length) :
    tileAt (loadedCore mode n acc underflow c) n =
      { Tile.zeroed mode with fault := (tileAt c n).fault, acc := acc, underflow := underflow } := by
  unfold loadedCore
  rw [tileAt_modify_same (by rwa [zeroTile_length]), tileAt_zeroTile_same mode hn]

theorem loadedCore_other {mode : Bool} {n j : Nat} {acc : List DWord} {underflow : Bool} {c : CoreState} (hj : j ≠ n) (hj' : j ≠ n + 1) :
    tileAt (loadedCore mode n acc underflow c) j = tileAt c j := by
  unfold loadedCore
  rw [tileAt_modify_other hj, tileAt_zeroTile_other mode hj hj']

theorem loadedCore_queue (mode : Bool) (n : Nat) (acc : List DWord) (underflow : Bool) (c : CoreState) :
    (loadedCore mode n acc underflow c).queue = c.queue := rfl

/-- A subnormal FP32 code. -/
def subnormalCode (mode : Bool) (x : Nat) : Bool := !mode && x % 2 ^ 31 != 0 && decide (x % 2 ^ 31 < 2 ^ 23)

theorem loadedAccumulator_eq (mode : Bool) (x : Nat) : loadedAccumulator mode x =
    if mode then rnsAdd x 0 else if subnormalCode mode x then (Fp.ofFmt 1).signBit (x.testBit 31) else x := by
  cases mode with
  | true => rfl
  | false =>
    simp only [loadedAccumulator, subnormalCode, Bool.false_eq_true, if_false, Bool.not_false, Bool.true_and, Bool.and_eq_true,
      bne_iff_ne, decide_eq_true_eq]
    rfl

/-- What MWR does with the elements that it has read. -/
def mwrFinish (f : Ext) (rows : List (List Byte)) : Act Unit := do
  modCore (← get).cur.pos (loadedCore (f.fmt == 14#4) f.d.toNat
    (rows.map (fun bs => BitVec.ofNat 64 (loadedAccumulator (f.fmt == 14#4) (bytesNat bs))))
    ((rows.map bytesNat).any (subnormalCode (f.fmt == 14#4))))

/-- MWR into an idle tile after its checks. -/
theorem mwrBody_eq {f : Ext} {s : State} {core : CoreState} (ha : Readable s f.a f.ta) (hc : findCore s s.cur.pos = some core)
    (hi : TileIdle core f.d.toNat)
    (hpair : (f.fmt == 14#4) = true → f.d.toNat % 2 = 0 ∧ f.d.toNat + 1 < allotTiles s.cur.allotw ∧
      ∀ q ∈ core.queue, q.tile ≠ f.d.toNat + 1)
    (hrange : TileRange (regCap s f.a) (f.imm.toNat % 2 ^ 20) (if f.fmt == 14#4 then 8 else 4) permLD) :
    mwrBody f (begun s) = (do
      let rows ← loadElements (tileAddresses (capAddr (regCap s f.a).val) (f.imm.toNat % 2 ^ 20) (if f.fmt == 14#4 then 8 else 4))
        (if f.fmt == 14#4 then 8 else 4)
      mwrFinish f rows : Act Unit) (begun s) := by
  have hname : ¬ ((f.fmt == 14#4) = true ∧ unpaired (begun s).cur.allotw f.d.toNat = true) := by
    rintro ⟨hm, hu⟩
    obtain ⟨heven, hroom, -⟩ := hpair hm
    simp [unpaired, heven] at hu
    omega
  have hwait : waitIf ((f.fmt == 14#4) && core.queue.any (fun q => q.tile == f.d.toNat + 1)) (begun s) = .ok (⟨⟩, begun s) := by
    rw [act_waitIf, if_neg]
    intro hw
    obtain ⟨hm, hq⟩ := Bool.and_eq_true_iff.1 hw
    obtain ⟨q, hmem, hq⟩ := List.any_eq_true.1 hq
    exact (hpair hm).2.2 q hmem (by simpa using hq)
  unfold mwrBody
  rw [act_bind_ok (readG_begun ha), act_bind_ok (tileTransfer_passes hc hi), act_bind_ok (act_get _), if_neg hname]
  dsimp only
  rw [act_bind_ok (getCore_begun hc), act_bind_ok hwait, act_bind_ok (tileRange_passes hrange _ _)]
  refine congrFun (congrArg (fun k => _ >>= k) (funext (fun rows => ?_))) _
  have hacc : rows.map (fun bs => BitVec.ofNat 64 (loadedAccumulator (f.fmt == 14#4) (bytesNat bs))) =
      (rows.map bytesNat).map (fun x => BitVec.ofNat 64 (if (f.fmt == 14#4) = true then rnsAdd x 0
        else if subnormalCode (f.fmt == 14#4) x = true then (Fp.ofFmt 1).signBit (x.testBit 31) else x)) := by
    rw [List.map_map]
    exact List.map_congr_left (fun bs _ => congrArg _ (loadedAccumulator_eq _ _))
  unfold mwrFinish
  rw [hacc]
  rfl

theorem writesTile (f : Ext) : WritesTile f := by
  intro s t core a ks hr ha hc n mode size pitch hi hpair hn hrange hcur
  have hbody := mwrBody_eq ha hc hi hpair hrange
  generalize haddrs : tileAddresses (capAddr (regCap s f.a).val) pitch size = addrs
  intro hreach hk r
  obtain ⟨hload, hsame, hframe⟩ := loadElements_completes hcur hreach hk
  rw [eyeOf_begun] at hload hsame
  refine ⟨hsame, loadedCore mode n (r.1.map (fun bs => BitVec.ofNat 64 (loadedAccumulator mode (bytesNat bs))))
    ((r.1.map bytesNat).any (subnormalCode mode)), exec_completes rfl rfl hr (hbody.trans ?_), fun c hc => ?_⟩
  · rw [show tileAddresses (capAddr (regCap s f.a).val) (f.imm.toNat % 2 ^ 20) (if f.fmt == 14#4 then 8 else 4) = addrs from haddrs,
      act_bind_ok hload]
    have hpos : coreOf t.cur.pos = coreOf s.cur.pos := by rw [hframe.cur, begun_cur_pos]
    rw [← hpos]
    rfl
  · refine ⟨?_, ?_, ?_, fun j hj hj' => loadedCore_other hj hj', loadedCore_queue _ _ _ _ _⟩
    · rw [loadedCore_tile hc]; rfl
    · rw [loadedCore_tile hc]
    · rw [loadedCore_tile hc]

/-! ## MRQT (06 R203) -/

section
variable {s : State}

theorem noCopies_owns (h : NoCopies s) (before : Nat) (viewer : Option Pos) (k n : Nat) :
    copyOwnedBefore s before viewer k n = false := by
  unfold copyOwnedBefore
  refine List.any_eq_false.2 (fun c hc => ?_)
  rw [Bool.not_eq_true]
  refine List.any_eq_false.2 (fun ch hch => ?_)
  simp [h c hc ch hch]

theorem noCopies_scoreboard (h : NoCopies s) (p : Pos) (k n : Nat) : scoreboarded s p k n = false := by
  unfold scoreboarded
  cases hc : findCore s p with
  | none => rfl
  | some c =>
    refine List.any_eq_false.2 (fun ch hch => ?_)
    simp [h c (List.mem_of_find?_eq_some hc) ch hch]

/-- While no copy is in flight no access waits for one. -/
theorem awaitCopies_passes (h : NoCopies s) (a : Agent) (k n : Nat) : awaitCopies a k n s = .ok (⟨⟩, s) := by
  unfold awaitCopies copyOwned
  rw [act_bind_ok (act_get _)]
  simp only [noCopies_owns h, noCopies_scoreboard h, Bool.and_false, Bool.or_false]
  cases a.xfer with
  | some x => rfl
  | none => cases a.duty <;> rfl

end

/-- A thread in a context whose accesses do not wait is an agent. -/
theorem curAgent_found {s : State} {c : Ctx} (hc : findCtx s s.cur.fid.ctx = some c) (hw : accessWaits s.cur = false) :
    ∃ a, curAgent s = .ok (a, s) := by
  rw [curAgent_spec, hc, hw]
  exact ⟨_, rfl⟩

/-- Only bytes of a range of memory are written, and writes are numbered. -/
structure WritesWithin (lo hi : Nat) (s t : State) : Prop where
  rest : t = { s with mem := t.mem, nextId := t.nextId }
  data : s.mem.wf = true → t.mem.wf = true ∧ t.mem.full = s.mem.full ∧
    ∀ x, x < lo ∨ hi ≤ x → cellGet t.mem.cells x = cellGet s.mem.cells x

theorem WritesWithin.refl (lo hi : Nat) (s : State) : WritesWithin lo hi s s := ⟨rfl, fun h => ⟨h, rfl, fun _ _ => rfl⟩⟩

theorem WritesWithin.trans {lo hi : Nat} {s t u : State} (h : WritesWithin lo hi s t) (k : WritesWithin lo hi t u) :
    WritesWithin lo hi s u := by
  refine ⟨?_, fun hw => ?_⟩
  · rw [k.rest, h.rest]
  · obtain ⟨hw', hfull, hcells⟩ := h.data hw
    obtain ⟨kw, kfull, kcells⟩ := k.data hw'
    exact ⟨kw, kfull.trans hfull, fun x hx => (kcells x hx).trans (hcells x hx)⟩

theorem WritesWithin.noCopies {lo hi : Nat} {s t : State} (h : WritesWithin lo hi s t) (hn : NoCopies s) : NoCopies t := by
  have hc : t.cores = s.cores := by rw [h.rest]
  unfold NoCopies
  rw [hc]
  exact hn

/-- A write into a store inside a range. -/
theorem writePlace_within {a : Agent} {k addr lo hi : Nat} {leaf : Option Nat} {bs : List Byte} (s : State)
    (hk : keyIsStore k = true) (hlo : lo ≤ k) (hhi : k + bs.length ≤ hi) :
    ∃ t, writePlace a (.bytes k leaf) addr bs false none s = .ok (⟨⟩, t) ∧ WritesWithin lo hi s t := by
  refine ⟨_, writePlace_bytes, rfl, fun hw => ?_⟩
  obtain ⟨hcells, hfull⟩ := write_cells a.eye s.late s.nextId none bs (m := s.mem) (by simp [keyIsView, hk]) (.inl hk)
  refine ⟨write_wf _ _ _ _ _ _ _ hw, hfull, fun x hx => ?_⟩
  rw [hcells]
  exact cellGet_cellsPut_outside _ _ _ _ (by omega)

/-- Steps one after the other that each write inside a range while no copy is in flight. -/
theorem mapM_within {α β : Type} {f : α → Act β} {lo hi : Nat} {ys : List α} {s : State}
    (hf : ∀ y ∈ ys, ∀ s, NoCopies s → ∃ b t, f y s = .ok (b, t) ∧ WritesWithin lo hi s t) (hn : NoCopies s) :
    ∃ bs t, ys.mapM f s = .ok (bs, t) ∧ WritesWithin lo hi s t := by
  induction ys generalizing s with
  | nil => exact ⟨[], s, rfl, .refl _ _ _⟩
  | cons y ys ih =>
    obtain ⟨hy, hys⟩ := List.forall_mem_cons.1 hf
    obtain ⟨b, t, hb, ht⟩ := hy s hn
    obtain ⟨bs, u, hbs, hu⟩ := ih hys (ht.noCopies hn)
    refine ⟨b :: bs, u, ?_, ht.trans hu⟩
    rw [List.mapM_cons, act_bind_ok hb, act_bind_ok hbs]
    rfl

/-- The chunks and scales of two panels lie below the top of their operand. -/
theorem operandDesc_inside {d : OperandDesc} {size p m : Nat} (h : d.top 2 16 true ≤ size) (hp : p < 2) (hm : m < 64) :
    d.chunk p m + 16 ≤ size ∧ d.scale p m + 1 ≤ size := by
  have hrow : (m + p * d.rot) % 64 * 16 * d.rowPitch ≤ 63 * 16 * d.rowPitch := by
    have : (m + p * d.rot) % 64 ≤ 63 := by omega
    gcongr
  have hpanel : p * 16 * d.tilePitch ≤ 1 * 16 * d.tilePitch := by
    have : p ≤ 1 := by omega
    gcongr
  have htop : max (d.base + 1 * 16 * d.tilePitch + 63 * 16 * d.rowPitch + 16) (d.base + 1 * 16 * d.tilePitch + 64 * 16 * d.rowPitch + 64) ≤
      size := h
  unfold OperandDesc.chunk OperandDesc.scale
  omega

theorem gangStore_key {b : Band} {gang : Nat} {store : Nat × Nat} (h : gangStore b gang = some store) (j : Nat) :
    keyIsStore (store.1 + j) = true := by
  obtain ⟨p, -, rfl⟩ := Option.map_eq_some_iff.1 h
  exact decide_eq_true (by unfold clusterKey; omega)

/-- One block of MRQT: its codes and its scale byte. -/
def mrqtBlock (agent : Agent) (store : Nat) (d : OperandDesc) (b : Nat × Nat × Nat × List (Nat × Flags)) : Act Unit := do
  let (p, m, r) := b
  let codes := r.2.map (·.1)
  let bytes := (List.range 16).map (fun i => BitVec.ofNat 8 (codes.getD (2 * i) 0 + 16 * codes.getD (2 * i + 1) 0))
  awaitCopies agent (store + d.chunk p m) 16
  awaitCopies agent (store + d.scale p m) 1
  writePlace agent (.bytes (store + d.chunk p m) none) 0 bytes false none
  writePlace agent (.bytes (store + d.scale p m) none) 0 [BitVec.ofNat 8 r.1] false none

theorem mrqtBlock_within {agent : Agent} {store : Nat × Nat} {d : OperandDesc} {b : Nat × Nat × Nat × List (Nat × Flags)}
    {s : State} (htop : d.top 2 16 true ≤ store.2) (hstore : ∀ j, keyIsStore (store.1 + j) = true) (hp : b.1 < 2) (hm : b.2.1 < 64)
    (hn : NoCopies s) : ∃ r t, mrqtBlock agent store.1 d b s = .ok (r, t) ∧ WritesWithin store.1 (store.1 + store.2) s t := by
  obtain ⟨hchunk, hscale⟩ := operandDesc_inside htop hp hm
  unfold mrqtBlock
  dsimp only
  rw [act_bind_ok (awaitCopies_passes hn _ _ _), act_bind_ok (awaitCopies_passes hn _ _ _)]
  obtain ⟨t, ht, hwt⟩ := writePlace_within (a := agent) (addr := 0) (leaf := none) (lo := store.1) (hi := store.1 + store.2)
    (bs := (List.range 16).map (fun i => BitVec.ofNat 8 ((b.2.2.2.map (·.1)).getD (2 * i) 0 + 16 * (b.2.2.2.map (·.1)).getD (2 * i + 1) 0)))
    s (hstore (d.chunk b.1 b.2.1)) (Nat.le_add_right _ _) (by simp; omega)
  obtain ⟨u, hu, hwu⟩ := writePlace_within (a := agent) (addr := 0) (leaf := none) (lo := store.1) (hi := store.1 + store.2)
    (bs := [BitVec.ofNat 8 b.2.2.1]) t (hstore (d.scale b.1 b.2.1)) (Nat.le_add_right _ _) (by simp; omega)
  exact ⟨_, u, (act_bind_ok ht).trans hu, hwt.trans hwu⟩

/-- The last part of MRQT: the blocks are written, and the flags ORed. -/
def mrqtFinish (store : Nat) (d : OperandDesc) (blocks : List (Nat × Nat × Nat × List (Nat × Flags))) (made : Flags) : Act Unit := do
  let agent ← curAgent
  let _ ← blocks.mapM (mrqtBlock agent store d)
  orFlags (blocks.foldl (fun x b => b.2.2.2.foldl (fun x r => x ||| r.2) x) made)

theorem mrqtFinish_completes {a : Agent} {store : Nat × Nat} {d : OperandDesc} {blocks : List (Nat × Nat × Nat × List (Nat × Flags))}
    {s : State} (made : Flags) (htop : d.top 2 16 true ≤ store.2) (hstore : ∀ j, keyIsStore (store.1 + j) = true)
    (hblocks : ∀ b ∈ blocks, b.1 < 2 ∧ b.2.1 < 64) (hcur : curAgent s = .ok (a, s)) (hn : NoCopies s) :
    ∃ fl t, mrqtFinish store.1 d blocks made s = .ok (⟨⟩, setFlags fl t) ∧ WritesWithin store.1 (store.1 + store.2) s t := by
  obtain ⟨bs, t, ht, hwithin⟩ := mapM_within (f := mrqtBlock a store.1 d) (ys := blocks)
    (fun b hb s hs => mrqtBlock_within htop hstore (hblocks b hb).1 (hblocks b hb).2 hs) hn
  refine ⟨blocks.foldl (fun x b => b.2.2.2.foldl (fun x r => x ||| r.2) x) made, t, ?_, hwithin⟩
  unfold mrqtFinish
  rw [act_bind_ok hcur, act_bind_ok ht]
  exact orFlags_eq _ _

/-- MRQT of an idle tile after its checks. -/
theorem mrqtBody_eq {f : Ext} {s : State} {core : CoreState} {b : Band} {store : Nat × Nat} (ha : Readable s f.a f.ta)
    (hb : Readable s f.b f.tb) (hc : findCore s s.cur.pos = some core) (hband : bandOf s s.cur = some b)
    (hstore : gangStore b s.cur.fid.gang = some store) (hsto : f.rm = 5#3 → Sound [badSto] (begun s)) (hi : TileIdle core f.d.toNat)
    (hmode : (tileAt core f.d.toNat).mode = false) (hpoison : (tileAt core f.d.toNat).poison = false)
    (hbad : descBad (regData s f.a) = false) (htop : (operandDesc (regData s f.a)).top 2 16 true ≤ store.2) :
    ∃ block : Nat → Nat → Nat × List (Nat × Flags), ∃ made,
      mrqtBody f (begun s) = mrqtFinish store.1 (operandDesc (regData s f.a))
        ((List.range 2).flatMap (fun p => (List.range 64).map (fun m => (p, m, block p m)))) made
        (afterDraws f.rm 4096 (begun s)) := by
  unfold mrqtBody
  rw [act_bind_ok (readData_begun ha), act_bind_ok (tensorScales_begun hb)]
  dsimp only
  rw [act_bind_ok (tileTransfer_passes hc hi), if_neg (by simp [hmode]), if_neg (by simp [hbad]),
    act_bind_ok (ownStore_begun hband hstore), if_neg (Nat.not_lt.2 htop), if_neg (by simp [hpoison]), act_bind_ok (takeDraws_sound 4096 hsto)]
  exact ⟨_, _, rfl⟩

theorem requantises (f : Ext) : Requantises f := by
  intro s core b store c hr ha hb hc hband hstore hctx hwait hcopies n tile w hi hmode hpoison hhigh hlow hpitch htop
  obtain ⟨block, made, hbody⟩ := mrqtBody_eq ha hb hc hband hstore (sto_sound_begun rfl hr) hi hmode hpoison
    (descBad_false hhigh hlow hpitch) htop
  have hctx' : findCtx (afterDraws f.rm 4096 (begun s)) (begun s).cur.fid.ctx = some c := by rw [begun_cur_fid]; exact hctx
  have hwait' : accessWaits (begun s).cur = false := by simpa [accessWaits] using hwait
  obtain ⟨a, hcur⟩ := curAgent_found (s := afterDraws f.rm 4096 (begun s)) hctx' hwait'
  obtain ⟨fl, t, hfinish, hwithin⟩ := mrqtFinish_completes (s := afterDraws f.rm 4096 (begun s)) made htop (gangStore_key hstore)
    (blocks := (List.range 2).flatMap (fun p => (List.range 64).map (fun m => (p, m, block p m))))
    (fun x hx => by
      obtain ⟨p, hp, hx⟩ := List.mem_flatMap.1 hx
      obtain ⟨m, hm, rfl⟩ := List.mem_map.1 hx
      exact ⟨List.mem_range.1 hp, List.mem_range.1 hm⟩)
    hcur hcopies
  refine ⟨t.mem, fl, t.nextId, ?_, fun hw => ?_⟩
  · rw [← hwithin.rest]
    exact exec_completes rfl rfl hr (hbody.trans hfinish)
  · obtain ⟨-, hfull, hcells⟩ := hwithin.data hw
    exact ⟨hcells, hfull⟩

theorem tileTransfersComplete : TileTransfersCompletePart :=
  ⟨readsTile, writesTile, requantises, fun _ => waitsTile_of rfl (fun _ => rfl), fun _ => waitsTile_of rfl (fun _ => rfl),
    fun _ => statesTile_of rfl (fun _ => rfl), fun _ => statesTile_of rfl (fun _ => rfl)⟩

/-- Settles O32: the issue of commands by their checks, a grant by induction on its K-steps, the tile transfers by the reads and writes
of their elements. -/
theorem matrixFormsComplete : Obligations.MatrixFormsComplete :=
  ⟨matrixCommandsAreQueued, matrixGrantsRunKSteps, tileTransfersComplete⟩

end Sys2Proof.Machine
end
